-- ==== Sys2Proof/Word.lean ====
section
/-!
DEFINITION. The words that the 7310 sends, receives and keeps as bits (R171): bytes, two-byte fields,
four-byte fields. Identifiers, counts and times are natural numbers everywhere else.
-/

namespace Sys2Proof

/-- One byte of a frame, of the image or of a response body (R171). -/
abbrev Byte := BitVec 8

/-- A field of two bytes: element ids, area ids, period offers, outcome details (R171). -/
abbrev Half := BitVec 16

/-- A field of four bytes: device time, digests (R172). -/
abbrev Word := BitVec 32

end Sys2Proof
end

