-- ==== Sys2Proof/Syntax.lean ====
section
/-!
DEFINITION. The commands of the 7310: one constructor of `Instr` for each row of spec/opcode_table.json.
A request carries the sending channel, its tag and its body fields as they are sent (R172), so a field may be
out of its range; a timer expiry names the record whose timer expires; link frames carry decoded fields or
the raw run of characters.
-/

namespace Sys2Proof

/-- The two channel computers (R23). -/
inductive Channel where
  | A
  | B
  deriving DecidableEq, Repr

/-- One item of REPORT FIELD STATUS (R4, R172): element id and state byte. -/
structure ReportItem where
  element : Half
  state : Byte
  deriving DecidableEq, Repr

/-- The commands. Each constructor is one row of the table. -/
inductive Instr where
  -- single requests (R23)
  | reportFieldStatus (ch : Channel) (tag : Byte) (items : List ReportItem)
  | readElement (ch : Channel) (tag : Byte) (element : Half)
  | readRoute (ch : Channel) (tag : Byte) (route : Byte)
  | readRoutes (ch : Channel) (tag : Byte)
  | readSlot (ch : Channel) (tag : Byte) (link slot : Byte)
  | readLink (ch : Channel) (tag : Byte) (link : Byte)
  | readParameters (ch : Channel) (tag : Byte)
  | readStatus (ch : Channel) (tag : Byte)
  | readEvents (ch : Channel) (tag : Byte) (count : Byte)
  | pause (ch : Channel) (tag : Byte)
  | resume (ch : Channel) (tag : Byte)
  -- concurred requests, one half each (R23)
  | setRoute (ch : Channel) (tag : Byte) (route variant : Byte)
  | cancelRoute (ch : Channel) (tag : Byte) (route : Byte)
  | emergencyRelease (ch : Channel) (tag : Byte) (route : Byte)
  | setApproachSpeed (ch : Channel) (tag : Byte) (route speed : Byte)
  | movePoint (ch : Channel) (tag : Byte) (element : Half) (position : Byte)
  | blockElement (ch : Channel) (tag : Byte) (element : Half)
  | unblockElement (ch : Channel) (tag : Byte) (element : Half)
  | inhibitSet (ch : Channel) (tag : Byte) (element : Half)
  | inhibitClear (ch : Channel) (tag : Byte) (element : Half)
  | elementRestore (ch : Channel) (tag : Byte) (element : Half)
  | requestPermit (ch : Channel) (tag : Byte) (link slot : Byte)
  | blockSlot (ch : Channel) (tag : Byte) (link slot : Byte)
  | unblockSlot (ch : Channel) (tag : Byte) (link slot : Byte)
  | restoreSlot (ch : Channel) (tag : Byte) (link slot mode : Byte)
  | releaseReservation (ch : Channel) (tag : Byte) (link slot : Byte)
  | linkTest (ch : Channel) (tag : Byte) (link : Byte) (pattern : List Byte) (count : Byte)
  | setParameter (ch : Channel) (tag : Byte) (id : Byte) (value : Half)
  | applyParameters (ch : Channel) (tag : Byte)
  | acceptConfiguration (ch : Channel) (tag : Byte) (digest : Word)
  | deviceReset (ch : Channel) (tag : Byte)
  -- port events (R149, R150, R159)
  | invalidRequestFrame (ch : Channel) (bytes : List Byte)
  | selectRise (ch : Channel)
  | eventRecordsRemoved (ch : Channel)
  -- reset lines and image (R39, R162, R163)
  | crstAsserted (ch : Channel)
  | crstReleased (ch : Channel)
  | drstAsserted
  | drstReleased
  | imageReadComplete (bytes : List Byte)
  -- timers of elements, halves, channels, routes and signals
  | clearanceTimerExpiry (element : Nat)
  | sectionDiscrepancyExpiry (element : Nat)
  | pointDiscrepancyExpiry (element : Nat)
  | signalDiscrepancyExpiry (element : Nat)
  | moveSupervisionExpiry (element : Nat)
  | windowTimerExpiry (tag : Byte)
  | supervisionTimerExpiry (ch : Channel)
  | pauseLimitExpiry (ch : Channel)
  | settingTimerExpiry (route : Nat)
  | overlapTimerExpiry (route : Nat)
  | releaseTimerExpiry (route : Nat)
  | watchTimerExpiry (element : Nat)
  -- link timers (R124 to R133)
  | linkSendTimerExpiry (link : Nat)
  | trainingTimerExpiry (link : Nat)
  | linkSupervisionExpiry (link : Nat)
  | answerTimerExpiry (link : Nat)
  | echoTimerExpiry (link : Nat)
  -- link frames (R123, R175): decoded fields, or the raw run
  | linkTrainFrame (link : Nat) (sender receiver offer : Half) (flags : Byte)
  | linkCyclicFrame (link : Nat) (sender receiver : Half) (counter : Byte) (fields : List Byte)
  | linkLoopFrame (link : Nat) (index : Byte) (pattern : List Byte)
  | linkBadFrame (link : Nat) (run : List Byte)
  | linkUnknownFrame (link : Nat) (run : List Byte)
  -- slot timers (R137 to R148)
  | reconciliationTimerExpiry (link slot : Nat)
  | permitTransferExpiry (link slot : Nat)
  | acceptanceTimerExpiry (link slot : Nat)
  | transitTimerExpiry (link slot : Nat)
  | reservationReleaseExpiry (link slot : Nat)
  -- the device's own clock (R162, R165, R166)
  | imageCheckTimerExpiry
  | healthToggle
  | linkMismatchedFrame (link : Nat) (run : List Byte)
  | deviceTimeTick
  deriving DecidableEq, Repr

end Sys2Proof
end

