-- ==== Sys2Proof/Config.lean ====
section
/-!
DEFINITION. The fixed values of the part that are neither in the image nor parameters, and the values the
spec leaves open (opaque: nothing constrains them).
-/

namespace Sys2Proof.Config

/-- Most records in the Active Route List (R55). -/
def maxActiveRoutes : Nat := 32

/-- Most entries in the Concurrence Table (R25). -/
def maxHalves : Nat := 16

/-- Most records in an event queue (R157). -/
def maxEvents : Nat := 64

/-- Most claims in a flank claim set (R75). -/
def maxClaims : Nat := 8

/-- Ceiling of a computed release time, in ds (R118). -/
def releaseCeiling : Nat := 6000

/-- Interval between TRAIN frames, in ms (R124, R125). -/
def trainInterval : Nat := 200

/-- Duration of the training timer, in ms (R125). -/
def trainingTime : Nat := 2000

/-- Interval of the periodic image check, in ds: 10 s (R166). -/
def imageCheckTime : Nat := 100

/-- Milliseconds in one decisecond (00_scope, Units of time). -/
def msPerDs : Nat := 100

/-- The byte that a port drives outside its response (R173). -/
def fillByte : BitVec 8 := 0xFF

/-- Fill bytes that the channel clocks in DECIDE, before the response (R149). -/
def fillsBeforeResponse : Nat := 2

/-- Lowest and highest value of each parameter P1 to P16, in parameter order (R168). -/
def paramRanges : List (Nat × Nat) :=
  [(20, 500), (100, 1000), (100, 2000), (0, 100), (5, 100), (5, 100), (5, 50), (0, 100),
   (0, 1200), (50, 1200), (50, 600), (20, 600), (50, 1000), (3, 10), (50, 95), (50, 3000)]

/-- The value that stands for parameter `n` while the Parameter Set holds no values (LOADING, and SAFE_HALT
with cause CONFIG). R33 to R35 start channel timers in those states; R168 gives the parameters no value there.
Free: no proof can rest on it (log 6). -/
opaque unsetParameter (n : Nat) : Nat

/-- The `n`-th choice among orders that the spec leaves open, once the choices that the state lists are used up.
Free: no proof can rest on it (log 4). -/
opaque freeChoice (n : Nat) : Nat

end Sys2Proof.Config
end

