-- ==== Sys2Proof/Machine/State.lean ====
section
/-!
DEFINITION. The state of the 7310 as plain data: every record and register the spec gives the block, the
event records, the outcomes of a step, and the state right after reset. INVENTORY.md lists each field with the
rule that names it and its reset value.
-/

namespace Sys2Proof.Machine

/-! ## Timers and positions -/

/-- The state of a timer as reads report it (R172): stopped, running, suspended (a window, R30), expired
(a watch timer, R101). -/
inductive TimerMode where
  | stopped | running | suspended | expired
  deriving DecidableEq, Repr

/-- A one-shot timer (00_scope): its state and the time left, in the unit of its rule. A timer that a rule stops
"where it stands" (R73, R141) is stopped with its time kept. -/
structure Timer where
  mode : TimerMode
  left : Nat
  deriving DecidableEq, Repr

/-- The two positions of a point (R171). -/
inductive Pos where
  | normal | reverse
  deriving DecidableEq, Repr

/-! ## Element Table (chapter 1) -/

/-- What a channel last reported of a section (R3, R4). -/
inductive SecView where
  | unknown | clear | occupied
  deriving DecidableEq, Repr

/-- What a channel last reported of a point; `noDetection` is the reported state NONE (R4). -/
inductive PointView where
  | unknown | normal | reverse | noDetection
  deriving DecidableEq, Repr

/-- What a channel last reported of a signal (R4). -/
inductive SignalView where
  | unknown | danger | proceed | dark
  deriving DecidableEq, Repr

/-- Agreed status of a section (R5). -/
inductive SecStatus where
  | occupied | clearing | clear
  deriving DecidableEq, Repr

/-- Agreed status of a point (R7). -/
inductive PointStatus where
  | normal | reverse | undetected | moving
  deriving DecidableEq, Repr

/-- Agreed status of a signal (R13). -/
inductive SignalStatus where
  | danger | proceed | dark | unproven
  deriving DecidableEq, Repr

/-- Holder of a section (R21). -/
inductive Holder where
  | none
  | route (r : Nat)
  | overlap (r : Nat)
  | entry (link slot : Nat)
  deriving DecidableEq, Repr

/-- Primary hold of a point (R21). -/
inductive PointHold where
  | none
  | route (r : Nat) (pos : Pos)
  | overlap (r : Nat) (pos : Pos)
  deriving DecidableEq, Repr

/-- A flank claim: a route and the index of one of its flank entries (R75). -/
structure Claim where
  route : Nat
  entry : Nat
  deriving DecidableEq, Repr

/-- The record of a section (R2). -/
structure SectionRec where
  id : Nat
  viewA : SecView
  viewB : SecView
  status : SecStatus
  clearance : Timer
  disc : Timer
  faulted : Bool
  block : Bool
  mask : Bool
  holder : Holder
  deriving DecidableEq, Repr

/-- A move in flight: target and device time of the call (R9). -/
structure Move where
  target : Pos
  start : Word
  deriving DecidableEq, Repr

/-- The record of a point (R1, R2, R75). `claimPos` is the required position of the claim set, none while it is
empty. -/
structure PointRec where
  id : Nat
  sec : Nat
  supTime : Nat
  viewA : PointView
  viewB : PointView
  status : PointStatus
  disc : Timer
  move : Option Move
  moveTimer : Timer
  lastMove : Nat
  faulted : Bool
  block : Bool
  mask : Bool
  hold : PointHold
  claims : List Claim
  claimPos : Option Pos
  deriving DecidableEq, Repr

/-- The record of a signal (R1, R2, R75) with its permission record (R92): `perm` is the route to which
permission is GRANTED, none for NONE. -/
structure SignalRec where
  id : Nat
  protSec : Nat
  viewA : SignalView
  viewB : SignalView
  status : SignalStatus
  disc : Timer
  faulted : Bool
  block : Bool
  mask : Bool
  entryOf : Option Nat
  claims : List Claim
  perm : Option Nat
  watch : Timer
  deriving DecidableEq, Repr

/-! ## Route Store (chapter 3) -/

/-- A slot is named by its link and its index (00_scope). -/
structure SlotRef where
  link : Nat
  idx : Nat
  deriving DecidableEq, Repr

/-- Exit of a route (R42). -/
inductive RouteExit where
  | signal (id : Nat)
  | boundary (slot : SlotRef)
  deriving DecidableEq, Repr

/-- A point with the position required of it (R42, R43). -/
structure PointReq where
  point : Nat
  pos : Pos
  deriving DecidableEq, Repr

/-- An overlap variant (R43). -/
structure Variant where
  secs : List Nat
  points : List PointReq
  deriving DecidableEq, Repr

/-- The guarded part of a flank entry: route section index 1 to n, or OVERLAP (R44). -/
inductive Guard where
  | sec (k : Nat)
  | overlap
  deriving DecidableEq, Repr

/-- A flank option: a point in a protective position, or a signal at danger (R44). -/
inductive FlankOpt where
  | point (id : Nat) (pos : Pos)
  | signal (id : Nat)
  deriving DecidableEq, Repr

/-- A flank entry of a route record (R44). -/
structure FlankDef where
  index : Nat
  guard : Guard
  options : List FlankOpt
  deriving DecidableEq, Repr

/-- Release mode (R45). -/
inductive ReleaseMode where
  | sequential | whole
  deriving DecidableEq, Repr

/-- A route record of the Route Store (R41 to R45), with its flank entries in index order. -/
structure RouteDef where
  id : Nat
  entry : Nat
  exit : RouteExit
  secs : List Nat
  points : List PointReq
  variants : List Variant
  flanks : List FlankDef
  approach : List Nat
  length : Nat
  speed : Nat
  brake : Nat
  mode : ReleaseMode
  deriving DecidableEq, Repr

/-! ## Active Route List (chapters 4, 5 and 7) -/

/-- Route states (R56). -/
inductive RouteState where
  | calling | locked | permitted | entered | approachHeld | emergencyTiming
  deriving DecidableEq, Repr

/-- Overlap status (R56). -/
inductive OverlapStatus where
  | none | held | released
  deriving DecidableEq, Repr

/-- A flank entry record of an active route (R77): the claimed element is that of the chosen option. -/
structure FlankRec where
  index : Nat
  guard : Guard
  opt : FlankOpt
  standing : Bool
  satisfied : Bool
  deriving DecidableEq, Repr

/-- A record of the Active Route List (R56, R105), with the route's flank entry records (R77). The lists
`released` and `marks` have one item for each route section; `cursor` is the release cursor, 1 to n+1. `gapped`: a GAP has
been found at the cursor section, which keeps it until EMERGENCY RELEASE (R109). `transitLost`: the slot's TRANSIT of this
route ended with PERMIT_FAULT, and the route receives no RECEIVED (R145). -/
structure ActiveRoute where
  id : Nat
  variant : Option Nat
  state : RouteState
  permittedBefore : Bool
  grantAllowed : Bool
  cursor : Nat
  released : List Bool
  marks : List Bool
  received : Bool
  gapped : Bool
  transitLost : Bool
  overlap : OverlapStatus
  options : List Nat
  setting : Timer
  overlapTimer : Timer
  release : Timer
  releaseT : Nat
  saturated : Bool
  exitSlot : Option SlotRef
  flanks : List FlankRec
  deriving DecidableEq, Repr

/-! ## Channel frames: request kinds and statuses (chapter 12) -/

/-- The request kinds of R23, in the order of R172. -/
inductive ReqKind where
  | reportFieldStatus | readElement | readRoute | readRoutes | readSlot | readLink | readParameters
  | readStatus | readEvents | pause | resume
  | setRoute | cancelRoute | emergencyRelease | setApproachSpeed | movePoint
  | blockElement | unblockElement | inhibitSet | inhibitClear | elementRestore
  | requestPermit | blockSlot | unblockSlot | restoreSlot | releaseReservation | linkTest
  | setParameter | applyParameters | acceptConfiguration | deviceReset
  deriving DecidableEq, Repr

/-- Response statuses and request outcomes share one numbering (R172). -/
inductive Status where
  | done | halfHeld | concurred | disagree | tagBusy | tableFull | notInService | channelPaused
  | badFrame | unknownKind | badLength | channelLost | badValue | notConfigured | notActive | wrongState
  | otherPaused | clamped | badVariant | alreadyActive | signalBusy | listFull | faulted | occupied
  | noPermit | noFlank | trainOnRoute | notCapable | notYielded | digestMismatch | lapsed | withdrawn
  | held | blocked
  deriving DecidableEq, Repr

/-! ## Links (chapter 8) -/

/-- Link states (R121). -/
inductive LinkState where
  | disabled | down | training | up | loopback
  deriving DecidableEq, Repr

/-- Causes of a link's last change of state (R121, R130, R171). -/
inductive LinkCause where
  | start | peerHeard | trainingTimeout | trained | timeout | errors | peerRestart | testRefused | test
  | peerTest | testEnd | halt | reset
  deriving DecidableEq, Repr

/-- Result of a loopback test (R171). -/
inductive TestResult where
  | complete | incomplete | refused
  deriving DecidableEq, Repr

/-- Role in a loopback test (R121). -/
inductive TestRole where
  | none | master | slave
  deriving DecidableEq, Repr

/-- Phase of a master's test (R131, R133); `none` outside a test as master. -/
inductive TestPhase where
  | none | asking | running
  deriving DecidableEq, Repr

/-- The test record (R121, R131, R133). `echoed` lists the indexes already echoed. -/
structure TestRec where
  role : TestRole
  phase : TestPhase
  pattern : List Byte
  count : Nat
  sent : Nat
  echoes : Nat
  matched : Nat
  echoed : List Nat
  deriving DecidableEq, Repr

/-- The content of a TRAIN frame (R175); the flag bits 2 to 7 are not kept (R176). -/
structure TrainContent where
  sender : Nat
  receiver : Nat
  offer : Nat
  heard : Bool
  loopback : Bool
  deriving DecidableEq, Repr

/-- The link descriptor of the image (R121): bit rate and peer area. -/
structure LinkDef where
  rate : Nat
  peer : Nat
  deriving DecidableEq, Repr

/-- A stored test result: result, frames sent, frames matched (R133). -/
structure TestOutcome where
  result : TestResult
  sent : Nat
  matched : Nat
  deriving DecidableEq, Repr

/-- The link record (R121). `sentHeard`: this side has sent a TRAIN with HEARD since it entered TRAINING (R125). -/
structure Link where
  id : Nat
  conf : Option LinkDef
  state : LinkState
  cause : LinkCause
  halted : Bool
  offer : Nat
  trainCount : Nat
  lastTrain : Option TrainContent
  sentHeard : Bool
  period : Option Nat
  sendCounter : Byte
  lastCounter : Option Byte
  badRun : Nat
  badTotal : Nat
  mismatch : Bool
  test : TestRec
  lastResult : Option TestOutcome
  sendTimer : Timer
  training : Timer
  supervision : Timer
  answer : Timer
  echo : Timer
  deriving DecidableEq, Repr

/-! ## Slots (chapter 9) -/

/-- Permit states (R135). -/
inductive Permit where
  | heldHere | heldThere | taking | giving | fault | unknown
  deriving DecidableEq, Repr

/-- Outbound states (R135). -/
inductive Outbound where
  | none | offered | accepted | transit | withdrawing
  deriving DecidableEq, Repr

/-- Inbound states (R135). -/
inductive Inbound where
  | none | declining | accepted | receiving | acceptedIsolated
  deriving DecidableEq, Repr

/-- Published permit field (R136, R175). -/
inductive PubPermit where
  | hold | notHold | request | release | refuse | yielded | fault
  deriving DecidableEq, Repr

/-- Published outbound field (R136, R175). -/
inductive PubOut where
  | none | offer | transit | withdraw
  deriving DecidableEq, Repr

/-- Published inbound field (R136, R175). -/
inductive PubIn where
  | none | accept | decline | received
  deriving DecidableEq, Repr

/-- The three published fields of one slot (R136). -/
structure PubFields where
  permit : PubPermit
  outb : PubOut
  inb : PubIn
  deriving DecidableEq, Repr

/-- Direction capability (R135). -/
inductive Capability where
  | out | inward | both
  deriving DecidableEq, Repr

/-- The slot record (R135). `transitEnded`: SLOT_STATE (ACCEPTED, TRANSIT_ENDED) has been queued for this
acceptance (R147, "the first time"; log 21). -/
structure Slot where
  ref : SlotRef
  bsec : Nat
  cap : Capability
  initHere : Bool
  relTime : Nat
  permit : Permit
  reconciled : Bool
  refusing : Bool
  yielded : Bool
  outb : Outbound
  receivedReported : Bool
  inb : Inbound
  transitSeen : Bool
  transitEnded : Bool
  block : Bool
  peer : Option PubFields
  transfer : Timer
  recon : Timer
  accept : Timer
  transit : Timer
  reserve : Timer
  deriving DecidableEq, Repr

/-! ## Link frames on the line (R175) -/

/-- A frame that a link controller takes from or puts on its line, its CRC apart. -/
inductive LinkFrame where
  | train (c : TrainContent)
  | cyclic (sender receiver : Nat) (counter : Byte) (fields : List PubFields)
  | loop (index : Byte) (pattern : List Byte)
  deriving DecidableEq, Repr

/-- A frame put on the transmit line of a link. -/
structure TxFrame where
  link : Nat
  frame : LinkFrame
  deriving DecidableEq, Repr

/-! ## Channels, ports and device (chapters 2, 10 and 11) -/

/-- Channel states (section 2.4, R33). -/
inductive ChState where
  | absent | active | paused | lost
  deriving DecidableEq, Repr

/-- Causes of a channel's change of state (R38). -/
inductive ChCause where
  | firstFrame | pause | resume | supervision | pauseLimit | channelReset
  deriving DecidableEq, Repr

/-- An entry of the Concurrence Table (R25). -/
structure HalfRequest where
  tag : Byte
  filler : Channel
  kind : ReqKind
  body : List Byte
  window : Timer
  deriving DecidableEq, Repr

/-- Device states (R165). -/
inductive DevState where
  | loading | awaiting | inService | safeHalt
  deriving DecidableEq, Repr

/-- Halt causes (R165). -/
inductive HaltCause where
  | config | imageCheck
  deriving DecidableEq, Repr

/-- Failing items of the image validation, in the order of R163. -/
inductive FailItem where
  | memory | imageCrc | header | idRange | kind | route | guard | slot | link | time | brakeClass | parameter
  deriving DecidableEq, Repr

/-- The Configuration Unit's state (R162 to R170) with device time and the DRST line. The parameter copies are
lists of sixteen values, empty while they hold no values. -/
structure Device where
  state : DevState
  time : Word
  drst : Bool
  haltCause : Option HaltCause
  failItem : Option FailItem
  failIndex : Nat
  digest : Option Word
  copy : List Byte
  area : Nat
  brakes : List Nat
  active : List Nat
  pendingParams : List Nat
  checkTimer : Timer
  health : Bool
  deriving DecidableEq, Repr

/-- Transfer phases of a port (R149, R152). -/
inductive Phase where
  | idle | request | decide | response
  deriving DecidableEq, Repr

/-- A response: its status, tag and body (R172); length and CRC follow from them. -/
structure Response where
  status : Status
  tag : Byte
  body : List Byte
  deriving DecidableEq, Repr

/-- The port record (R152). `taken` is the number of event records a READ EVENTS being answered took (R159);
`resetOnEnd`: the transfer carried a DEVICE RESET, and the port returns to its initial state when it ends
(R40, R149). -/
structure Port where
  phase : Phase
  bytes : List Byte
  response : Option Response
  taken : Nat
  resetOnEnd : Bool
  badFrames : Nat
  deriving DecidableEq, Repr

/-! ## Events (R155, R156) -/

/-- New state named by ROUTE_STATE: a route state, RELEASED or ABANDONED (R58). -/
inductive RouteNews where
  | state (s : RouteState)
  | released
  | abandoned
  deriving DecidableEq, Repr

/-- Causes of ROUTE_STATE (R171). -/
inductive RouteCause where
  | set | pointsProven | granted | withdrawn | trainEntered | cancelled | settingTime | moveFailed
  | trainCleared | approachClear | releaseTimer | emergency
  deriving DecidableEq, Repr

/-- Causes of a withdrawal of permission, with their detail (R104). -/
inductive PermCause where
  | sec (id : Nat)
  | point (id : Nat)
  | flank (index : Nat)
  | entrySignal (id : Nat)
  | channel (ch : Channel)
  | deviceState
  | boundary (slot : SlotRef)
  | entered
  | cancelled
  | emergency
  | unauthorized (signal : Nat)
  deriving DecidableEq, Repr

/-- Kinds of SEQUENCE_ANOMALY (R156). -/
inductive Anomaly where
  | ahead | gap
  deriving DecidableEq, Repr

/-- Causes of PERMIT_STATE (R171). -/
inductive PermitCause where
  | reconciled | bothHeld | noHolder | requested | taken | refused | timeout | refusing | given | notTaken
  | yielded | restored | linkLoss
  deriving DecidableEq, Repr

/-- Causes of SLOT_STATE (R171); `condition k` is the entry to DECLINING by the k-th condition of R146. -/
inductive SlotCause where
  | none | declined | acceptanceLost | noAnswer | accepted | unaccepted | complete | emergency | withdrawn
  | permitFault | linkLoss | offerEnded | transitEnded | arrived | releaseTiming | reservationReleased
  | condition (k : Nat)
  deriving DecidableEq, Repr

/-- Causes of DEVICE_STATE (R171). -/
inductive DevCause where
  | loaded | config | accepted | imageCheck
  deriving DecidableEq, Repr

/-- Events with their subject and detail (R156). -/
inductive Event where
  | requestDone (tag : Byte) (kind : ReqKind) (outcome : Status) (detail : Nat)
  | routeState (route : Nat) (news : RouteNews) (cause : RouteCause) (point : Nat)
  | moveCall (point : Nat) (target : Pos)
  | moveDone (point : Nat) (pos : Pos) (duration : Nat)
  | moveFailed (point : Nat) (target : Pos)
  | pointSlow (point : Nat) (duration supTime : Nat)
  | detectionLost (point : Nat) (pos : Pos)
  | elementFault (element : Nat)
  | elementRestored (element : Nat)
  | permissionGranted (signal route : Nat)
  | permissionWithdrawn (signal route : Nat) (cause : PermCause)
  | unauthorizedProceed (signal protSec : Nat)
  | sequenceAnomaly (route sec : Nat) (kind : Anomaly)
  | releaseTiming (route t : Nat) (saturated : Bool)
  | transitOverdue (slot : SlotRef) (route : Nat)
  | linkState (link : Nat) (state : LinkState) (cause : LinkCause)
  | linkMismatch (link sender receiver : Nat)
  | linkTestResult (link : Nat) (outcome : TestOutcome)
  | slotOut (slot : SlotRef) (state : Outbound) (cause : SlotCause)
  | slotIn (slot : SlotRef) (state : Inbound) (cause : SlotCause)
  | permitState (slot : SlotRef) (state : Permit) (cause : PermitCause)
  | bothHeld (slot : SlotRef)
  | channelState (ch : Channel) (state : ChState) (cause : ChCause)
  | parametersApplied (changed : Nat)
  | deviceState (state : DevState) (cause : DevCause) (item : Option FailItem)
  | lost (ch : Channel) (count : Nat)
  deriving DecidableEq, Repr

/-- An event record: the event and the device time at which it arose (R155). -/
structure EventRec where
  event : Event
  time : Word
  deriving DecidableEq, Repr

/-- An event queue with its lost count (R157, R158). -/
structure EventQueue where
  records : List EventRec
  lost : Nat
  deriving DecidableEq, Repr

/-- What a channel reset left behind it: the device time and the channel's own queue (R39; log 42). -/
structure ResetMark where
  time : Word
  queue : EventQueue
  deriving DecidableEq, Repr

/-- A channel's record in the Concurrence Unit (R33 to R39), with the level of its CRST line. `resetMark`, the model's own,
stands while CRST stays asserted (R39; log 42). -/
structure ChannelRec where
  state : ChState
  cause : Option ChCause
  supervision : Timer
  pauseLimit : Timer
  crst : Bool
  resetMark : Option ResetMark
  deriving DecidableEq, Repr

/-! ## The state -/

/-- The whole state of the block. `pending`, `tx` and `choices` are the model's own: the commands that wait, the
frames put on the transmit lines (log 18), and, with `drawn`, the free values that decide the orders the spec
leaves open (log 4) and the choices of logs 15, 34 and 42: the listed ones first, then `Config.freeChoice` at the counter `drawn`. -/
structure State where
  dev : Device
  sections : List SectionRec
  points : List PointRec
  signals : List SignalRec
  store : List RouteDef
  routes : List ActiveRoute
  speeds : List (Nat × Nat)
  links : List Link
  slots : List Slot
  table : List HalfRequest
  disagreements : Nat
  chanA : ChannelRec
  chanB : ChannelRec
  portA : Port
  portB : Port
  queueA : EventQueue
  queueB : EventQueue
  tx : List TxFrame
  choices : List Nat
  drawn : Nat
  pending : List Instr
  deriving DecidableEq, Repr

/-- Faults of the model: none. The spec gives every command an effect in every state, so no command stops the
machine. -/
inductive Fault where
  deriving DecidableEq, Repr

/-- Refusals of the model. -/
inductive Refusal where
  /-- Raised by `exec` for a command that has no meaning yet; safe: the machine stops where the hardware goes on. -/
  | notModelled (mnemonic : String)
  deriving DecidableEq, Repr

/-! ## Initial records -/

/-- A stopped timer that keeps no time. A timer that a rule stops while it runs becomes this one, but where the entry to SAFE_HALT
stops it where it stands (log 49). -/
def Timer.off : Timer := ⟨.stopped, 0⟩

/-- The initial port record (R152). -/
def Port.initial : Port :=
  { phase := .idle, bytes := [], response := none, taken := 0, resetOnEnd := false, badFrames := 0 }

/-- An empty event queue (R161). -/
def EventQueue.empty : EventQueue := { records := [], lost := 0 }

/-- A channel after DRST (R33, R40); `crst` is the level of its reset line, which DRST does not drive. -/
def ChannelRec.initial (crst : Bool) : ChannelRec :=
  { state := .absent, cause := none, supervision := .off, pauseLimit := .off, crst := crst, resetMark := none }

/-- A test record with role NONE (R121), its phase NONE, its pattern zeros and its counts 0: the rules give the role alone
(log 47). -/
def TestRec.idle : TestRec :=
  { role := .none, phase := .none, pattern := [], count := 0, sent := 0, echoes := 0, matched := 0, echoed := [] }

/-- A link record after DRST (R121). -/
def Link.initial (id : Nat) (conf : Option LinkDef) : Link :=
  { id := id, conf := conf, state := .disabled, cause := .start, halted := false, offer := 0, trainCount := 0
    lastTrain := none, sentHeard := false, period := none, sendCounter := 0, lastCounter := none
    badRun := 0, badTotal := 0, mismatch := false, test := .idle, lastResult := none
    sendTimer := .off, training := .off, supervision := .off, answer := .off, echo := .off }

/-- The Configuration Unit in LOADING (R162); `drst` is the level of the DRST line. -/
def Device.loading (drst : Bool) : Device :=
  { state := .loading, time := 0, drst := drst, haltCause := none, failItem := none, failIndex := 0
    digest := none, copy := [], area := 0, brakes := [], active := [], pendingParams := []
    checkTimer := .off, health := false }

/-- The state in LOADING with every block empty (R2, R41, R55, R92, R121, R135, R161, R162). -/
def State.loading (drst crstA crstB : Bool) : State :=
  { dev := .loading drst
    sections := [], points := [], signals := [], store := [], routes := [], speeds := []
    links := [.initial 0 none, .initial 1 none, .initial 2 none, .initial 3 none]
    slots := [], table := [], disagreements := 0
    chanA := .initial crstA, chanB := .initial crstB
    portA := .initial, portB := .initial, queueA := .empty, queueB := .empty
    tx := [], choices := [], drawn := 0, pending := [] }

/-- The machine right after reset: DRST has been released, the device is in LOADING and reads its image (R162;
log 5). -/
def State.reset : State := State.loading false false false

end Sys2Proof.Machine
end

