-- ==== Sys2Proof/Machine/Crc.lean ====
section
/-!
DEFINITION. The two CRCs (R173, R176) and the packing of numbers into bytes, most significant first (R171).
-/

namespace Sys2Proof.Machine

/-- One bit of the CRC-16 register, generator 1021h, most significant bit first (R173). -/
def crc16Bit (r : Nat) : Nat :=
  if r < 32768 then r * 2 else ((r - 32768) * 2) ^^^ 0x1021

/-- One byte into the CRC-16 register (R173). -/
def crc16Byte (r : Nat) (b : Byte) : Nat :=
  crc16Bit (crc16Bit (crc16Bit (crc16Bit (crc16Bit (crc16Bit (crc16Bit (crc16Bit (r ^^^ (b.toNat * 256)))))))))

/-- CRC-16 of a channel frame: register started at FFFFh, no final inversion (R173). -/
def crc16 (bs : List Byte) : Nat := bs.foldl crc16Byte 0xFFFF

/-- One bit of the CRC-32 register, generator 04C11DB7h taken least significant bit first (R176). -/
def crc32Bit (r : Nat) : Nat :=
  if r % 2 = 0 then r / 2 else (r / 2) ^^^ 0xEDB88320

/-- One byte into the CRC-32 register (R176). -/
def crc32Byte (r : Nat) (b : Byte) : Nat :=
  crc32Bit (crc32Bit (crc32Bit (crc32Bit (crc32Bit (crc32Bit (crc32Bit (crc32Bit (r ^^^ b.toNat))))))))

/-- CRC-32 of a link frame or of the image: register started at FFFFFFFFh, final inversion (R176). -/
def crc32 (bs : List Byte) : Word := BitVec.ofNat 32 (0xFFFFFFFF ^^^ bs.foldl crc32Byte 0xFFFFFFFF)

/-- A number in one byte. -/
def b1 (n : Nat) : List Byte := [BitVec.ofNat 8 n]

/-- A number in two bytes, most significant first (R171). -/
def b2 (n : Nat) : List Byte := [BitVec.ofNat 8 (n / 256), BitVec.ofNat 8 n]

/-- A number in four bytes, most significant first (R171). -/
def b4 (n : Nat) : List Byte :=
  [BitVec.ofNat 8 (n / 16777216), BitVec.ofNat 8 (n / 65536), BitVec.ofNat 8 (n / 256), BitVec.ofNat 8 n]

/-- A flag in one byte, 1 when true (R172). -/
def bFlag (b : Bool) : List Byte := if b then [1] else [0]

/-- The number in two bytes. -/
def num2 (hi lo : Byte) : Nat := hi.toNat * 256 + lo.toNat

/-- The number in four bytes. -/
def num4 (a b c d : Byte) : Nat := ((a.toNat * 256 + b.toNat) * 256 + c.toNat) * 256 + d.toNat

end Sys2Proof.Machine
end

