-- ==== Sys2Proof/Machine/Codes.lean ====
section
/-!
DEFINITION. The numbers that stand for states, causes, statuses and kinds (R171, R172), the bytes of an event
record (R174) and of link frames (R175). A value NONE is coded 0 and keeps its place in its list for the values
after it (log 12).
-/

namespace Sys2Proof.Machine

/-- Channels (R171). -/
def chCode : Channel → Nat
  | .A => 0
  | .B => 1

/-- Positions (R171). -/
def posCode : Pos → Nat
  | .normal => 1
  | .reverse => 2

/-- Request kinds (R172). -/
def kindCode : ReqKind → Nat
  | .reportFieldStatus => 0x01 | .readElement => 0x02 | .readRoute => 0x03 | .readRoutes => 0x04
  | .readSlot => 0x05 | .readLink => 0x06 | .readParameters => 0x07 | .readStatus => 0x08
  | .readEvents => 0x09 | .pause => 0x0A | .resume => 0x0B
  | .setRoute => 0x20 | .cancelRoute => 0x21 | .emergencyRelease => 0x22 | .setApproachSpeed => 0x23
  | .movePoint => 0x24 | .blockElement => 0x25 | .unblockElement => 0x26 | .inhibitSet => 0x27
  | .inhibitClear => 0x28 | .elementRestore => 0x29 | .requestPermit => 0x2A | .blockSlot => 0x2B
  | .unblockSlot => 0x2C | .restoreSlot => 0x2D | .releaseReservation => 0x2E | .linkTest => 0x2F
  | .setParameter => 0x30 | .applyParameters => 0x31 | .acceptConfiguration => 0x32 | .deviceReset => 0x33

/-- All request kinds (R172). -/
def allKinds : List ReqKind :=
  [.reportFieldStatus, .readElement, .readRoute, .readRoutes, .readSlot, .readLink, .readParameters,
   .readStatus, .readEvents, .pause, .resume, .setRoute, .cancelRoute, .emergencyRelease, .setApproachSpeed,
   .movePoint, .blockElement, .unblockElement, .inhibitSet, .inhibitClear, .elementRestore, .requestPermit,
   .blockSlot, .unblockSlot, .restoreSlot, .releaseReservation, .linkTest, .setParameter, .applyParameters,
   .acceptConfiguration, .deviceReset]

/-- The request kind of a kind byte; none for a byte that is no known kind (R150). -/
def kindOfByte (b : Byte) : Option ReqKind := allKinds.find? (fun k => kindCode k == b.toNat)

/-- Statuses and outcomes (R172). -/
def statusCode : Status → Nat
  | .done => 0x00 | .halfHeld => 0x01 | .concurred => 0x02 | .disagree => 0x03 | .tagBusy => 0x04
  | .tableFull => 0x05 | .notInService => 0x06 | .channelPaused => 0x07 | .badFrame => 0x08
  | .unknownKind => 0x09 | .badLength => 0x0A | .channelLost => 0x0C | .badValue => 0x0D
  | .notConfigured => 0x0E | .notActive => 0x0F | .wrongState => 0x10 | .otherPaused => 0x11
  | .clamped => 0x12 | .badVariant => 0x13 | .alreadyActive => 0x14 | .signalBusy => 0x15
  | .listFull => 0x16 | .faulted => 0x17 | .occupied => 0x18 | .noPermit => 0x19 | .noFlank => 0x1A
  | .trainOnRoute => 0x1B | .notCapable => 0x1C | .notYielded => 0x1D | .digestMismatch => 0x1E
  | .lapsed => 0x1F | .withdrawn => 0x20 | .held => 0x21 | .blocked => 0x22

/-! ## Places in the tables and lists of the rules (R171)

A view UNKNOWN, to which no list gives a place, is coded 0 (log 40). -/

/-- A view of a section, coded as it is reported (R172); UNKNOWN is 0 (log 40). -/
def secViewCode : SecView → Nat
  | .unknown => 0 | .clear => 1 | .occupied => 2

/-- A view of a point, coded as it is reported (R172); UNKNOWN is 0 (log 40). -/
def pointViewCode : PointView → Nat
  | .unknown => 0 | .normal => 1 | .reverse => 2 | .noDetection => 3

/-- A view of a signal, coded as it is reported (R172); UNKNOWN is 0 (log 40). -/
def signalViewCode : SignalView → Nat
  | .unknown => 0 | .danger => 1 | .proceed => 2 | .dark => 3

/-- R5 lists OCCUPIED, CLEARING, CLEAR. -/
def secStatusCode : SecStatus → Nat
  | .occupied => 1 | .clearing => 2 | .clear => 3

/-- R7 gives NORMAL, REVERSE, UNDETECTED, MOVING. -/
def pointStatusCode : PointStatus → Nat
  | .normal => 1 | .reverse => 2 | .undetected => 3 | .moving => 4

/-- R13. -/
def signalStatusCode : SignalStatus → Nat
  | .danger => 1 | .proceed => 2 | .dark => 3 | .unproven => 4

def routeStateCode : RouteState → Nat
  | .calling => 1 | .locked => 2 | .permitted => 3 | .entered => 4 | .approachHeld => 5
  | .emergencyTiming => 6

def routeNewsCode : RouteNews → Nat
  | .state s => routeStateCode s
  | .released => 7
  | .abandoned => 8

def routeCauseCode : RouteCause → Nat
  | .set => 1 | .pointsProven => 2 | .granted => 3 | .withdrawn => 4 | .trainEntered => 5 | .cancelled => 6
  | .settingTime => 7 | .moveFailed => 8 | .trainCleared => 9 | .approachClear => 10 | .releaseTimer => 11
  | .emergency => 12

/-- R56 lists NONE, HELD, RELEASED. -/
def overlapCode : OverlapStatus → Nat
  | .none => 0 | .held => 2 | .released => 3

def devStateCode : DevState → Nat
  | .loading => 1 | .awaiting => 2 | .inService => 3 | .safeHalt => 4

def devCauseCode : DevCause → Nat
  | .loaded => 1 | .config => 2 | .accepted => 3 | .imageCheck => 4

/-- The halt causes are DEVICE_STATE causes (R165, R171). -/
def haltCauseCode : Option HaltCause → Nat
  | none => 0
  | some .config => 2
  | some .imageCheck => 4

/-- Place of the failing item in R163. ROUTE stands there at places 6 and 11, and is coded 6 whichever check found it
(R171; log 16). -/
def failItemCode : Option FailItem → Nat
  | none => 0
  | some .memory => 1 | some .imageCrc => 2 | some .header => 3 | some .idRange => 4 | some .kind => 5
  | some .route => 6 | some .guard => 7 | some .slot => 8 | some .link => 9 | some .time => 10
  | some .brakeClass => 11 | some .parameter => 12

/-- Section 2.4. -/
def chStateCode : ChState → Nat
  | .absent => 1 | .active => 2 | .paused => 3 | .lost => 4

/-- R38. -/
def chCauseCode : Option ChCause → Nat
  | none => 0
  | some .firstFrame => 1 | some .pause => 2 | some .resume => 3 | some .supervision => 4
  | some .pauseLimit => 5 | some .channelReset => 6

def linkStateCode : LinkState → Nat
  | .disabled => 1 | .down => 2 | .training => 3 | .up => 4 | .loopback => 5

def linkCauseCode : LinkCause → Nat
  | .start => 1 | .peerHeard => 2 | .trainingTimeout => 3 | .trained => 4 | .timeout => 5 | .errors => 6
  | .peerRestart => 7 | .testRefused => 8 | .test => 9 | .peerTest => 10 | .testEnd => 11 | .halt => 12
  | .reset => 13

def testResultCode : TestResult → Nat
  | .complete => 1 | .incomplete => 2 | .refused => 3

/-- R121 lists NONE, MASTER, SLAVE. -/
def testRoleCode : TestRole → Nat
  | .none => 0 | .master => 2 | .slave => 3

def testPhaseCode : TestPhase → Nat
  | .none => 0 | .asking => 1 | .running => 2

def permitCode : Permit → Nat
  | .heldHere => 1 | .heldThere => 2 | .taking => 3 | .giving => 4 | .fault => 5 | .unknown => 6

/-- R135 lists NONE, OFFERED, ACCEPTED, TRANSIT, WITHDRAWING. -/
def outboundCode : Outbound → Nat
  | .none => 0 | .offered => 2 | .accepted => 3 | .transit => 4 | .withdrawing => 5

/-- R135 lists NONE, DECLINING, ACCEPTED, RECEIVING, ACCEPTED_ISOLATED. -/
def inboundCode : Inbound → Nat
  | .none => 0 | .declining => 2 | .accepted => 3 | .receiving => 4 | .acceptedIsolated => 5

def permitCauseCode : PermitCause → Nat
  | .reconciled => 1 | .bothHeld => 2 | .noHolder => 3 | .requested => 4 | .taken => 5 | .refused => 6
  | .timeout => 7 | .refusing => 8 | .given => 9 | .notTaken => 10 | .yielded => 11 | .restored => 12
  | .linkLoss => 13

def slotCauseCode : SlotCause → Nat
  | .none => 0 | .declined => 1 | .acceptanceLost => 2 | .noAnswer => 3 | .accepted => 4 | .unaccepted => 5
  | .complete => 6 | .emergency => 7 | .withdrawn => 8 | .permitFault => 9 | .linkLoss => 10
  | .offerEnded => 11 | .transitEnded => 12 | .arrived => 13 | .releaseTiming => 14
  | .reservationReleased => 15
  | .condition k => 15 + k

def capCode : Capability → Nat
  | .out => 1 | .inward => 2 | .both => 3

/-- Published fields (R175). -/
def pubPermitCode : PubPermit → Nat
  | .hold => 1 | .notHold => 2 | .request => 3 | .release => 4 | .refuse => 5 | .yielded => 6 | .fault => 7

def pubOutCode : PubOut → Nat
  | .none => 0 | .offer => 1 | .transit => 2 | .withdraw => 3

def pubInCode : PubIn → Nat
  | .none => 0 | .accept => 1 | .decline => 2 | .received => 3

def pubPermitOf (b : Byte) : Option PubPermit :=
  [PubPermit.hold, .notHold, .request, .release, .refuse, .yielded, .fault].find?
    (fun p => pubPermitCode p == b.toNat)

def pubOutOf (b : Byte) : Option PubOut :=
  [PubOut.none, .offer, .transit, .withdraw].find? (fun p => pubOutCode p == b.toNat)

def pubInOf (b : Byte) : Option PubIn :=
  [PubIn.none, .accept, .decline, .received].find? (fun p => pubInCode p == b.toNat)

/-! ## Event records (R174) -/

/-- A detail filled up to its four bytes with zeros. -/
def pad4 (bs : List Byte) : List Byte := (bs ++ [0, 0, 0, 0]).take 4

/-- A slot in two bytes: link, then slot (R172, R174). -/
def slotBytes (ref : SlotRef) : List Byte := b1 ref.link ++ b1 ref.idx

/-- The four bytes of a CONCURRED body and of the detail of REQUEST_DONE (R172, R174). -/
def outcomeBytes (k : ReqKind) (out : Status) (detail : Nat) : List Byte :=
  b1 (kindCode k) ++ b1 (statusCode out) ++ b2 detail

/-- Code and detail of a cause of withdrawal: its place in the table of R104 (R171). -/
def permCauseBytes : PermCause → List Byte
  | .sec id => b1 1 ++ b2 id
  | .point id => b1 2 ++ b2 id
  | .flank i => b1 3 ++ b1 i
  | .entrySignal id => b1 4 ++ b2 id
  | .channel ch => b1 5 ++ b1 (chCode ch)
  | .deviceState => b1 6
  | .boundary ref => b1 7 ++ slotBytes ref
  | .entered => b1 8
  | .cancelled => b1 9
  | .emergency => b1 10
  | .unauthorized g => b1 11 ++ b2 g

/-- Event kind, 1 to 24 in the order of R156. -/
def eventKindCode : Event → Nat
  | .requestDone .. => 1 | .routeState .. => 2 | .moveCall .. => 3 | .moveDone .. => 4 | .moveFailed .. => 5
  | .pointSlow .. => 6 | .detectionLost .. => 7 | .elementFault .. => 8 | .elementRestored .. => 9
  | .permissionGranted .. => 10 | .permissionWithdrawn .. => 10 | .unauthorizedProceed .. => 11
  | .sequenceAnomaly .. => 12 | .releaseTiming .. => 13 | .transitOverdue .. => 14 | .linkState .. => 15
  | .linkMismatch .. => 16 | .linkTestResult .. => 17 | .slotOut .. => 18 | .slotIn .. => 18
  | .permitState .. => 19 | .bothHeld .. => 20 | .channelState .. => 21 | .parametersApplied .. => 22
  | .deviceState .. => 23 | .lost .. => 24

/-- Subject kind and subject id (R155, R174): ELEMENT 1, ROUTE 2, REQUEST 3, LINK 4, SLOT 5, CHANNEL 6, DEVICE 7,
QUEUE 8. -/
def eventSubject : Event → List Byte
  | .requestDone t _ _ _ => b1 3 ++ b2 t.toNat
  | .routeState r _ _ _ => b1 2 ++ b2 r
  | .moveCall p _ => b1 1 ++ b2 p
  | .moveDone p _ _ => b1 1 ++ b2 p
  | .moveFailed p _ => b1 1 ++ b2 p
  | .pointSlow p _ _ => b1 1 ++ b2 p
  | .detectionLost p _ => b1 1 ++ b2 p
  | .elementFault e => b1 1 ++ b2 e
  | .elementRestored e => b1 1 ++ b2 e
  | .permissionGranted g _ => b1 1 ++ b2 g
  | .permissionWithdrawn g _ _ => b1 1 ++ b2 g
  | .unauthorizedProceed g _ => b1 1 ++ b2 g
  | .sequenceAnomaly r _ _ => b1 2 ++ b2 r
  | .releaseTiming r _ _ => b1 2 ++ b2 r
  | .transitOverdue ref _ => b1 5 ++ slotBytes ref
  | .linkState l _ _ => b1 4 ++ b2 l
  | .linkMismatch l _ _ => b1 4 ++ b2 l
  | .linkTestResult l _ => b1 4 ++ b2 l
  | .slotOut ref _ _ => b1 5 ++ slotBytes ref
  | .slotIn ref _ _ => b1 5 ++ slotBytes ref
  | .permitState ref _ _ => b1 5 ++ slotBytes ref
  | .bothHeld ref => b1 5 ++ slotBytes ref
  | .channelState ch _ _ => b1 6 ++ b2 (chCode ch)
  | .parametersApplied _ => b1 7 ++ b2 0
  | .deviceState .. => b1 7 ++ b2 0
  | .lost ch _ => b1 8 ++ b2 (chCode ch)

/-- The four detail bytes (R156, R174). -/
def eventDetail : Event → List Byte
  | .requestDone _ k o d => outcomeBytes k o d
  | .routeState _ n c p => b1 (routeNewsCode n) ++ b1 (routeCauseCode c) ++ b2 p
  | .moveCall _ t => pad4 (b1 (posCode t))
  | .moveDone _ t d => pad4 (b1 (posCode t) ++ b2 d)
  | .moveFailed _ t => pad4 (b1 (posCode t))
  | .pointSlow _ d u => b2 d ++ b2 u
  | .detectionLost _ t => pad4 (b1 (posCode t))
  | .elementFault _ => pad4 (b1 1)
  | .elementRestored _ => pad4 []
  | .permissionGranted _ r => pad4 (b1 r ++ b1 0)
  | .permissionWithdrawn _ r c => pad4 (b1 r ++ permCauseBytes c)
  | .unauthorizedProceed _ sec => pad4 (b2 sec)
  | .sequenceAnomaly _ sec k => pad4 (b2 sec ++ b1 (match k with | .ahead => 1 | .gap => 2))
  | .releaseTiming _ t sat => pad4 (b2 t ++ bFlag sat)
  | .transitOverdue _ r => pad4 (b1 r)
  | .linkState _ st c => pad4 (b1 (linkStateCode st) ++ b1 (linkCauseCode c))
  | .linkMismatch _ a b => b2 a ++ b2 b
  | .linkTestResult _ o => pad4 (b1 (testResultCode o.result) ++ b1 o.sent ++ b1 o.matched)
  | .slotOut _ st c => pad4 (b1 1 ++ b1 (outboundCode st) ++ b1 (slotCauseCode c))
  | .slotIn _ st c => pad4 (b1 2 ++ b1 (inboundCode st) ++ b1 (slotCauseCode c))
  | .permitState _ st c => pad4 (b1 (permitCode st) ++ b1 (permitCauseCode c))
  | .bothHeld _ => pad4 []
  | .channelState _ st c => pad4 (b1 (chStateCode st) ++ b1 (chCauseCode (some c)))
  | .parametersApplied n => pad4 (b1 n)
  | .deviceState st c i => pad4 (b1 (devStateCode st) ++ b1 (devCauseCode c) ++ b1 (failItemCode i))
  | .lost _ n => b2 0 ++ b2 n

/-- The twelve bytes of an event record (R174). -/
def eventBytes (e : EventRec) : List Byte :=
  b1 (eventKindCode e.event) ++ eventSubject e.event ++ eventDetail e.event ++ b4 e.time.toNat

/-! ## Frames -/

/-- A channel frame: length, kind or status, tag, body and CRC-16 (R172, R173). -/
def channelFrame (second : Nat) (tag : Byte) (body : List Byte) : List Byte :=
  let bs := b1 body.length ++ b1 second ++ [tag] ++ body
  bs ++ b2 (crc16 bs)

/-- The response frame as it is clocked out (R172). -/
def responseFrame (r : Response) : List Byte := channelFrame (statusCode r.status) r.tag r.body

/-- The eight bytes of a TRAIN frame before its CRC (R175). -/
def trainBytes (c : TrainContent) : List Byte :=
  b1 1 ++ b2 c.sender ++ b2 c.receiver ++ b2 c.offer
    ++ b1 ((if c.heard then 1 else 0) + (if c.loopback then 2 else 0))

/-- The three bytes of a slot position in a CYCLIC frame (R175). -/
def pubBytes (p : PubFields) : List Byte :=
  b1 (pubPermitCode p.permit) ++ b1 (pubOutCode p.outb) ++ b1 (pubInCode p.inb)

/-- A link frame as it stands on the line, its CRC-32 last (R175, R176). -/
def linkFrameBytes (f : LinkFrame) : List Byte :=
  let bs := match f with
    | .train c => trainBytes c
    | .cyclic a b k ps => b1 2 ++ b2 a ++ b2 b ++ [k] ++ ps.flatMap pubBytes
    | .loop i pat => b1 3 ++ [i] ++ pat
  bs ++ b4 (crc32 bs).toNat

end Sys2Proof.Machine
end

