-- ==== Sys2Proof/Machine/Ops.lean ====
section
/-!
DEFINITION. Shared operations over the state: the other channel, parameters, timers, look-up and update of
records, the choice of an open order, and the offering of events to the queues.
-/

namespace Sys2Proof

/-- The other channel (R25, "the awaited channel"). -/
def Channel.other : Channel → Channel
  | .A => .B
  | .B => .A

namespace Machine

/-! ## Parameters (R168) -/

/-- The active value of parameter P`n`, 1 to 16; free while the Parameter Set holds no values (log 6). -/
def param (n : Nat) (s : State) : Nat :=
  match s.dev.active[n - 1]? with
  | some v => v
  | none => Config.unsetParameter n

/-! ## Timers (00_scope, "Timers") -/

/-- A timer just started with duration `d`. -/
def Timer.start (d : Nat) : Timer := ⟨.running, d⟩

/-- A timer stopped where it stands: it keeps the time it had left (R73, R141). -/
def Timer.freeze (t : Timer) : Timer :=
  if t.mode = .running then ⟨.stopped, t.left⟩ else t

/-- A window suspended with its remaining time kept (R30). -/
def Timer.suspend (t : Timer) : Timer :=
  if t.mode = .running then ⟨.suspended, t.left⟩ else t

/-- A suspended window that runs on from the time it kept (R30). -/
def Timer.resume (t : Timer) : Timer :=
  if t.mode = .suspended then ⟨.running, t.left⟩ else t

/-- A running timer after `k` units of its rule have passed (log 3). -/
def Timer.pass (k : Nat) (t : Timer) : Timer :=
  if t.mode = .running then ⟨.running, t.left - k⟩ else t

/-- A timer that runs exactly while `cond` holds: started with `d` when the condition comes to hold, left running
while it goes on holding, stopped when it ceases (R6, R8, R14). -/
def Timer.whileCond (cond : Bool) (d : Nat) (t : Timer) : Timer :=
  if cond then (if t.mode = .running then t else Timer.start d) else Timer.off

/-! ## Look-up and update of records -/

def State.section? (s : State) (id : Nat) : Option SectionRec := s.sections.find? (fun x => x.id == id)

def State.point? (s : State) (id : Nat) : Option PointRec := s.points.find? (fun x => x.id == id)

def State.signal? (s : State) (id : Nat) : Option SignalRec := s.signals.find? (fun x => x.id == id)

def State.route? (s : State) (r : Nat) : Option ActiveRoute := s.routes.find? (fun x => x.id == r)

def State.def? (s : State) (r : Nat) : Option RouteDef := s.store.find? (fun x => x.id == r)

def State.link? (s : State) (l : Nat) : Option Link := s.links.find? (fun x => x.id == l)

def State.slot? (s : State) (ref : SlotRef) : Option Slot := s.slots.find? (fun x => x.ref == ref)

/-- Apply `f` to the section record of element `id`. -/
def State.mapSection (s : State) (id : Nat) (f : SectionRec → SectionRec) : State :=
  { s with sections := s.sections.map (fun x => if x.id = id then f x else x) }

/-- Apply `f` to the point record of element `id`. -/
def State.mapPoint (s : State) (id : Nat) (f : PointRec → PointRec) : State :=
  { s with points := s.points.map (fun x => if x.id = id then f x else x) }

/-- Apply `f` to the signal record of element `id`. -/
def State.mapSignal (s : State) (id : Nat) (f : SignalRec → SignalRec) : State :=
  { s with signals := s.signals.map (fun x => if x.id = id then f x else x) }

/-- Apply `f` to the active record of route `r`. -/
def State.mapRoute (s : State) (r : Nat) (f : ActiveRoute → ActiveRoute) : State :=
  { s with routes := s.routes.map (fun x => if x.id = r then f x else x) }

/-- Apply `f` to the record of link `l`. -/
def State.mapLink (s : State) (l : Nat) (f : Link → Link) : State :=
  { s with links := s.links.map (fun x => if x.id = l then f x else x) }

/-- Apply `f` to the record of a slot. -/
def State.mapSlot (s : State) (ref : SlotRef) (f : Slot → Slot) : State :=
  { s with slots := s.slots.map (fun x => if x.ref = ref then f x else x) }

/-- The record of a channel. -/
def State.chan (s : State) : Channel → ChannelRec
  | .A => s.chanA
  | .B => s.chanB

def State.setChan (s : State) (ch : Channel) (c : ChannelRec) : State :=
  match ch with
  | .A => { s with chanA := c }
  | .B => { s with chanB := c }

/-- The port of a channel. -/
def State.port (s : State) : Channel → Port
  | .A => s.portA
  | .B => s.portB

def State.setPort (s : State) (ch : Channel) (p : Port) : State :=
  match ch with
  | .A => { s with portA := p }
  | .B => { s with portB := p }

/-- The event queue of a channel. -/
def State.queue (s : State) : Channel → EventQueue
  | .A => s.queueA
  | .B => s.queueB

def State.setQueue (s : State) (ch : Channel) (q : EventQueue) : State :=
  match ch with
  | .A => { s with queueA := q }
  | .B => { s with queueB := q }

/-- The attention line of a channel: asserted exactly while its queue is not empty (R160). -/
def State.atn (s : State) (ch : Channel) : Bool := !(s.queue ch).records.isEmpty

/-- A channel that is ACTIVE or PAUSED (R38, R94). -/
def State.operating (s : State) (ch : Channel) : Bool :=
  match (s.chan ch).state with
  | .active => true
  | .paused => true
  | .absent => false
  | .lost => false

/-- The route record of `r`; an empty one for an id the store does not hold, which no active route has. -/
def State.defOf (s : State) (r : Nat) : RouteDef :=
  match s.def? r with
  | some d => d
  | none => { id := r, entry := 512, exit := .signal 512, secs := [], points := [], variants := [], flanks := []
              approach := [], length := 0, speed := 0, brake := 0, mode := .sequential }

/-! ## Orders the spec leaves open (log 4) -/

/-- A free choice among `n` possibilities: the next value the state lists, or else the next free constant. -/
def State.pick (s : State) (n : Nat) : Nat × State :=
  match s.choices with
  | [] => (Config.freeChoice s.drawn % n, { s with drawn := s.drawn + 1 })
  | c :: cs => (c % n, { s with choices := cs })

/-- Carry out `k` of the given changes, each at most once, in an order the free values choose. -/
def inAnyOrderN : Nat → List (State → State) → State → State
  | 0, _, s => s
  | k + 1, fs, s =>
    match fs with
    | [] => s
    | [f] => f s
    | f :: g :: rest =>
      match (f :: g :: rest)[(s.pick (rest.length + 2)).1]? with
      | some h =>
        inAnyOrderN k ((f :: g :: rest).eraseIdx (s.pick (rest.length + 2)).1) (h (s.pick (rest.length + 2)).2)
      | none => s

/-- Carry out all the given changes, in an order the spec leaves open (R15, R38, R98, R130, R165). -/
def inAnyOrder (fs : List (State → State)) (s : State) : State := inAnyOrderN fs.length fs s

/-- Carry out changes one after another, in the given order. -/
def inOrder (fs : List (State → State)) (s : State) : State := fs.foldl (fun t f => f t) s

/-! ## Events (R157, R158) -/

/-- Offer an event to one queue (R158). -/
def EventQueue.offer (q : EventQueue) (ch : Channel) (now : Word) (e : Event) : EventQueue :=
  if Config.maxEvents ≤ q.records.length then
    { q with lost := min (q.lost + 1) 65535 }
  else if q.lost = 0 then
    { q with records := q.records ++ [⟨e, now⟩] }
  else if q.records.length + 2 ≤ Config.maxEvents then
    { records := q.records ++ [⟨.lost ch q.lost, now⟩, ⟨e, now⟩], lost := 0 }
  else
    { records := q.records ++ [⟨.lost ch q.lost, now⟩], lost := 1 }

/-- Offer an event to the queue of one channel (R31, R39). -/
def emitTo (ch : Channel) (e : Event) (s : State) : State :=
  s.setQueue ch ((s.queue ch).offer ch s.dev.time e)

/-- Queue an event to both channels: the same offer to EQ-A and to EQ-B (R157). -/
def emit (e : Event) (s : State) : State := emitTo .B e (emitTo .A e s)

/-- Offer several events to both queues, in order. -/
def emitAll (es : List Event) (s : State) : State := es.foldl (fun t e => emit e t) s

end Machine

end Sys2Proof
end

