-- ==== Sys2Proof/Machine/Flags.lean ====
section
/-!
DEFINITION. What follows from the views of one element: the occupying condition and agreed status of each kind
(R5, R7, R13), and the conditions under which its discrepancy and watch timers run (R6, R8, R14, R101).
-/

namespace Sys2Proof.Machine

/-! ## Sections -/

/-- The occupying condition (R5). -/
def SectionRec.occupying (x : SectionRec) : Bool :=
  x.viewA != .clear || x.viewB != .clear || x.mask || x.faulted

/-- The condition of the section discrepancy timer (R6). -/
def SectionRec.discrepant (x : SectionRec) : Bool :=
  ((x.viewA == .clear && x.viewB == .occupied) || (x.viewA == .occupied && x.viewB == .clear)) && !x.faulted

/-- Evaluate the occupying condition again, with the clearance delay `p4` (R5). -/
def SectionRec.evaluate (p4 : Nat) (x : SectionRec) : SectionRec :=
  if x.occupying then { x with status := .occupied, clearance := .off }
  else
    match x.status with
    | .occupied =>
      if p4 = 0 then { x with status := .clear, clearance := .off }
      else { x with status := .clearing, clearance := Timer.start p4 }
    | .clearing => x
    | .clear => x

/-- Derive status and timers of a section after a change of a view, its mask or FAULTED (R5, R6). -/
def SectionRec.derive (p4 p5 : Nat) (x : SectionRec) : SectionRec :=
  let y := x.evaluate p4
  { y with disc := y.disc.whileCond y.discrepant p5 }

/-! ## Points -/

/-- The view that reports a position (R4). -/
def viewOfPos : Pos → PointView
  | .normal => .normal
  | .reverse => .reverse

/-- The agreed status of a position (R7). -/
def statusOfPos : Pos → PointStatus
  | .normal => .normal
  | .reverse => .reverse

/-- The other position. -/
def Pos.opposite : Pos → Pos
  | .normal => .reverse
  | .reverse => .normal

/-- The position of an agreed status, if it is one (R7). -/
def PointStatus.pos? : PointStatus → Option Pos
  | .normal => some .normal
  | .reverse => some .reverse
  | .undetected => none
  | .moving => none

/-- Agreed status of a point (R7): MOVING while a move is in flight, else as the views, the mask and FAULTED
give it. -/
def PointRec.derivedStatus (x : PointRec) : PointStatus :=
  if x.move.isSome then .moving
  else if x.mask || x.faulted then .undetected
  else if x.viewA = .normal ∧ x.viewB = .normal then .normal
  else if x.viewA = .reverse ∧ x.viewB = .reverse then .reverse
  else .undetected

/-- The condition of the point discrepancy timer (R8). -/
def PointRec.discrepant (x : PointRec) : Bool :=
  x.move.isNone && x.viewA != .unknown && x.viewB != .unknown && x.viewA != x.viewB && !x.faulted

/-- Derive status and discrepancy timer of a point (R7, R8). -/
def PointRec.derive (p6 : Nat) (x : PointRec) : PointRec :=
  { x with status := x.derivedStatus, disc := x.disc.whileCond x.discrepant p6 }

/-- Both views report the target (R10). -/
def PointRec.bothAt (x : PointRec) (p : Pos) : Bool := x.viewA == viewOfPos p && x.viewB == viewOfPos p

/-! ## Signals -/

/-- Agreed status of a signal, first line of the table of R13 that applies. -/
def SignalRec.derivedStatus (x : SignalRec) : SignalStatus :=
  let anyProceed := x.viewA = .proceed ∨ x.viewB = .proceed
  if (x.mask = true ∧ ¬ anyProceed) ∨ (x.viewA = .danger ∧ x.viewB = .danger) then .danger
  else if anyProceed then .proceed
  else if (x.viewA = .dark ∨ x.viewB = .dark) ∧ x.mask = false then .dark
  else .unproven

/-- The condition of the signal discrepancy timer (R14). -/
def SignalRec.discrepant (x : SignalRec) : Bool :=
  x.viewA != .unknown && x.viewB != .unknown && x.viewA != x.viewB && !x.faulted

/-- The condition of the watch timer: a view shows PROCEED and permission is NONE (R101). -/
def SignalRec.watched (x : SignalRec) : Bool :=
  (x.viewA == .proceed || x.viewB == .proceed) && x.perm.isNone

/-- The watch timer after a change of a view or of the permission: it starts when its conditions come to hold
together, runs on or stays expired while they hold, and is stopped when either ceases (R101). -/
def SignalRec.watchTimer (p7 : Nat) (x : SignalRec) : Timer :=
  if x.watched then (if x.watch.mode = .stopped then Timer.start p7 else x.watch) else Timer.off

/-- Derive status, discrepancy timer and watch timer of a signal (R13, R14, R101). -/
def SignalRec.derive (p7 : Nat) (x : SignalRec) : SignalRec :=
  { x with status := x.derivedStatus, disc := x.disc.whileCond x.discrepant p7, watch := x.watchTimer p7 }

/-! ## Entry of a route (R106, R144) -/

/-- A route the train has entered: ENTERED, or EMERGENCY_TIMING after entry (R106, R144). S1 is marked at entry. -/
def hasEntered (a : ActiveRoute) : Bool :=
  a.state == .entered || (a.state == .emergencyTiming && a.marks.head? == some true)

end Sys2Proof.Machine
end

