-- ==== Sys2Proof/Machine/Permission.lean ====
section
/-!
DEFINITION. The Permission Unit (chapter 6): the conditions of permission, grant and withdrawal, and what the unit
does with a change handed to it.
-/

namespace Sys2Proof.Machine

/-! ## What the unit reads -/

/-- The overlap sections of the chosen variant (R43). -/
def overlapSecs (d : RouteDef) (v : Option Nat) : List Nat :=
  match v with
  | none => []
  | some k => match d.variants[k]? with
    | some o => o.secs
    | none => []

/-- The overlap points of the chosen variant (R43). -/
def overlapPoints (d : RouteDef) (v : Option Nat) : List PointReq :=
  match v with
  | none => []
  | some k => match d.variants[k]? with
    | some o => o.points
    | none => []

/-- Every section of a route set with variant `v`: route sections, then overlap sections. -/
def allSecs (d : RouteDef) (v : Option Nat) : List Nat := d.secs ++ overlapSecs d v

/-- Every point of a route set with variant `v`: route points, then overlap points. -/
def allPoints (d : RouteDef) (v : Option Nat) : List PointReq := d.points ++ overlapPoints d v

def secStatusIs (s : State) (id : Nat) (st : SecStatus) : Bool :=
  match s.section? id with
  | some x => x.status == st
  | none => false

/-- A point agreed in a position (R7). -/
def pointIn (s : State) (q : PointReq) : Bool :=
  match s.point? q.point with
  | some x => x.status == statusOfPos q.pos
  | none => false

/-- The flank of a route is satisfied: every STANDING entry is (R82). -/
def flankOk (a : ActiveRoute) : Bool := a.flanks.all (fun f => !f.standing || f.satisfied)

/-- Lowest index among the entries that are not satisfied (R82). -/
def flankFail (a : ActiveRoute) : Option Nat :=
  (a.flanks.find? (fun f => f.standing && !f.satisfied)).map (·.index)

/-- The condition on the entry signal (R94). -/
def entrySignalOk (s : State) (id : Nat) : Bool :=
  match s.signal? id with
  | some x => !x.faulted && !x.mask && x.status != .dark && x.claims.isEmpty
  | none => false

/-- The condition on an exit slot: its outbound state is ACCEPTED (R94). -/
def boundaryOk (s : State) (e : Option SlotRef) : Bool :=
  match e with
  | none => true
  | some ref => match s.slot? ref with
    | some x => x.outb == .accepted
    | none => false

/-- The first failing condition of R94 in its order; none when the route is grantable. -/
def firstFailing (s : State) (a : ActiveRoute) : Option PermCause :=
  let d := s.defOf a.id
  match (allSecs d a.variant).find? (fun i => !secStatusIs s i .clear) with
  | some i => some (.sec i)
  | none =>
    match (allPoints d a.variant).find? (fun q => !pointIn s q) with
    | some q => some (.point q.point)
    | none =>
      match flankFail a with
      | some i => some (.flank i)
      | none =>
        if !entrySignalOk s d.entry then some (.entrySignal d.entry)
        else if !s.operating .A then some (.channel .A)
        else if !s.operating .B then some (.channel .B)
        else if s.dev.state ≠ .inService then some .deviceState
        else if !boundaryOk s a.exitSlot then
          match a.exitSlot with
          | some ref => some (.boundary ref)
          | none => none
        else none

/-- A route is grantable while every condition of R94 holds. -/
def grantable (s : State) (a : ActiveRoute) : Bool := (firstFailing s a).isNone

/-! ## Grant and withdrawal -/

/-- Permission of a signal becomes `p`; its watch timer follows (R95, R96, R101). -/
def setPerm (g : Nat) (p : Option Nat) (s : State) : State :=
  s.mapSignal g (fun x => { x with perm := p, watch := SignalRec.watchTimer (param 7 s) { x with perm := p } })

/-- Grant permission to a route in LOCKED, which enters PERMITTED (R67, R95). -/
def grant (a : ActiveRoute) (s : State) : State :=
  let g := (s.defOf a.id).entry
  emit (.routeState a.id (.state .permitted) .granted 0)
    ((emit (.permissionGranted g a.id) (setPerm g (some a.id) s)).mapRoute a.id
      (fun x => { x with state := .permitted, permittedBefore := true }))

/-- Withdraw the permission of a route whose own state is changing (R97): only where it is granted. -/
def withdrawOnly (a : ActiveRoute) (cause : PermCause) (s : State) : State :=
  let g := (s.defOf a.id).entry
  match s.signal? g with
  | some x => if x.perm = some a.id then emit (.permissionWithdrawn g a.id cause) (setPerm g none s) else s
  | none => s

/-- Withdraw the permission of a route in PERMITTED for a failed condition: the route returns to LOCKED with
grant_allowed false (R67, R96). -/
def withdraw (a : ActiveRoute) (cause : PermCause) (s : State) : State :=
  let g := (s.defOf a.id).entry
  emit (.routeState a.id (.state .locked) .withdrawn 0)
    ((emit (.permissionWithdrawn g a.id cause) (setPerm g none s)).mapRoute a.id
      (fun x => { x with state := .locked, grantAllowed := false }))

/-! ## Changes handed to the unit -/

/-- A change handed to the Permission Unit (R95, R96): which condition of R94 it concerns. -/
inductive Concern where
  | sec (id : Nat)
  | point (id : Nat)
  | flank (routes : List Nat)
  | signals (ids : List Nat)
  | channel (ch : Channel)
  | device
  | slot (ref : SlotRef)
  | route (r : Nat)
  deriving DecidableEq, Repr

/-- The change concerns a condition of this route. -/
def concerns (c : Concern) (s : State) (a : ActiveRoute) : Bool :=
  let d := s.defOf a.id
  match c with
  | .sec id => (allSecs d a.variant).contains id
  | .point id => (allPoints d a.variant).any (fun q => q.point == id)
  | .flank rs => rs.contains a.id
  | .signals gs => gs.contains d.entry
  | .channel _ => true
  | .device => true
  | .slot ref => a.exitSlot == some ref
  | .route r => a.id == r

/-- The condition that the change makes fail for a route in PERMITTED, by itself. S1 agreed OCCUPIED is entry and
no failure here (R96, R97). -/
def failedBy (c : Concern) (s : State) (a : ActiveRoute) : Option PermCause :=
  let d := s.defOf a.id
  match c with
  | .sec id =>
    if secStatusIs s id .clear || (d.secs.head? == some id && secStatusIs s id .occupied) then none
    else some (.sec id)
  | .point id =>
    if (allPoints d a.variant).all (fun q => q.point != id || pointIn s q) then none else some (.point id)
  | .flank _ => (flankFail a).map .flank
  | .signals _ => if entrySignalOk s d.entry then none else some (.entrySignal d.entry)
  | .channel ch => if s.operating ch then none else some (.channel ch)
  | .device => if s.dev.state = .inService then none else some .deviceState
  | .slot ref => if boundaryOk s (some ref) then none else some (.boundary ref)
  | .route _ => none

/-- The cause a withdrawal names: outside IN_SERVICE always DEVICE_STATE (R99), else the condition the change made
fail (R98; log 11). -/
def withdrawCause (c : Concern) (s : State) (a : ActiveRoute) : Option PermCause :=
  match failedBy c s a with
  | none => none
  | some x => if s.dev.state = .inService then some x else some .deviceState

/-- What the Permission Unit does for one route with a change handed to it (R95, R96). -/
def permRoute (c : Concern) (r : Nat) (s : State) : State :=
  match s.route? r with
  | none => s
  | some a =>
    if !concerns c s a then s
    else if a.state = .permitted then
      match withdrawCause c s a with
      | some cause => withdraw a cause s
      | none => s
    else if a.state = .locked ∧ a.grantAllowed = true ∧ grantable s a = true then grant a s
    else s

/-- The routes in PERMITTED that hold section `sec` as a route or overlap section (R102). -/
def permittedOver (s : State) (sec : Nat) : List ActiveRoute :=
  s.routes.filter (fun a => a.state == .permitted && (allSecs (s.defOf a.id) a.variant).contains sec)

/-- The withdrawals of an expired watch of signal `g` protecting `sec` (R102). -/
def withdrawOver (g sec : Nat) (s : State) : State :=
  inOrder ((permittedOver s sec).map (fun a => withdraw a (.unauthorized g))) s

/-- Every granted permission withdrawn on entry to SAFE_HALT, in list order (R99). -/
def withdrawAll (s : State) : State :=
  inOrder ((s.routes.filter (fun a => a.state == .permitted)).map (fun a => withdraw a .deviceState)) s

/-- A change handed to the Permission Unit: every route it concerns, in the order of the Active Route List, oldest
first (R95, R98). In SAFE_HALT the device condition fails for every route, so the first change that is handed
withdraws every permission, whichever unit hands it (R99; log 24). -/
def permOn (c : Concern) (s : State) : State :=
  if s.dev.state = .safeHalt then withdrawAll s
  else inOrder (s.routes.map (fun a => permRoute c a.id)) s

end Sys2Proof.Machine
end

