-- ==== Sys2Proof/Machine/Slots.lean ====
section
/-!
DEFINITION. The Handover Unit's work on one slot (chapter 9): published fields, outbound offers, inbound
acceptance and the dropping of entry reservations.
-/

namespace Sys2Proof.Machine

/-! ## Published fields (R136) -/

def pubPermit (x : Slot) : PubPermit :=
  match x.permit with
  | .heldHere => if x.refusing then .refuse else .hold
  | .heldThere => if x.yielded then .yielded else .notHold
  | .taking => .request
  | .giving => .release
  | .fault => .fault
  | .unknown => .notHold

def pubOut (x : Slot) : PubOut :=
  match x.outb with
  | .none => .none
  | .offered => .offer
  | .accepted => .offer
  | .transit => .transit
  | .withdrawing => .withdraw

def pubIn (x : Slot) : PubIn :=
  match x.inb with
  | .none => .none
  | .declining => .decline
  | .accepted => .accept
  | .acceptedIsolated => .accept
  | .receiving => .received

/-- The three fields a slot publishes (R136). -/
def published (x : Slot) : PubFields := { permit := pubPermit x, outb := pubOut x, inb := pubIn x }

/-- The fields of a slot position that the image does not configure (R127). -/
def unpublished : PubFields := { permit := .notHold, outb := .none, inb := .none }

/-- A slot is idle (R131). -/
def Slot.idle (x : Slot) : Bool :=
  (x.permit == .heldHere || x.permit == .heldThere) && x.outb == .none && x.inb == .none

/-! ## Conditions -/

def linkUp (s : State) (l : Nat) : Bool :=
  match s.link? l with
  | some x => x.state == .up
  | none => false

def canSend (c : Capability) : Bool := c == .out || c == .both

def canReceive (c : Capability) : Bool := c == .inward || c == .both

/-- The Handover Unit changes no slot in SAFE_HALT (R141). -/
def slotsServed (s : State) : Bool := s.dev.state != .safeHalt

/-! ## Permit and outbound changes -/

/-- A change of permit with its PERMIT_STATE (R135). -/
def setPermit (ref : SlotRef) (p : Permit) (cause : PermitCause) (f : Slot → Slot) (s : State) : State :=
  emit (.permitState ref p cause) (s.mapSlot ref (fun x => { f x with permit := p }))

/-- A change of the outbound state with its SLOT_STATE. A change into or out of ACCEPTED is handed to the
Permission Unit (R143). -/
def setOutbound (ref : SlotRef) (o : Outbound) (cause : SlotCause) (f : Slot → Slot) (s : State) : State :=
  permOn (.slot ref) (emit (.slotOut ref o cause) (s.mapSlot ref (fun x => { f x with outb := o })))

/-- A slot may begin an offer (R143). -/
def mayOffer (s : State) (x : Slot) : Bool :=
  x.outb == .none
    && s.routes.any (fun a => a.state == .locked && a.exitSlot == some x.ref)
    && x.permit == .heldHere && linkUp s x.ref.link && x.reconciled && !x.block && canSend x.cap
    && s.dev.state == .inService

/-- Begin an offer where the conditions of R143 hold. -/
def tryOffer (ref : SlotRef) (s : State) : State :=
  match s.slot? ref with
  | none => s
  | some x =>
    if mayOffer s x then
      setOutbound ref .offered .none (fun y => { y with accept := Timer.start (param 12 s) }) s
    else s

/-- The entered route of an exit slot loses its transit: it receives no RECEIVED from then on (R145; log 43). -/
def loseTransit (ref : SlotRef) (s : State) : State :=
  { s with routes := s.routes.map (fun a =>
      if a.exitSlot = some ref ∧ hasEntered a = true then { a with transitLost := true } else a) }

/-- The permit leaves HELD_HERE for FAULT: outbound work ends in the same change (R145). -/
def endOutbound (ref : SlotRef) (s : State) : State :=
  match s.slot? ref with
  | none => s
  | some x =>
    match x.outb with
    | .offered => setOutbound ref .withdrawing .none (fun y => { y with accept := .off }) s
    | .accepted => setOutbound ref .withdrawing .none (fun y => { y with accept := .off }) s
    | .transit =>
      loseTransit ref
        (setOutbound ref .none .permitFault (fun y => { y with transit := .off, receivedReported := false }) s)
    | .none => s
    | .withdrawing => s

/-- An exit route has left the Active Route List, or its Sn has been released (R144, R145). `cause` is COMPLETE, or
EMERGENCY when the emergency release timer ended the route. -/
def slotRouteGone (cause : SlotCause) (ref : SlotRef) (s : State) : State :=
  if slotsServed s then
    match s.slot? ref with
    | none => s
    | some x =>
      match x.outb with
      | .transit =>
        tryOffer ref
          (setOutbound ref .none cause (fun y => { y with transit := .off, receivedReported := false }) s)
      | .offered => setOutbound ref .withdrawing .none (fun y => { y with accept := .off }) s
      | .accepted => setOutbound ref .withdrawing .none (fun y => { y with accept := .off }) s
      | .none => s
      | .withdrawing => s
  else s

/-! ## Inbound handover -/

/-- An offer stands while the peer's last outbound field is OFFER or TRANSIT (R146). -/
def offerStands (x : Slot) : Bool :=
  match x.peer with
  | some p => p.outb == .offer || p.outb == .transit
  | none => false

/-- The boundary section is ready for a train (R146, third condition). -/
def boundaryFree (s : State) (b : Nat) : Bool :=
  match s.section? b with
  | some y => y.status == .clear && y.holder == .none && !y.faulted && !y.block
  | none => false

/-- Place of the first failing condition in the list of R146; none when all hold. -/
def acceptFail (s : State) (x : Slot) : Option Nat :=
  if !canReceive x.cap then some 1
  else if x.block then some 2
  else if !boundaryFree s x.bsec then some 3
  else if !(x.permit == .heldThere && x.reconciled) then some 4
  else if !linkUp s x.ref.link then some 5
  else if s.dev.state ≠ .inService then some 6
  else if !(s.operating .A && s.operating .B) then some 7
  else none

/-- The peer's last outbound field is TRANSIT. -/
def peerTransit (x : Slot) : Bool :=
  match x.peer with
  | some p => p.outb == .transit
  | none => false

/-- A slot in NONE or DECLINING tests its acceptance of a standing offer (R146): it takes ENTRY on B and enters
ACCEPTED, or is in DECLINING. -/
def testAcceptance (ref : SlotRef) (s : State) : State :=
  match s.slot? ref with
  | none => s
  | some x =>
    if (x.inb = .none ∨ x.inb = .declining) ∧ offerStands x = true then
      match acceptFail s x with
      | none =>
        emit (.slotIn ref .accepted .none)
          ((s.mapSection x.bsec (fun b => { b with holder := .entry ref.link ref.idx })).mapSlot ref
            (fun y => { y with inb := .accepted, transitSeen := peerTransit x, transitEnded := false }))
      | some k =>
        if x.inb = .declining then s
        else emit (.slotIn ref .declining (.condition k)) (s.mapSlot ref (fun y => { y with inb := .declining }))
    else s

/-- A slot in DECLINING tests again on a handed change of one of the conditions (R146). -/
def retest (ref : SlotRef) (s : State) : State :=
  match s.slot? ref with
  | none => s
  | some x => if x.inb = .declining ∧ slotsServed s = true then testAcceptance ref s else s

/-- Every slot of boundary section `b` in DECLINING tests again, in image order (log 31). -/
def retestOver (b : Nat) (s : State) : State :=
  inOrder ((s.slots.filter (fun x => x.bsec == b)).map (fun x => retest x.ref)) s

/-- Every slot in DECLINING tests again, in image order (log 31), on a change of a channel or device state (R38, R146). -/
def retestAll (s : State) : State := inOrder (s.slots.map (fun x => retest x.ref)) s

/-- Drop ENTRY on the boundary section of a slot, if it is held for it (R22). -/
def dropEntry (ref : SlotRef) (b : Nat) (s : State) : State :=
  s.mapSection b (fun y => if y.holder = .entry ref.link ref.idx then { y with holder := .none } else y)

/-- The inbound state returns to NONE with ENTRY dropped: Transit seen becomes false, the reservation release timer
stops, and the drop is handed on (R146, R147, R148). -/
def endInbound (ref : SlotRef) (b : Nat) (cause : SlotCause) (s : State) : State :=
  retestOver b
    (emit (.slotIn ref .none cause)
      ((dropEntry ref b s).mapSlot ref
        (fun y => { y with inb := .none, transitSeen := false, transitEnded := false, reserve := .off })))

/-- A change of the agreed status of B handed to the slots of that section (R147, R148): OCCUPIED brings an accepted
train in, CLEAR ends its arrival. -/
def slotOnSection (b : Nat) (old : SecStatus) (ref : SlotRef) (s : State) : State :=
  match s.slot? ref with
  | none => s
  | some x =>
    if (x.inb = .accepted ∨ x.inb = .acceptedIsolated) ∧ old ≠ .occupied ∧ secStatusIs s b .occupied = true then
      emit (.slotIn ref .receiving .none)
        (s.mapSlot ref (fun y => { y with inb := .receiving, reserve := .off }))
    else if x.inb = .receiving ∧ old ≠ .clear ∧ secStatusIs s b .clear = true then
      endInbound ref b .arrived s
    else retest ref s

end Sys2Proof.Machine
end

