-- ==== Sys2Proof/Machine/Release.lean ====
section
/-!
DEFINITION. The dropping of holds and claims (R22), the release of sections, of the overlap and of whole routes
(R57, R65, R71, R85 to R87, R108 to R112, R116), and the release time (R118 to R120).
-/

namespace Sys2Proof.Machine

/-! ## Drops (R22) -/

def holderIs (r : Nat) (h : Holder) : Bool :=
  match h with
  | .route q => q == r
  | .overlap q => q == r
  | .none => false
  | .entry _ _ => false

def holdIs (r : Nat) (h : PointHold) : Bool :=
  match h with
  | .route q _ => q == r
  | .overlap q _ => q == r
  | .none => false

/-- A claim set without the claims that `p` names; the required position is forgotten when it becomes empty
(R84). -/
def PointRec.dropClaims (p : Claim → Bool) (x : PointRec) : PointRec :=
  let cs := x.claims.filter (fun c => !p c)
  { x with claims := cs, claimPos := if cs.isEmpty then none else x.claimPos }

def SignalRec.dropClaims (p : Claim → Bool) (x : SignalRec) : SignalRec :=
  { x with claims := x.claims.filter (fun c => !p c) }

/-- Drop the claims that `p` names from every set. -/
def dropClaims (p : Claim → Bool) (s : State) : State :=
  { s with points := s.points.map (·.dropClaims p), signals := s.signals.map (·.dropClaims p) }

/-- Drop the section holders that `p` names. -/
def dropHolders (p : Holder → Bool) (s : State) : State :=
  { s with sections := s.sections.map (fun x => if p x.holder then { x with holder := .none } else x) }

/-- Drop the primary holds of points that `p` names. -/
def dropHolds (p : PointRec → Bool) (s : State) : State :=
  { s with points := s.points.map (fun x => if p x then { x with hold := .none } else x) }

/-- Drop the entry-of of route `r`. -/
def dropEntryOf (r : Nat) (s : State) : State :=
  { s with signals := s.signals.map (fun x => if x.entryOf = some r then { x with entryOf := none } else x) }

/-- Ids of the sections whose holder `p` names. -/
def heldSecs (p : Holder → Bool) (s : State) : List Nat := (s.sections.filter (fun x => p x.holder)).map (·.id)

/-- Ids of the signals with a claim that `p` names. -/
def claimedSignals (p : Claim → Bool) (s : State) : List Nat :=
  (s.signals.filter (fun x => x.claims.any p)).map (·.id)

/-- The drops handed to the units that depend on them (R22, R85): a free section to the slots, the signals that lose
claims to the Permission Unit, together, so that the routes they free are taken oldest first (R95). -/
def handDrops (secs sigs : List Nat) : List (State → State) :=
  secs.map (fun b => retestOver b) ++ [permOn (.signals sigs)]

/-! ## A route leaves the list -/

/-- Every hold, claim and entry-of of a route dropped and its record removed, in one change (R57, R65, R71, R87). -/
def dropRoute (r : Nat) (s : State) : State :=
  let t := dropEntryOf r (dropClaims (fun c => c.route == r)
    (dropHolds (fun x => holdIs r x.hold) (dropHolders (holderIs r) s)))
  { t with routes := t.routes.filter (fun a => a.id != r) }

/-- A route is removed with its ROUTE_STATE; then the drops are handed on, and the Handover Unit is handed the
removal where the route has an exit slot (R65, R71, R110, R114, R116). -/
def removeRoute (a : ActiveRoute) (news : RouteNews) (cause : RouteCause) (point : Nat) (slotCause : SlotCause)
    (s : State) : State :=
  inAnyOrder
    (handDrops (heldSecs (holderIs a.id) s) (claimedSignals (fun c => c.route == a.id) s)
      ++ (match a.exitSlot with
          | some ref => [slotRouteGone slotCause ref]
          | none => []))
    (emit (.routeState a.id news cause point) (dropRoute a.id s))

/-- The train has cleared the route (R110, R111). -/
def clearedRoute (a : ActiveRoute) (s : State) : State := removeRoute a .released .trainCleared 0 .complete s

/-! ## Release of parts -/

/-- The flank entry records of a route whose guarded part is released go to DROPPED (R85, R86). -/
def dropGuard (g : Guard) (a : ActiveRoute) : ActiveRoute :=
  { a with flanks := a.flanks.map (fun f => if f.guard = g then { f with standing := false, satisfied := false } else f) }

/-- The claims of route `a` that guard `g`. -/
def guardClaims (a : ActiveRoute) (g : Guard) (c : Claim) : Bool :=
  c.route == a.id && a.flanks.any (fun f => f.guard == g && f.standing && f.index == c.entry)

/-- Release route section `k` of a route: its holder, the route points in it and the claims guarding it are dropped,
its flag is set and the cursor advances (R85, R108). -/
def releaseSection (a : ActiveRoute) (k : Nat) (s : State) : State :=
  let d := s.defOf a.id
  match d.secs[k - 1]? with
  | none => s
  | some id =>
    inAnyOrder (handDrops [id] (claimedSignals (guardClaims a (.sec k)) s))
      ((dropClaims (guardClaims a (.sec k))
        (dropHolds (fun x => x.sec == id && (match x.hold with | .route q _ => q == a.id | _ => false))
          (s.mapSection id (fun x => if x.holder = .route a.id then { x with holder := .none } else x)))).mapRoute a.id
        (fun x => dropGuard (.sec k) { x with released := x.released.set (k - 1) true, cursor := k + 1 }))

/-- A claim that guards the overlap of a route in WHOLE mode: R86 and R112 drop it with the overlap, R87 keeps it until the
whole route is released (log 34). -/
def overlapClaimsOpen (a : ActiveRoute) (s : State) : Bool :=
  (s.defOf a.id).mode == .whole && a.flanks.any (fun f => f.guard == .overlap && f.standing)

/-- Whether the claims that guard the overlap stand when its timer releases it: a free choice where R86 and R112 say one thing
and R87 another, drawn only then (log 34); else they go. -/
def chooseClaimsKept (a : ActiveRoute) (s : State) : Bool × State :=
  if overlapClaimsOpen a s then ((s.pick 2).1 == 1, (s.pick 2).2) else (false, s)

/-- The overlap of a route freed: its holders and primary holds are dropped and its status becomes RELEASED, and the claims that
guard it are dropped with it (R86, R112), or stand (R87). -/
def freeOverlap (kept : Bool) (a : ActiveRoute) (s : State) : State :=
  let gone (c : Claim) : Bool := !kept && guardClaims a .overlap c
  inAnyOrder (handDrops (heldSecs (fun h => h == .overlap a.id) s) (claimedSignals gone s))
    ((dropClaims gone
      (dropHolds (fun x => match x.hold with | .overlap q _ => q == a.id | _ => false)
        (dropHolders (fun h => h == .overlap a.id) s))).mapRoute a.id (fun x =>
          let y := { x with overlap := .released, overlapTimer := .off }
          if kept then y else dropGuard .overlap y))

/-- Release the overlap of a route on the expiry of its timer (R86, R112; R87 in WHOLE mode: log 34). -/
def releaseOverlap (a : ActiveRoute) (s : State) : State :=
  let c := chooseClaimsKept a s
  freeOverlap c.1 a c.2

/-! ## Release behind the train (R107 to R111) -/

/-- The received mark is no bar: set, or no exit slot (R110, R111). -/
def receivedOk (a : ActiveRoute) : Bool := a.exitSlot.isNone || a.received

/-- The test of R110 and R111: the route is released when its train has cleared it. -/
def testCleared (r : Nat) (s : State) : State :=
  match s.route? r with
  | none => s
  | some a =>
    let d := s.defOf r
    let n := d.secs.length
    let lastMarked := a.marks[n - 1]? == some true
    let ready := match d.mode with
      | .sequential => a.cursor == n && (match d.secs[n - 1]? with
          | some id => secStatusIs s id .clear
          | none => false)
      | .whole => d.secs.all (fun id => secStatusIs s id .clear)
    if hasEntered a && lastMarked && ready && receivedOk a then clearedRoute a s else s

/-- A route section has become agreed CLEAR (R107, R109, R110, R111). After a GAP the cursor section is not released by any
later occupation (R109; log 35). A cursor section that was unmarked at this change stays unreleased; marked later by
R106, it is tested again like any other (R109; log 45). -/
def routeSectionClear (id : Nat) (r : Nat) (s : State) : State :=
  match s.route? r with
  | none => s
  | some a =>
    let d := s.defOf r
    if !hasEntered a then s
    else match d.mode with
      | .whole => if d.secs.contains id then testCleared r s else s
      | .sequential =>
        if d.secs[a.cursor - 1]? = some id then
          if a.cursor = d.secs.length then testCleared r s
          else match d.secs[a.cursor]? with
            | some next =>
              if a.gapped = false ∧ a.marks[a.cursor - 1]? = some true ∧ secStatusIs s next .occupied = true then
                releaseSection a a.cursor s
              else s
            | none => s
        else s

/-- An approach section has become agreed CLEAR: a route in APPROACH_HELD whose approach sections are all CLEAR is
released whole (R114). -/
def routeApproachClear (id : Nat) (r : Nat) (s : State) : State :=
  match s.route? r with
  | none => s
  | some a =>
    let d := s.defOf r
    if a.state = .approachHeld ∧ d.approach.contains id = true
        ∧ d.approach.all (fun i => secStatusIs s i .clear) = true then
      removeRoute a .released .approachClear 0 .complete s
    else s

/-! ## The Release Time Calculator (R118 to R120) -/

/-- Division rounded up (R118). -/
def ceilDiv (a b : Nat) : Nat := (a + (b - 1)) / b

/-- The stages of R119: speed, braking time, braking distance, running time, and their sum with the reaction
allowance. -/
def rawReleaseTime (length speed brake reaction : Nat) : Nat :=
  let v := ceilDiv (speed * 250) 9
  let tb := ceilDiv (v * 10) brake
  let db := ceilDiv (v * v) (2 * brake)
  let tr := if db < length * 100 then ceilDiv ((length * 100 - db) * 10) v else 0
  reaction + tb + tr

/-- The limits of R120: the release time and the saturated flag. -/
def limitReleaseTime (tMin raw : Nat) : Nat × Bool :=
  if raw < tMin then (tMin, false)
  else if raw ≤ Config.releaseCeiling then (raw, false)
  else (Config.releaseCeiling, true)

/-- The approach speed restriction of a route, none for NONE (R117). -/
def restriction (s : State) (r : Nat) : Option Nat := (s.speeds.find? (fun p => p.1 == r)).map (·.2)

/-- The release time of a route with the inputs of R118. -/
def releaseTime (s : State) (r : Nat) : Nat × Bool :=
  let d := s.defOf r
  let v := match restriction s r with
    | some x => x
    | none => d.speed
  let b := match s.dev.brakes[d.brake]? with
    | some x => x
    | none => 0
  limitReleaseTime (param 9 s) (rawReleaseTime d.length v b (param 8 s))

/-- Compute T, start the release timer and queue RELEASE_TIMING (R113, R115). -/
def startRelease (r : Nat) (s : State) : State :=
  let t := releaseTime s r
  emit (.releaseTiming r t.1 t.2)
    (s.mapRoute r (fun x => { x with release := Timer.start t.1, releaseT := t.1, saturated := t.2 }))

end Sys2Proof.Machine
end

