-- ==== Sys2Proof/Machine/Entry.lean ====
section
/-!
DEFINITION. The Route Unit on a change of an element: passed marks and entry (R68, R69, R106), transit at the
boundary (R144), proving and locking (R60, R64), abandonment (R63, R65); the Flank Unit (R82); and the handing of
element changes to the units (R15).
-/

namespace Sys2Proof.Machine

/-! ## Transit (R144) -/

/-- Report the peer's RECEIVED once to the Route Unit, which sets the received mark and tests the release of Sn
(R110, R111, R144). A route that has lost its transit receives none (R145; log 43). -/
def reportReceived (ref : SlotRef) (s : State) : State :=
  match s.slot? ref with
  | none => s
  | some x =>
    if x.outb = .transit ∧ x.receivedReported = false then
      let t := s.mapSlot ref (fun y => { y with receivedReported := true })
      match t.routes.find? (fun a => a.exitSlot == some ref && hasEntered a && !a.transitLost) with
      | none => t
      | some a => testCleared a.id (t.mapRoute a.id (fun y => { y with received := true }))
    else s

/-- The peer's last inbound field is RECEIVED. -/
def peerReceived (x : Slot) : Bool :=
  match x.peer with
  | some p => p.inb == .received
  | none => false

/-- The slot enters TRANSIT when B is OCCUPIED and its exit route has been entered (R144), also anew after a TRANSIT that a
PERMIT_FAULT ended (log 43). -/
def testTransit (ref : SlotRef) (s : State) : State :=
  match s.slot? ref with
  | none => s
  | some x =>
    if slotsServed s && secStatusIs s x.bsec .occupied && x.permit == .heldHere
        && (x.outb == .none || x.outb == .offered || x.outb == .accepted)
        && s.routes.any (fun a => a.exitSlot == some ref && hasEntered a) then
      let t := setOutbound ref .transit (if x.outb = .accepted then .accepted else .unaccepted)
        (fun y => { y with transit := Timer.start (param 16 s) }) s
      if peerReceived x then reportReceived ref t else t
    else s

/-! ## Passed marks and entry (R69, R106, R116) -/

/-- Route section `j` (from 0) of a route is taken as having become OCCUPIED (R106). Marking Sn starts the overlap
timer (R112) and tests whole release (R111). A cursor section that cleared unmarked and is occupied again has no unreleased
predecessor and is marked (R106; log 45). -/
def markSection (r j : Nat) (s : State) : State :=
  match s.route? r with
  | none => s
  | some a =>
    let d := s.defOf r
    if a.marks[j]? ≠ some false ∨ a.released[j]? ≠ some false then s
    else if ((a.marks.take j).drop (a.cursor - 1)).all id then
      let t := s.mapRoute r (fun x => { x with marks := x.marks.set j true })
      if j + 1 = d.secs.length then
        let u := if a.overlap = .held then
          t.mapRoute r (fun x => { x with overlapTimer := Timer.start (param 10 s) }) else t
        if d.mode = .whole then testCleared r u else u
      else t
    else if d.mode = .sequential then
      match d.secs[j]? with
      | some id => emit (.sequenceAnomaly r id .ahead) s
      | none => s
    else s

/-- The marks set at entry: S1, then each of S2 to Sn that is agreed OCCUPIED, in section order (R106); the AHEADs found are
queued in that order (log 46). -/
def markEntry (r : Nat) (s : State) : State :=
  let secs := (s.defOf r).secs
  inOrder ((List.range secs.length).map (fun j t =>
    if j = 0 then markSection r j t
    else match secs[j]? with
      | some id => if secStatusIs t id .occupied then markSection r j t else t
      | none => t)) s

/-- The exit slot of an entered route is handed the entry (R144). -/
def handEntry (a : ActiveRoute) (s : State) : State :=
  match a.exitSlot with
  | some ref => testTransit ref s
  | none => s

/-- A route enters ENTERED (R68, R69). From APPROACH_HELD its release timer is stopped and the computed time discarded
(R114): T then shows 0 and the saturated flag is clear (log 33). ROUTE_STATE is queued before the AHEADs that the entry finds,
and the SLOT_STATE of an exit slot in TRANSIT after both (log 46). -/
def enterRoute (a : ActiveRoute) (s : State) : State :=
  handEntry a
    (markEntry a.id
      (emit (.routeState a.id (.state .entered) .trainEntered 0)
        ((dropEntryOf a.id (withdrawOnly a .entered s)).mapRoute a.id
          (fun x => { x with state := .entered, release := .off, releaseT := 0, saturated := false }))))

/-- The occupation of S1 in EMERGENCY_TIMING: the entry-of is dropped and S1 is marked; the state does not change
(R68, R116). An exit slot enters TRANSIT after the AHEADs are queued (log 46). -/
def enterEmergency (a : ActiveRoute) (s : State) : State := handEntry a (markEntry a.id (dropEntryOf a.id s))

/-- The section before `j` is the marked cursor section and still agreed CLEAR: a GAP (R109). It is one whether section `j`
was marked before or not (log 35). -/
def gapAt (s : State) (a : ActiveRoute) (j : Nat) : Bool :=
  let d := s.defOf a.id
  d.mode == .sequential && a.cursor == j && 1 ≤ j && a.marks[j - 1]? == some true
    && (match d.secs[j - 1]? with
        | some id => secStatusIs s id .clear
        | none => false)

/-- A GAP at section `id` is announced, and the cursor section stays unreleased from then on (R109). -/
def recordGap (id r : Nat) (s : State) : State :=
  (emit (.sequenceAnomaly r id .gap) s).mapRoute r (fun x => { x with gapped := true })

/-- A section has become agreed OCCUPIED, for one route (R68, R106, R109, R116). -/
def routeSectionOccupied (id : Nat) (r : Nat) (s : State) : State :=
  match s.route? r with
  | none => s
  | some a =>
    let d := s.defOf r
    match d.secs.findIdx? (fun i => i == id) with
    | none => s
    | some j =>
      if j = 0 ∧ (a.state = .permitted ∨ a.state = .approachHeld
          ∨ (a.state = .locked ∧ a.permittedBefore = true)) then enterRoute a s
      else if j = 0 ∧ a.state = .emergencyTiming ∧ hasEntered a = false then enterEmergency a s
      else if hasEntered a = true ∧ a.released[j]? = some false then
        markSection r j (if gapAt s a j then recordGap id r s else s)
      else s

/-! ## Proving and locking (R60, R61, R64) -/

/-- The points of the chosen flank options, each in its protective position (R60). -/
def flankPoints (a : ActiveRoute) : List PointReq :=
  a.flanks.filterMap (fun f => match f.opt with
    | .point id pos => if f.standing then some { point := id, pos := pos } else none
    | .signal _ => none)

/-- Every point a route in CALLING waits for (R59, R60). -/
def neededPoints (s : State) (a : ActiveRoute) : List PointReq :=
  allPoints (s.defOf a.id) a.variant ++ flankPoints a

/-- A route in CALLING is proven when every point is agreed in the position required of it (R60). -/
def proven (s : State) (a : ActiveRoute) : Bool := (neededPoints s a).all (fun q => pointIn s q)

/-- A proven route enters LOCKED, and its setting timer stops, with 0 as the time left that READ ROUTE shows (R74; log 49); the
change is handed to the Permission Unit and, for an exit slot, to the Handover Unit (R64). -/
def lockRoute (a : ActiveRoute) (s : State) : State :=
  inAnyOrder
    (permOn (.route a.id) :: (match a.exitSlot with
      | some ref => [tryOffer ref]
      | none => []))
    (emit (.routeState a.id (.state .locked) .pointsProven 0)
      (s.mapRoute a.id (fun x => { x with state := .locked, setting := .off })))

/-- The proving test of one route (R60). -/
def testProven (r : Nat) (s : State) : State :=
  match s.route? r with
  | none => s
  | some a => if a.state = .calling ∧ proven s a = true then lockRoute a s else s

/-- Abandon a route in CALLING (R62, R63, R65). -/
def abandonRoute (cause : RouteCause) (point : Nat) (r : Nat) (s : State) : State :=
  match s.route? r with
  | none => s
  | some a => if a.state = .calling then removeRoute a .abandoned cause point .none s else s

/-! ## The Route Unit on handed changes; in SAFE_HALT it changes no record (R73) -/

/-- The Route Unit changes records in every device state but SAFE_HALT (R73). -/
def routesServed (s : State) : Bool := s.dev.state != .safeHalt

def routesOnSection (id : Nat) (old : SecStatus) (s : State) : State :=
  if routesServed s then
    if secStatusIs s id .occupied = true ∧ old ≠ .occupied then
      inAnyOrder (s.routes.map (fun a => routeSectionOccupied id a.id)) s
    else if secStatusIs s id .clear = true ∧ old ≠ .clear then
      inAnyOrder (s.routes.map (fun a => fun t => routeSectionClear id a.id (routeApproachClear id a.id t))) s
    else s
  else s

def routesOnPoint (id : Nat) (s : State) : State :=
  if routesServed s then
    inAnyOrder ((s.routes.filter (fun a => (neededPoints s a).any (fun q => q.point == id))).map
      (fun a => testProven a.id)) s
  else s

/-- A move of point `id` toward `target` has failed: every route in CALLING that waits for it there is abandoned, in
an order that is not fixed (R63, R90). -/
def routesOnMoveFailed (id : Nat) (target : Pos) (s : State) : State :=
  if routesServed s then
    inAnyOrder ((s.routes.filter (fun a => a.state == .calling
        && (neededPoints s a).contains { point := id, pos := target })).map
      (fun a => abandonRoute .moveFailed id a.id)) s
  else s

/-! ## The Flank Unit (R82) -/

/-- The element of a flank option. -/
def FlankOpt.element : FlankOpt → Nat
  | .point id _ => id
  | .signal id => id

/-- The claimed element does what its claim asks (R82). -/
def optSatisfied (s : State) (o : FlankOpt) : Bool :=
  match o with
  | .point id pos => pointIn s { point := id, pos := pos }
  | .signal id => match s.signal? id with
    | some x => x.status == .danger && !x.faulted
    | none => false

/-- The satisfied flags of a route after a change of element `id` (R82). -/
def rederiveFlank (s : State) (id : Nat) (a : ActiveRoute) : ActiveRoute :=
  { a with flanks := a.flanks.map (fun f =>
      if f.standing && f.opt.element == id then { f with satisfied := optSatisfied s f.opt } else f) }

/-- The Flank Unit on a handed change of element `id`: the routes whose flank changes between satisfied and not
satisfied are handed to the Permission Unit (R82). -/
def flanksOn (id : Nat) (s : State) : State :=
  let changed := (s.routes.filter (fun a => flankOk (rederiveFlank s id a) != flankOk a)).map (·.id)
  let t := { s with routes := s.routes.map (rederiveFlank s id) }
  if changed.isEmpty then t else permOn (.flank changed) t

/-! ## Handing on (R15, R22) -/

/-- The Handover Unit on a change of section `id`: the slots whose boundary section it is (R136, R147), and the entry
to TRANSIT of exit slots (R144), in image order (log 31). -/
def slotsOnSection (id : Nat) (old : SecStatus) (s : State) : State :=
  if slotsServed s then
    inOrder ((s.slots.filter (fun x => x.bsec == id)).map (fun x => fun t =>
      testTransit x.ref (slotOnSection id old x.ref t))) s
  else s

/-- A change of the agreed status of a section from `old`, handed to the units in an order that is not fixed
(R15). -/
def handSection (id : Nat) (old : SecStatus) (s : State) : State :=
  inAnyOrder [routesOnSection id old, permOn (.sec id), slotsOnSection id old] s

/-- A change of the status, FAULTED flag or mask of a point, handed on (R15). -/
def handPoint (id : Nat) (s : State) : State :=
  inAnyOrder [routesOnPoint id, permOn (.point id), flanksOn id] s

/-- A change of the status, FAULTED flag or mask of a signal, handed on (R15). -/
def handSignal (id : Nat) (s : State) : State :=
  inAnyOrder [permOn (.signals [id]), flanksOn id] s

/-- A change of the FAULTED flag, block or holder of a section that leaves its status as it is, handed to the slots
(R15, R146). -/
def handSectionFlags (id : Nat) (s : State) : State := retestOver id s

end Sys2Proof.Machine
end

