-- ==== Sys2Proof/Machine/Operands.lean ====
section
/-!
DEFINITION. The bodies of requests: their lengths (R150, R172), the range test of their identifier fields (R151),
the decoding of reported states (R172), and the parsing of link frames (R175, R176).
-/

namespace Sys2Proof.Machine

/-- The body length of a kind that has one length; none for REPORT FIELD STATUS (R172). -/
def fixedLength : ReqKind → Option Nat
  | .reportFieldStatus => none
  | .readElement => some 2
  | .readRoute => some 1
  | .readRoutes => some 0
  | .readSlot => some 2
  | .readLink => some 1
  | .readParameters => some 0
  | .readStatus => some 0
  | .readEvents => some 1
  | .pause => some 0
  | .resume => some 0
  | .setRoute => some 2
  | .cancelRoute => some 1
  | .emergencyRelease => some 1
  | .setApproachSpeed => some 2
  | .movePoint => some 3
  | .blockElement => some 2
  | .unblockElement => some 2
  | .inhibitSet => some 2
  | .inhibitClear => some 2
  | .elementRestore => some 2
  | .requestPermit => some 2
  | .blockSlot => some 2
  | .unblockSlot => some 2
  | .restoreSlot => some 3
  | .releaseReservation => some 2
  | .linkTest => some 18
  | .setParameter => some 3
  | .applyParameters => some 0
  | .acceptConfiguration => some 4
  | .deviceReset => some 0

/-- The body length agrees with the kind (R150). -/
def lengthOk (k : ReqKind) (n : Nat) : Bool :=
  match fixedLength k with
  | some m => n == m
  | none => n % 3 == 0 && 3 ≤ n && n ≤ 96

/-- Element ids of the items of a report lie in 0 to 511 (R151). -/
def itemsInRange : List Byte → Bool
  | hi :: lo :: _ :: rest => num2 hi lo < 512 && itemsInRange rest
  | _ => true

/-- The test of every identifier field against its range (R151 step 2). -/
def inRange (k : ReqKind) (body : List Byte) : Bool :=
  match k, body with
  | .reportFieldStatus, items => itemsInRange items
  | .readElement, [hi, lo] => num2 hi lo < 512
  | .readSlot, [l, i] => l.toNat < 4 && i.toNat < 8
  | .readLink, [l] => l.toNat < 4
  | .readEvents, [n] => 1 ≤ n.toNat && n.toNat ≤ 8
  | .movePoint, [hi, lo, p] => num2 hi lo < 512 && (p.toNat == 1 || p.toNat == 2)
  | .blockElement, [hi, lo] => num2 hi lo < 512
  | .unblockElement, [hi, lo] => num2 hi lo < 512
  | .inhibitSet, [hi, lo] => num2 hi lo < 512
  | .inhibitClear, [hi, lo] => num2 hi lo < 512
  | .elementRestore, [hi, lo] => num2 hi lo < 512
  | .requestPermit, [l, i] => l.toNat < 4 && i.toNat < 8
  | .blockSlot, [l, i] => l.toNat < 4 && i.toNat < 8
  | .unblockSlot, [l, i] => l.toNat < 4 && i.toNat < 8
  | .restoreSlot, [l, i, m] => l.toNat < 4 && i.toNat < 8 && (m.toNat == 1 || m.toNat == 2)
  | .releaseReservation, [l, i] => l.toNat < 4 && i.toNat < 8
  | .linkTest, l :: _ => l.toNat < 4
  | _, _ => true

/-- The two classes of request kinds (R23). -/
def isConcurred : ReqKind → Bool
  | .setRoute | .cancelRoute | .emergencyRelease | .setApproachSpeed | .movePoint | .blockElement
  | .unblockElement | .inhibitSet | .inhibitClear | .elementRestore | .requestPermit | .blockSlot
  | .unblockSlot | .restoreSlot | .releaseReservation | .linkTest | .setParameter | .applyParameters
  | .acceptConfiguration | .deviceReset => true
  | .reportFieldStatus | .readElement | .readRoute | .readRoutes | .readSlot | .readLink | .readParameters
  | .readStatus | .readEvents | .pause | .resume => false

/-! ## Reported states (R172) -/

def secViewOf (b : Byte) : Option SecView :=
  if b.toNat = 1 then some .clear else if b.toNat = 2 then some .occupied else none

def pointViewOf (b : Byte) : Option PointView :=
  if b.toNat = 1 then some .normal else if b.toNat = 2 then some .reverse
  else if b.toNat = 3 then some .noDetection else none

def signalViewOf (b : Byte) : Option SignalView :=
  if b.toNat = 1 then some .danger else if b.toNat = 2 then some .proceed
  else if b.toNat = 3 then some .dark else none

/-- A position byte (R171). -/
def posOf (b : Byte) : Option Pos :=
  if b.toNat = 1 then some .normal else if b.toNat = 2 then some .reverse else none

/-- The bytes of an item of a report (R172). -/
def itemBytes (i : ReportItem) : List Byte := b2 i.element.toNat ++ [i.state]

/-! ## Link frames (R175, R176) -/

/-- The published fields of the slot positions, three bytes each; none where a field lies outside the codes
(R176). -/
def parseFields : List Byte → Option (List PubFields)
  | [] => some []
  | p :: o :: i :: rest =>
    match pubPermitOf p, pubOutOf o, pubInOf i, parseFields rest with
    | some p', some o', some i', some ps => some ({ permit := p', outb := o', inb := i' } :: ps)
    | _, _, _, _ => none
  | _ => none

/-- The decoded fields of a TRAIN; none where its offer makes it Bad (R176). -/
def trainFrame (sender receiver offer flags : Nat) : Option LinkFrame :=
  if 50 ≤ offer ∧ offer ≤ 1000 then
    some (.train { sender := sender, receiver := receiver, offer := offer
                   heard := flags % 2 == 1, loopback := flags / 2 % 2 == 1 })
  else none

/-- The decoded fields of a CYCLIC; none where its length or a published field makes it Bad (R176). -/
def cyclicFrame (sender receiver : Nat) (counter : Byte) (fields : List Byte) : Option LinkFrame :=
  if fields.length = 24 then
    match parseFields fields with
    | some ps => some (.cyclic sender receiver counter ps)
    | none => none
  else none

/-- The decoded fields of a LOOP; none where its length makes it Bad (R176). -/
def loopFrame (index : Byte) (pattern : List Byte) : Option LinkFrame :=
  if pattern.length = 16 then some (.loop index pattern) else none

/-- What a run of characters is before the areas are looked at (R123, R176). -/
inductive RunClass where
  | bad
  | unknown
  | known (f : LinkFrame)
  deriving DecidableEq, Repr

/-- A decoded frame, or Bad where decoding fails. -/
def runOf : Option LinkFrame → RunClass
  | some f => .known f
  | none => .bad

/-- The kind and fields of a run whose CRC checks (R123, R175, R176). -/
def parseRun (payload : List Byte) : RunClass :=
  match payload with
  | [] => .bad
  | k :: rest =>
    if k.toNat = 1 then
      match rest with
      | [s1, s2, r1, r2, o1, o2, fl] => runOf (trainFrame (num2 s1 s2) (num2 r1 r2) (num2 o1 o2) fl.toNat)
      | _ => .bad
    else if k.toNat = 2 then
      match rest with
      | s1 :: s2 :: r1 :: r2 :: c :: fields => runOf (cyclicFrame (num2 s1 s2) (num2 r1 r2) c fields)
      | _ => .bad
    else if k.toNat = 3 then
      match rest with
      | i :: pat => runOf (loopFrame i pat)
      | _ => .bad
    else .unknown

/-- The class of a run of characters: Bad unless its last four bytes are the CRC-32 of the bytes before them, then
by its kind (R123, R176). A run too short to hold a kind and a CRC is Bad. -/
def classifyRun (run : List Byte) : RunClass :=
  if run.length < 5 then .bad
  else if b4 (crc32 (run.take (run.length - 4))).toNat = run.drop (run.length - 4) then
    parseRun (run.take (run.length - 4))
  else .bad

end Sys2Proof.Machine
end

