-- ==== Sys2Proof/Machine/Elements.lean ====
section
/-!
DEFINITION. The Element Table at work (chapter 1): changes of views, field reports, discrepancy and clearance
timers, move calls and their supervision, FAULTED, blocks, masks, ELEMENT RESTORE and MOVE POINT.
-/

namespace Sys2Proof.Machine

/-- What an owner decides on a concurred request (R27): the outcome, its detail, and what carrying it out does. -/
structure Verdict where
  out : Status
  detail : Nat
  act : State → State

/-- A refusal, or an outcome that changes nothing. -/
def Verdict.plain (out : Status) (detail : Nat) : Verdict := { out := out, detail := detail, act := fun s => s }

/-! ## Changes of a view (R3 to R10, R13, R14) -/

/-- A section after its view of one channel has become `v` (R5, R6). A view that does not change starts and stops
nothing (R4). -/
def SectionRec.withView (p4 p5 : Nat) (ch : Channel) (v : SecView) (x : SectionRec) : SectionRec :=
  match ch with
  | .A => if x.viewA = v then x else SectionRec.derive p4 p5 { x with viewA := v }
  | .B => if x.viewB = v then x else SectionRec.derive p4 p5 { x with viewB := v }

/-- A point after its view of one channel has become `v`; completion of a move is taken apart (R7, R8, R10). -/
def PointRec.withView (p6 : Nat) (ch : Channel) (v : PointView) (x : PointRec) : PointRec :=
  match ch with
  | .A => if x.viewA = v then x else PointRec.derive p6 { x with viewA := v }
  | .B => if x.viewB = v then x else PointRec.derive p6 { x with viewB := v }

/-- A signal after its view of one channel has become `v` (R13, R14, R101). -/
def SignalRec.withView (p7 : Nat) (ch : Channel) (v : SignalView) (x : SignalRec) : SignalRec :=
  match ch with
  | .A => if x.viewA = v then x else SignalRec.derive p7 { x with viewA := v }
  | .B => if x.viewB = v then x else SignalRec.derive p7 { x with viewB := v }

/-- What follows a change of a section whose record was `old`: a change of status is handed on, and so is a change of
FAULTED or block alone (R15). -/
def sectionChanged (old : SectionRec) (s : State) : State :=
  match s.section? old.id with
  | none => s
  | some x =>
    if x.status ≠ old.status then handSection old.id old.status s
    else if x.faulted ≠ old.faulted ∨ x.block ≠ old.block then handSectionFlags old.id s
    else s

/-- The elapsed time of a move (R10), modulo 2³². -/
def moveDuration (now start : Word) : Nat := (now - start).toNat

/-- Complete the move in flight of a point toward `m.target` (R10): duration stored, MOVE_DONE, then POINT_SLOW where
the slow-move test finds it, then the change is handed on. -/
def completeMove (x : PointRec) (m : Move) (s : State) : State :=
  let dur := moveDuration s.dev.time m.start
  let t := emit (.moveDone x.id m.target dur)
    (s.mapPoint x.id (fun y => PointRec.derive (param 6 s)
      { y with move := none, moveTimer := .off, lastMove := dur }))
  let u := if param 15 s * x.supTime < dur * 100 then emit (.pointSlow x.id dur x.supTime) t else t
  handPoint x.id u

/-- What follows a view change of a point whose record was `old`: completion of its move (R10), or a loss of detection
(R7) and the change of status handed on (R15). -/
def pointViewChanged (old : PointRec) (s : State) : State :=
  match s.point? old.id with
  | none => s
  | some x =>
    if x.viewA = old.viewA ∧ x.viewB = old.viewB then s
    else match x.move with
      | some m => if x.bothAt m.target then completeMove x m s else s
      | none =>
        if x.status = old.status then s
        else match old.status.pos?, x.status with
          | some p, .undetected => handPoint x.id (emit (.detectionLost x.id p) s)
          | _, _ => handPoint x.id s

/-- What follows a change of a signal whose record was `old` (R15). -/
def signalChanged (old : SignalRec) (s : State) : State :=
  match s.signal? old.id with
  | none => s
  | some x =>
    if x.status ≠ old.status ∨ x.faulted ≠ old.faulted ∨ x.mask ≠ old.mask then handSignal old.id s else s

def viewSection (ch : Channel) (v : SecView) (x : SectionRec) (s : State) : State :=
  sectionChanged x (s.mapSection x.id (SectionRec.withView (param 4 s) (param 5 s) ch v))

def viewPoint (ch : Channel) (v : PointView) (x : PointRec) (s : State) : State :=
  pointViewChanged x (s.mapPoint x.id (PointRec.withView (param 6 s) ch v))

def viewSignal (ch : Channel) (v : SignalView) (x : SignalRec) (s : State) : State :=
  signalChanged x (s.mapSignal x.id (SignalRec.withView (param 7 s) ch v))

/-- The item's element is configured and its state is valid for the kind of the element (R4). -/
def itemValid (s : State) (id : Nat) (b : Byte) : Bool :=
  match s.section? id with
  | some _ => (secViewOf b).isSome
  | none => match s.point? id with
    | some _ => (pointViewOf b).isSome
    | none => match s.signal? id with
      | some _ => (signalViewOf b).isSome
      | none => false

/-- One applied item of a field report: one view change at its element (R4). -/
def applyItem (ch : Channel) (id : Nat) (b : Byte) (s : State) : State :=
  match s.section? id with
  | some x => match secViewOf b with
    | some v => viewSection ch v x s
    | none => s
  | none => match s.point? id with
    | some x => match pointViewOf b with
      | some v => viewPoint ch v x s
      | none => s
    | none => match s.signal? id with
      | some x => match signalViewOf b with
        | some v => viewSignal ch v x s
        | none => s
      | none => s

/-- The items of a report in frame order, with the counts applied and skipped (R4). Every item of a PAUSED channel is
skipped. -/
def applyItems (ch : Channel) : List Byte → State → Nat → Nat → Nat × Nat × State
  | hi :: lo :: b :: rest, s, done, skipped =>
    if (s.chan ch).state ≠ .paused ∧ itemValid s (num2 hi lo) b = true then
      applyItems ch rest (applyItem ch (num2 hi lo) b s) (done + 1) skipped
    else applyItems ch rest s done (skipped + 1)
  | _, s, done, skipped => (done, skipped, s)

/-- Every view of a channel becomes UNKNOWN at once (R3). -/
def viewsUnknown (ch : Channel) (s : State) : State :=
  { s with
    sections := s.sections.map (SectionRec.withView (param 4 s) (param 5 s) ch .unknown)
    points := s.points.map (PointRec.withView (param 6 s) ch .unknown)
    signals := s.signals.map (SignalRec.withView (param 7 s) ch .unknown) }

/-- The changes that follow when every view of a channel has become UNKNOWN, from the records as they were in `s`:
one for each element, in no fixed order between them (R3, R98; log 10). -/
def unknownChanges (s : State) : List (State → State) :=
  s.sections.map (fun x => sectionChanged x)
    ++ s.points.map (fun x => pointViewChanged x)
    ++ s.signals.map (fun x => signalChanged x)

/-! ## Timers of elements -/

/-- A section is set FAULTED by a discrepancy (R6, R16). -/
def faultSection (x : SectionRec) (s : State) : State :=
  sectionChanged x (emit (.elementFault x.id)
    (s.mapSection x.id (fun y => SectionRec.derive (param 4 s) (param 5 s) { y with faulted := true })))

/-- A point is set FAULTED by a discrepancy (R8, R16). -/
def faultPoint (x : PointRec) (s : State) : State :=
  handPoint x.id (emit (.elementFault x.id)
    (s.mapPoint x.id (fun y => PointRec.derive (param 6 s) { y with faulted := true })))

/-- A signal is set FAULTED by a discrepancy (R14, R16). -/
def faultSignal (x : SignalRec) (s : State) : State :=
  handSignal x.id (emit (.elementFault x.id)
    (s.mapSignal x.id (fun y => SignalRec.derive (param 7 s) { y with faulted := true })))

/-- A section in CLEARING whose clearance timer expires goes to CLEAR (R5). -/
def SectionRec.cleared (x : SectionRec) : SectionRec :=
  if x.status = .clearing then { x with status := .clear, clearance := .off } else x

/-- The clearance timer of a section expires (R5). -/
def clearanceExpired (id : Nat) (s : State) : State :=
  match s.section? id with
  | none => s
  | some x =>
    if x.status = .clearing ∧ x.clearance.mode = .running then
      sectionChanged x (s.mapSection id SectionRec.cleared)
    else s

def sectionDiscExpired (id : Nat) (s : State) : State :=
  match s.section? id with
  | none => s
  | some x => if x.disc.mode = .running ∧ x.faulted = false then faultSection x s else s

def pointDiscExpired (id : Nat) (s : State) : State :=
  match s.point? id with
  | none => s
  | some x => if x.disc.mode = .running ∧ x.faulted = false then faultPoint x s else s

def signalDiscExpired (id : Nat) (s : State) : State :=
  match s.signal? id with
  | none => s
  | some x => if x.disc.mode = .running ∧ x.faulted = false then faultSignal x s else s

/-- The move supervision timer of a point expires while its move is in flight: the move has failed (R11). -/
def moveExpired (id : Nat) (s : State) : State :=
  match s.point? id with
  | none => s
  | some x =>
    match x.move with
    | none => s
    | some m =>
      if x.moveTimer.mode = .running then
        inAnyOrder [routesOnMoveFailed id m.target, permOn (.point id), flanksOn id]
          (emit (.moveFailed id m.target)
            (s.mapPoint id (fun y => PointRec.derive (param 6 s)
              { y with faulted := true, move := none, moveTimer := .off })))
      else s

/-- The watch timer of a signal expires (R102): FAULTED unless it is already, UNAUTHORIZED_PROCEED, the withdrawals
over the protected section, and then the FAULTED flag handed on. -/
def watchExpired (id : Nat) (s : State) : State :=
  match s.signal? id with
  | none => s
  | some x =>
    if x.watch.mode = .running then
      signalChanged x
        (withdrawOver id x.protSec
          (emit (.unauthorizedProceed id x.protSec)
            (s.mapSignal id (fun y =>
              SignalRec.derive (param 7 s) { y with faulted := true, watch := ⟨.expired, 0⟩ }))))
    else s

/-! ## Move calls (R9, R10, R12) -/

/-- Issue a move call to a point whose conditions hold: a new move, a restart toward the other position, or nothing
for a target already in flight (R9, R12). -/
def issueCall (id : Nat) (target : Pos) (s : State) : State :=
  match s.point? id with
  | none => s
  | some x =>
    if (x.move.map (·.target)) = some target then s
    else emit (.moveCall id target)
      (s.mapPoint id (fun y =>
        { y with move := some { target := target, start := s.dev.time }, moveTimer := Timer.start y.supTime
                 status := .moving, disc := .off }))

/-- What follows a call: a point whose views already report the target completes at once (R9), else its change of
status to MOVING is handed on (R15). -/
def settleCall (id : Nat) (s : State) : State :=
  match s.point? id with
  | none => s
  | some x =>
    match x.move with
    | none => s
    | some m => if x.bothAt m.target then completeMove x m s else handPoint id s

/-- A point that is agreed in a position, or MOVING toward it (R48). -/
def atOrMoving (x : PointRec) (p : Pos) : Bool :=
  x.status == statusOfPos p || (x.move.map (·.target)) == some p

/-- MOVE POINT (R20). -/
def decideMovePoint (id : Nat) (p : Pos) (s : State) : Verdict :=
  match s.point? id with
  | none => .plain .notConfigured id
  | some x =>
    if x.hold ≠ .none ∨ x.claims ≠ [] then .plain .held id
    else if x.block = true then .plain .blocked id
    else if secStatusIs s x.sec .clear = false then .plain .occupied id
    else if x.faulted = true then .plain .faulted id
    else if atOrMoving x p = true then .plain .done 0
    else { out := .done, detail := 0, act := fun t => settleCall id (issueCall id p t) }

/-! ## Blocks, masks and restoration (R17, R18, R19) -/

/-- The id is configured (R1). -/
def configured (s : State) (id : Nat) : Bool :=
  (s.section? id).isSome || (s.point? id).isSome || (s.signal? id).isSome

/-- Set or clear the block of an element (R18). -/
def setBlock (id : Nat) (b : Bool) (s : State) : State :=
  match s.section? id with
  | some x => sectionChanged x (s.mapSection id (fun y => { y with block := b }))
  | none =>
    (s.mapPoint id (fun y => { y with block := b })).mapSignal id (fun y => { y with block := b })

def decideBlock (id : Nat) (b : Bool) (s : State) : Verdict :=
  if configured s id then { out := .done, detail := 0, act := setBlock id b } else .plain .notConfigured 0

/-- Set or clear the inhibit mask of an element (R19); a mask that does not change changes nothing. -/
def setMask (id : Nat) (b : Bool) (s : State) : State :=
  match s.section? id with
  | some x =>
    if x.mask = b then s
    else sectionChanged x
      (s.mapSection id (fun y => SectionRec.derive (param 4 s) (param 5 s) { y with mask := b }))
  | none => match s.point? id with
    | some x =>
      if x.mask = b then s
      else handPoint id (s.mapPoint id (fun y => PointRec.derive (param 6 s) { y with mask := b }))
    | none => match s.signal? id with
      | some x =>
        if x.mask = b then s
        else handSignal id (s.mapSignal id (fun y => SignalRec.derive (param 7 s) { y with mask := b }))
      | none => s

def decideMask (id : Nat) (b : Bool) (s : State) : Verdict :=
  if configured s id then { out := .done, detail := 0, act := setMask id b } else .plain .notConfigured 0

/-- The views of a FAULTED element agree as R17 asks. -/
def restorable (s : State) (id : Nat) : Bool :=
  match s.section? id with
  | some x => x.faulted && x.viewA == .clear && x.viewB == .clear
  | none => match s.point? id with
    | some x => x.faulted && (x.bothAt .normal || x.bothAt .reverse)
    | none => match s.signal? id with
      | some x => x.faulted && x.viewA == .danger && x.viewB == .danger
      | none => false

/-- Clear FAULTED and derive the element again (R17). -/
def restoreElement (id : Nat) (s : State) : State :=
  match s.section? id with
  | some x =>
    sectionChanged x (emit (.elementRestored id)
      (s.mapSection id (fun y => SectionRec.derive (param 4 s) (param 5 s) { y with faulted := false })))
  | none => match s.point? id with
    | some _ =>
      handPoint id (emit (.elementRestored id)
        (s.mapPoint id (fun y => PointRec.derive (param 6 s) { y with faulted := false })))
    | none =>
      handSignal id (emit (.elementRestored id)
        (s.mapSignal id (fun y => SignalRec.derive (param 7 s) { y with faulted := false })))

/-- ELEMENT RESTORE (R17). -/
def decideRestore (id : Nat) (s : State) : Verdict :=
  if !configured s id then .plain .notConfigured 0
  else if restorable s id then { out := .done, detail := 0, act := restoreElement id }
  else .plain .wrongState 0

end Sys2Proof.Machine
end

