-- ==== Sys2Proof/Machine/Routes.lean ====
section
/-!
DEFINITION. The Route Unit on requests and timers: the availability check and the take of SET ROUTE (R46 to R54,
R59, R77 to R79), CANCEL ROUTE (R70, R71, R113), EMERGENCY RELEASE (R115), SET APPROACH SPEED (R117), and the
expiry of the setting, overlap and release timers (R62, R112, R114, R116).
-/

namespace Sys2Proof.Machine

/-- A failed step of the availability check: outcome and detail. -/
abbrev Refused := Option (Status × Nat)

/-- The detail that names a link and slot (R172). -/
def slotDetail (ref : SlotRef) : Nat := ref.link * 256 + ref.idx

/-! ## Steps 2 to 5 (R47 to R49) -/

/-- Step 2 for a route that is not active: its entry signal, then the count of the list (R47). -/
def checkSignal (s : State) (d : RouteDef) : Refused :=
  match s.signal? d.entry with
  | none => some (.held, d.entry)
  | some x =>
    if x.entryOf ≠ none then some (.signalBusy, d.entry)
    else if x.claims ≠ [] then some (.held, d.entry)
    else if x.block = true then some (.blocked, d.entry)
    else if x.faulted = true then some (.faulted, d.entry)
    else if Config.maxActiveRoutes ≤ s.routes.length then some (.listFull, 0)
    else none

/-- Step 3 at one section (R48). -/
def checkSection (s : State) (id : Nat) : Refused :=
  match s.section? id with
  | none => some (.held, id)
  | some x =>
    if x.holder ≠ .none then some (.held, id)
    else if x.block = true then some (.blocked, id)
    else if x.faulted = true then some (.faulted, id)
    else none

/-- Step 4 at one point (R48). -/
def checkPoint (s : State) (q : PointReq) : Refused :=
  match s.point? q.point with
  | none => some (.held, q.point)
  | some x =>
    if x.hold ≠ .none then some (.held, q.point)
    else if x.claims ≠ [] ∧ x.claimPos ≠ some q.pos then some (.held, q.point)
    else if x.faulted = true then some (.faulted, q.point)
    else if atOrMoving x q.pos = true then none
    else if x.block = true then some (.blocked, q.point)
    else if secStatusIs s x.sec .clear = false then some (.occupied, q.point)
    else none

/-- Step 5 (R49). -/
def checkBoundary (s : State) (d : RouteDef) : Refused :=
  match d.exit with
  | .signal _ => none
  | .boundary ref =>
    match s.slot? ref with
    | none => some (.noPermit, slotDetail ref)
    | some x =>
      if x.permit ≠ .heldHere then some (.noPermit, slotDetail ref)
      else if x.block = true then some (.blocked, slotDetail ref)
      else none

/-! ## Step 6: the choice of flank options (R49) -/

/-- The claims that earlier entries of the same request would add to an element. -/
def chosenOn (chosen : List FlankRec) (id : Nat) : Nat :=
  (chosen.filter (fun f => f.opt.element == id)).length

/-- A point movable as step 4 defines it (R48). -/
def movable (s : State) (x : PointRec) : Bool := !x.block && secStatusIs s x.sec .clear

/-- An option is obtainable, the choices for earlier entries counted (R49). -/
def obtainable (s : State) (d : RouteDef) (v : Option Nat) (chosen : List FlankRec) (o : FlankOpt) : Bool :=
  match o with
  | .point id pos =>
    match s.point? id with
    | none => false
    | some x =>
      (match (allPoints d v).find? (fun q => q.point == id) with
        | some q => q.pos == pos
        | none => x.hold == .none)
      && (x.claims.isEmpty || x.claimPos == some pos)
      && chosen.all (fun f => f.opt.element != id || f.opt == o)
      && x.claims.length + chosenOn chosen id < Config.maxClaims
      && !x.faulted
      && (atOrMoving x pos || movable s x)
  | .signal id =>
    match s.signal? id with
    | none => false
    | some x =>
      x.perm.isNone
      && !s.routes.any (fun a => a.state == .permitted && (s.defOf a.id).entry == id)
      && x.claims.length + chosenOn chosen id < Config.maxClaims

/-- The flank entry record of an entry with its chosen option (R77). -/
def flankRecOf (s : State) (f : FlankDef) (o : FlankOpt) : FlankRec :=
  { index := f.index, guard := f.guard, opt := o, standing := true, satisfied := optSatisfied s o }

/-- Choose the first obtainable option of every entry, in order: the records with the option numbers, or the index
of the first entry with none (R49). -/
def chooseFlanks (s : State) (d : RouteDef) (v : Option Nat) :
    List FlankDef → List FlankRec → List Nat → Except Nat (List FlankRec × List Nat)
  | [], chosen, opts => .ok (chosen, opts)
  | f :: rest, chosen, opts =>
    match f.options.findIdx? (obtainable s d v chosen) with
    | none => .error f.index
    | some k =>
      match f.options[k]? with
      | none => .error f.index
      | some o => chooseFlanks s d v rest (chosen ++ [flankRecOf s f o]) (opts ++ [k + 1])

/-! ## The take (R50, R77) -/

/-- One claim added to its set (R77). -/
def addClaim (r : Nat) (f : FlankRec) (s : State) : State :=
  match f.opt with
  | .point id pos =>
    s.mapPoint id (fun x => { x with claims := x.claims ++ [⟨r, f.index⟩], claimPos := some pos })
  | .signal id => s.mapSignal id (fun x => { x with claims := x.claims ++ [⟨r, f.index⟩] })

/-- The holder of a section after the take (R50). -/
def takenHolder (d : RouteDef) (v : Option Nat) (x : SectionRec) : SectionRec :=
  if d.secs.contains x.id then { x with holder := .route d.id }
  else if (overlapSecs d v).contains x.id then { x with holder := .overlap d.id }
  else x

/-- The primary hold of a point after the take (R50). -/
def takenHold (d : RouteDef) (v : Option Nat) (x : PointRec) : PointRec :=
  match d.points.find? (fun q => q.point == x.id) with
  | some q => { x with hold := .route d.id q.pos }
  | none => match (overlapPoints d v).find? (fun q => q.point == x.id) with
    | some q => { x with hold := .overlap d.id q.pos }
    | none => x

/-- The record placed in the Active Route List (R50, R56, R59). T and its flag are 0 and clear while the release timer
has not been started (log 33). -/
def newRecord (d : RouteDef) (v : Option Nat) (flanks : List FlankRec) (opts : List Nat) (p11 : Nat) : ActiveRoute :=
  { id := d.id, variant := v, state := .calling, permittedBefore := false, grantAllowed := true, cursor := 1
    released := d.secs.map (fun _ => false), marks := d.secs.map (fun _ => false), received := false
    gapped := false, transitLost := false
    overlap := if v.isSome then .held else .none, options := opts
    setting := Timer.start p11, overlapTimer := .off, release := .off, releaseT := 0, saturated := false
    exitSlot := match d.exit with
      | .boundary ref => some ref
      | .signal _ => none
    flanks := flanks }

/-- The one take of a SET ROUTE: holders, holds, entry-of, claims and the new record (R50, R55). -/
def takeRoute (d : RouteDef) (v : Option Nat) (flanks : List FlankRec) (opts : List Nat) (s : State) : State :=
  let t : State := { s with
    sections := s.sections.map (takenHolder d v)
    points := s.points.map (takenHold d v) }
  let u := inOrder (flanks.map (addClaim d.id)) (t.mapSignal d.entry (fun x => { x with entryOf := some d.id }))
  { u with routes := u.routes ++ [newRecord d v flanks opts (param 11 s)] }

/-- The points that need a call on entry to CALLING, each once at its first place (R59, R79). -/
def callsFor (s : State) (a : ActiveRoute) : List PointReq :=
  let firsts := (neededPoints s a).foldl
    (fun acc q => if acc.any (fun p => p.point == q.point) then acc else acc ++ [q]) []
  firsts.filter (fun q => match s.point? q.point with
    | some x => !atOrMoving x q.pos
    | none => false)

/-- The signals that a route claims. -/
def claimedBy (flanks : List FlankRec) : List Nat :=
  flanks.filterMap (fun f => match f.opt with
    | .signal id => some id
    | .point _ _ => none)

/-- Entry to CALLING: the take, ROUTE_STATE, the move calls in order, then what follows them, and the proving test
(R50, R58 to R61). All calls are issued before a move that completes at once is completed (log 32). -/
def enterCalling (d : RouteDef) (v : Option Nat) (flanks : List FlankRec) (opts : List Nat) (s : State) : State :=
  let t := takeRoute d v flanks opts s
  let calls := match t.route? d.id with
    | some a => callsFor t a
    | none => []
  testProven d.id
    (inAnyOrder (calls.map (fun q => settleCall q.point) ++ [permOn (.signals (claimedBy flanks))])
      (inOrder (calls.map (fun q => issueCall q.point q.pos))
        (emit (.routeState d.id (.state .calling) .set 0) t)))

/-- The re-request of a locked route (R53). -/
def reRequest (r : Nat) (s : State) : State :=
  permOn (.route r) (s.mapRoute r (fun x => { x with grantAllowed := true }))

/-- Steps 2 to 6 for a configured route that is not active (R47 to R51). -/
def decideNewRoute (d : RouteDef) (v : Option Nat) (s : State) : Verdict :=
  match (checkSignal s d).or (((allSecs d v).findSome? (checkSection s)).or
      (((allPoints d v).findSome? (checkPoint s)).or (checkBoundary s d))) with
  | some (out, detail) => .plain out detail
  | none =>
    match chooseFlanks s d v d.flanks [] [] with
    | .error i => .plain .noFlank i
    | .ok (flanks, opts) => { out := .done, detail := 0, act := enterCalling d v flanks opts }

/-- SET ROUTE (R46 to R54). -/
def decideSetRoute (r v : Nat) (s : State) : Verdict :=
  match s.def? r with
  | none => .plain .notConfigured r
  | some d =>
    if d.variants ≠ [] ∧ d.variants.length ≤ v then .plain .badVariant v
    else match s.route? r with
      | some a =>
        if a.state = .locked ∧ a.grantAllowed = false then
          { out := .done, detail := 0, act := reRequest r }
        else .plain .alreadyActive r
      | none => decideNewRoute d (if d.variants = [] then none else some v) s

/-! ## CANCEL ROUTE, EMERGENCY RELEASE, SET APPROACH SPEED -/

/-- Every approach section is agreed CLEAR (R70). -/
def approachClear (s : State) (d : RouteDef) : Bool := d.approach.all (fun i => secStatusIs s i .clear)

/-- Release at once by CANCEL ROUTE (R71). -/
def releaseAtOnce (a : ActiveRoute) (s : State) : State :=
  removeRoute a .released .cancelled 0 .none (withdrawOnly a .cancelled s)

/-- Entry to APPROACH_HELD (R113). -/
def enterApproachHeld (a : ActiveRoute) (s : State) : State :=
  startRelease a.id
    (emit (.routeState a.id (.state .approachHeld) .cancelled 0)
      ((withdrawOnly a .cancelled s).mapRoute a.id (fun x => { x with state := .approachHeld })))

/-- CANCEL ROUTE (R70). -/
def decideCancel (r : Nat) (s : State) : Verdict :=
  match s.def? r with
  | none => .plain .notConfigured 0
  | some d =>
    match s.route? r with
    | none => .plain .notActive 0
    | some a =>
      match a.state with
      | .calling => { out := .done, detail := 0, act := releaseAtOnce a }
      | .locked =>
        if a.permittedBefore = false ∨ approachClear s d = true then
          { out := .done, detail := 0, act := releaseAtOnce a }
        else { out := .done, detail := 0, act := enterApproachHeld a }
      | .permitted =>
        if approachClear s d = true then { out := .done, detail := 0, act := releaseAtOnce a }
        else { out := .done, detail := 0, act := enterApproachHeld a }
      | .entered => .plain .trainOnRoute 0
      | .approachHeld => .plain .wrongState 0
      | .emergencyTiming => .plain .wrongState 0

/-- Entry to EMERGENCY_TIMING (R115). -/
def enterEmergencyTiming (a : ActiveRoute) (s : State) : State :=
  startRelease a.id
    (emit (.routeState a.id (.state .emergencyTiming) .emergency 0)
      ((withdrawOnly a .emergency s).mapRoute a.id (fun x => { x with state := .emergencyTiming })))

/-- EMERGENCY RELEASE (R115). -/
def decideEmergency (r : Nat) (s : State) : Verdict :=
  match s.def? r with
  | none => .plain .notConfigured 0
  | some _ =>
    match s.route? r with
    | none => .plain .notActive 0
    | some a =>
      match a.state with
      | .locked => { out := .done, detail := 0, act := enterEmergencyTiming a }
      | .permitted => { out := .done, detail := 0, act := enterEmergencyTiming a }
      | .entered => { out := .done, detail := 0, act := enterEmergencyTiming a }
      | .calling => .plain .wrongState 0
      | .approachHeld => .plain .wrongState 0
      | .emergencyTiming => .plain .wrongState 0

/-- The restriction stored for a requested speed, 0 for NONE (R117). -/
def storedSpeed (n : Nat) : Nat := if n = 0 then 0 else min 250 ((n + 4) / 5 * 5)

/-- Store a restriction for a route id; 0 stands for NONE (R117). -/
def setRestriction (r v : Nat) (s : State) : State :=
  { s with speeds := s.speeds.filter (fun p => p.1 != r) ++ (if v = 0 then [] else [(r, v)]) }

/-- SET APPROACH SPEED (R117). -/
def decideApproachSpeed (r n : Nat) (s : State) : Verdict :=
  match s.def? r with
  | none => .plain .notConfigured 0
  | some _ =>
    { out := if storedSpeed n = n then .done else .clamped, detail := storedSpeed n
      act := setRestriction r (storedSpeed n) }

/-! ## Route timers; an expiry is taken only while the timer runs (log 25) -/

/-- The setting timer expires (R62). -/
def settingExpired (r : Nat) (s : State) : State :=
  match s.route? r with
  | none => s
  | some a => if a.setting.mode = .running then abandonRoute .settingTime 0 r s else s

/-- The overlap timer expires (R112). -/
def overlapExpired (r : Nat) (s : State) : State :=
  match s.route? r with
  | none => s
  | some a => if a.overlapTimer.mode = .running ∧ a.overlap = .held then releaseOverlap a s else s

/-- The release timer expires (R114, R116). -/
def releaseExpired (r : Nat) (s : State) : State :=
  match s.route? r with
  | none => s
  | some a =>
    if a.release.mode = .running then
      match a.state with
      | .approachHeld => removeRoute a .released .releaseTimer 0 .none s
      | .emergencyTiming => removeRoute a .released .emergency 0 .emergency s
      | .calling => s
      | .locked => s
      | .permitted => s
      | .entered => s
    else s

/-- Every route timer stopped where it stands, on entry to SAFE_HALT (R73). -/
def freezeRoutes (s : State) : State :=
  { s with routes := s.routes.map (fun a =>
      { a with setting := a.setting.freeze, overlapTimer := a.overlapTimer.freeze, release := a.release.freeze }) }

end Sys2Proof.Machine
end

