-- ==== Sys2Proof/Machine/Handover.lean ====
section
/-!
DEFINITION. The Handover Unit on deliveries, link changes, requests and timers (chapter 9): reconciliation, the
direction permit, outbound and inbound handover, link loss.
-/

namespace Sys2Proof.Machine

/-! ## Permit changes -/

/-- The permit becomes FAULT. Outbound work ends in the same change when it was HELD_HERE (R137, R145); PERMIT_STATE
stands before the SLOT_STATE of the outbound work (log 38). -/
def permitFault (x : Slot) (cause : PermitCause) (f : Slot → Slot) (s : State) : State :=
  let t := setPermit x.ref .fault cause f s
  if x.permit = .heldHere then endOutbound x.ref t else t

/-- FAULT with cause BOTH_HELD; the BOTH_HELD event stands before the PERMIT_STATE (R137, R156). -/
def bothHeldFault (x : Slot) (f : Slot → Slot) (s : State) : State :=
  permitFault x .bothHeld f (emit (.bothHeld x.ref) s)

/-- The permit becomes HELD_HERE, where an offer may begin (R143). -/
def permitHere (x : Slot) (cause : PermitCause) (f : Slot → Slot) (s : State) : State :=
  tryOffer x.ref (setPermit x.ref .heldHere cause f s)

/-- The claiming values (R137). -/
def claiming (p : PubPermit) : Bool :=
  match p with
  | .hold => true
  | .release => true
  | .refuse => true
  | .notHold => false
  | .request => false
  | .yielded => false
  | .fault => false

/-- The results of the comparison of R137. -/
inductive Recon where
  | stands
  | waits
  | becomes (p : Permit)
  | bothHeld
  | noHolder
  deriving DecidableEq, Repr

/-- The table of R137. TAKING and GIVING end at link loss, so no unreconciled slot is in them; they stand
(log 29). -/
def reconcileWith (x : Slot) (p : PubPermit) : Recon :=
  match x.permit with
  | .heldHere => if claiming p then .bothHeld else .stands
  | .heldThere =>
    if claiming p then .stands
    else if p = .notHold then .waits
    else if x.yielded = true ∧ p = .fault then .stands
    else .noHolder
  | .fault => if claiming p then .becomes .heldThere else .stands
  | .unknown =>
    if claiming p then .becomes .heldThere
    else if p = .notHold then (if x.initHere then .becomes .heldHere else .waits)
    else .noHolder
  | .taking => .stands
  | .giving => .stands

/-- A slot becomes reconciled. -/
def Slot.settled (x : Slot) : Slot := { x with reconciled := true, recon := .off }

/-- Compare the permit with the peer's while Reconciled is false (R137). A reconciliation timer that already runs is not
started again (log 39). -/
def reconcile (x : Slot) (p : PubPermit) (s : State) : State :=
  match reconcileWith x p with
  | .stands =>
    let t := s.mapSlot x.ref Slot.settled
    if x.permit = .heldHere then tryOffer x.ref t else t
  | .waits =>
    if x.recon.mode = .running then s
    else s.mapSlot x.ref (fun y => { y with recon := Timer.start (param 12 s) })
  | .becomes .heldHere => permitHere x .reconciled Slot.settled s
  | .becomes q => setPermit x.ref q .reconciled Slot.settled s
  | .bothHeld => bothHeldFault x Slot.settled s
  | .noHolder => permitFault x .noHolder Slot.settled s

/-- A slot in HELD_HERE can give its permit (R139). -/
def canGive (x : Slot) (s : State) : Bool :=
  !x.block && canReceive x.cap && x.outb == .none
    && (match s.section? x.bsec with
        | some b => match b.holder with
          | .route _ => false
          | .overlap _ => false
          | .none => true
          | .entry _ _ => true
        | none => true)
    && !s.routes.any (fun a => a.exitSlot == some x.ref)

/-- The permit of a reconciled slot against the peer's; `prev` is the peer's permit field of the delivery before
(R137 to R140). -/
def permitStep (x : Slot) (prev : Option PubPermit) (p : PubPermit) (s : State) : State :=
  match x.permit with
  | .heldHere =>
    match p with
    | .hold => bothHeldFault x id s
    | .request =>
      if prev = some .request then s
      else if canGive x s then
        setPermit x.ref .giving .requested (fun y => { y with transfer := Timer.start (param 12 s) }) s
      else setPermit x.ref .heldHere .refusing (fun y => { y with refusing := true }) s
    | .notHold | .release | .refuse | .yielded | .fault => s
  | .heldThere =>
    if x.yielded = true ∧ (p = .notHold ∨ p = .yielded) then permitFault x .noHolder id s else s
  | .taking =>
    match p with
    | .release => permitHere x .taken (fun y => { y with transfer := .off }) s
    | .refuse => setPermit x.ref .heldThere .refused (fun y => { y with transfer := .off }) s
    | .hold | .notHold | .request | .yielded | .fault => s
  | .giving =>
    match p with
    | .hold => setPermit x.ref .heldThere .given (fun y => { y with transfer := .off }) s
    | .notHold => permitHere x .notTaken (fun y => { y with transfer := .off }) s
    | .request => s
    | .release | .refuse | .yielded | .fault =>
      permitFault x .noHolder (fun y => { y with transfer := .off }) s
  | .fault => s
  | .unknown => s

/-! ## Outbound and inbound on a delivery (R143 to R148) -/

/-- The peer's inbound field against the outbound state; `prev` is the peer's inbound field of the delivery
before. -/
def outboundStep (x : Slot) (prev : Option PubIn) (i : PubIn) (s : State) : State :=
  match x.outb with
  | .offered =>
    match i with
    | .accept => setOutbound x.ref .accepted .none (fun y => { y with accept := .off }) s
    | .decline =>
      let t := s.mapSlot x.ref (fun y => { y with accept := .off })
      if prev = some .decline then t else emit (.slotOut x.ref .offered .declined) t
    | .none => s
    | .received => s
  | .accepted =>
    match i with
    | .accept => s
    | .received => s
    | .none => setOutbound x.ref .offered .acceptanceLost id s
    | .decline => setOutbound x.ref .offered .acceptanceLost id s
  | .transit => if i = .received then reportReceived x.ref s else s
  | .withdrawing =>
    if i = .none then tryOffer x.ref (setOutbound x.ref .none .withdrawn id s) else s
  | .none => s

/-- An accepted train's offer on a delivery (R147); `iso` says that the slot was isolated and returns to ACCEPTED
(R148; log 21). -/
def acceptedStep (x : Slot) (o : PubOut) (iso : Bool) (s : State) : State :=
  match o with
  | .offer =>
    if iso then emit (.slotIn x.ref .accepted .none) (s.mapSlot x.ref (fun y => { y with inb := .accepted })) else s
  | .transit =>
    let t := s.mapSlot x.ref (fun y => { y with inb := .accepted, transitSeen := true })
    if iso then emit (.slotIn x.ref .accepted .none) t else t
  | .none | .withdraw =>
    if x.transitSeen = false then endInbound x.ref x.bsec .withdrawn s
    else if x.transitEnded = true then
      (if iso then emit (.slotIn x.ref .accepted .none) (s.mapSlot x.ref (fun y => { y with inb := .accepted }))
       else s)
    else emit (.slotIn x.ref .accepted .transitEnded)
      (s.mapSlot x.ref (fun y => { y with inb := .accepted, transitEnded := true }))

/-- The peer's outbound field against the inbound state (R146 to R148). `was` says that the slot was reconciled before
this delivery: an isolated acceptance waits for the first delivery after the one that reconciles (R148). -/
def inboundStep (was : Bool) (x : Slot) (o : PubOut) (s : State) : State :=
  match x.inb with
  | .none => testAcceptance x.ref s
  | .declining =>
    if o = .none ∨ o = .withdraw then
      emit (.slotIn x.ref .none .offerEnded)
        (s.mapSlot x.ref (fun y => { y with inb := .none, transitSeen := false, transitEnded := false }))
    else testAcceptance x.ref s
  | .accepted => acceptedStep x o false s
  | .acceptedIsolated => if was then acceptedStep x o true s else s
  | .receiving => s

/-- A slot with the fields of a delivery stored; a HOLD of the peer ends Yielded, and a delivery without REQUEST ends
Refusing (R136, R139, R140). -/
def Slot.received (x : Slot) (p : PubFields) : Slot :=
  { x with peer := some p, yielded := x.yielded && p.permit != .hold, refusing := x.refusing && p.permit == .request }

/-- One slot's part of a delivery in IN_SERVICE (R136): the permit, then the peer's inbound field, then its outbound
field. -/
def deliverSlot (ref : SlotRef) (p : PubFields) (s : State) : State :=
  match s.slot? ref with
  | none => s
  | some old =>
    let x := old.received p
    let t := s.mapSlot ref (·.received p)
    let u := if x.reconciled then permitStep x (old.peer.map (·.permit)) p.permit t
      else reconcile x p.permit t
    let w := match u.slot? ref with
      | some y => if y.reconciled then outboundStep y (old.peer.map (·.inb)) p.inb u else u
      | none => u
    match w.slot? ref with
    | some y => inboundStep old.reconciled y p.outb w
    | none => w

/-- One slot's part of a delivery in AWAITING_ACCEPTANCE: stored, not acted on (R136). -/
def storeSlot (ref : SlotRef) (p : PubFields) (s : State) : State :=
  s.mapSlot ref (fun x => { x with peer := some p })

/-- A delivery of link `l`: the slots in position order (R128, R136). In SAFE_HALT none is taken (R141). -/
def deliver (l : Nat) (ps : List PubFields) (s : State) : State :=
  match s.dev.state with
  | .inService => inOrder (ps.zipIdx.map (fun q => deliverSlot ⟨l, q.2⟩ q.1)) s
  | .awaiting => inOrder (ps.zipIdx.map (fun q => storeSlot ⟨l, q.2⟩ q.1)) s
  | .loading => s
  | .safeHalt => s

/-! ## Link changes (R137, R141) -/

/-- The slots of a link, in position order. -/
def slotRefs (l : Nat) : List SlotRef := (List.range 8).map (fun i => ⟨l, i⟩)

/-- Entry of a link to UP (R137). -/
def slotsOnUp (l : Nat) (s : State) : State :=
  { s with slots := s.slots.map (fun x => if x.ref.link = l then { x with reconciled := false } else x) }

/-- Permit part of the table of R141. -/
def losePermit (x : Slot) (s : State) : State :=
  match x.permit with
  | .taking => setPermit x.ref .heldThere .linkLoss (fun y => { y with transfer := .off }) s
  | .giving => setPermit x.ref .fault .linkLoss (fun y => { y with transfer := .off }) s
  | .heldHere =>
    if x.refusing then setPermit x.ref .heldHere .linkLoss (fun y => { y with refusing := false }) s else s
  | .heldThere => s
  | .fault => s
  | .unknown => s

/-- Outbound part of the table of R141. -/
def loseOutbound (x : Slot) (s : State) : State :=
  match x.outb with
  | .offered | .accepted | .withdrawing => setOutbound x.ref .none .linkLoss (fun y => { y with accept := .off }) s
  | .transit => s
  | .none => s

/-- Inbound part of the table of R141. -/
def loseInbound (x : Slot) (s : State) : State :=
  match x.inb with
  | .accepted =>
    emit (.slotIn x.ref .acceptedIsolated .linkLoss)
      (s.mapSlot x.ref (fun y => { y with inb := .acceptedIsolated }))
  | .declining =>
    emit (.slotIn x.ref .none .linkLoss)
      (s.mapSlot x.ref (fun y => { y with inb := .none, transitSeen := false, transitEnded := false }))
  | .receiving => s
  | .acceptedIsolated => s
  | .none => s

/-- Link loss at one slot (R141): the permit's event, then the outbound state's with the withdrawal that it brings, then the
inbound state's (log 38). -/
def loseSlot (ref : SlotRef) (s : State) : State :=
  match s.slot? ref with
  | none => s
  | some x =>
    loseInbound x (loseOutbound x (losePermit x
      (s.mapSlot ref (fun y => { y with reconciled := false, recon := .off }))))

/-- Link loss handed to the Handover Unit (R130, R141): its slots in position order (log 31). -/
def slotsOnLoss (l : Nat) (s : State) : State := inOrder ((slotRefs l).map loseSlot) s

/-- Every slot timer stopped where it stands, on entry to SAFE_HALT (R141). -/
def freezeSlots (s : State) : State :=
  { s with slots := s.slots.map (fun x =>
      { x with transfer := x.transfer.freeze, recon := x.recon.freeze, accept := x.accept.freeze
               transit := x.transit.freeze, reserve := x.reserve.freeze }) }

/-! ## Requests (R138, R140, R142, R148) -/

/-- REQUEST PERMIT (R138). -/
def decideRequestPermit (ref : SlotRef) (s : State) : Verdict :=
  match s.slot? ref with
  | none => .plain .notConfigured 0
  | some x =>
    if x.block = true then .plain .blocked 0
    else if x.cap = .inward then .plain .notCapable 0
    else if linkUp s ref.link = false ∨ x.reconciled = false then .plain .wrongState 0
    else if x.permit ≠ .heldThere ∨ x.yielded = true ∨ x.inb ≠ .none then .plain .wrongState 0
    else
      { out := .done, detail := 0
        act := fun t =>
          setPermit ref .taking .requested (fun y => { y with transfer := Timer.start (param 12 t) }) t }

/-- Set or clear the block of a slot; clearing it lets waiting work go on (R142). -/
def setSlotBlock (ref : SlotRef) (b : Bool) (s : State) : State :=
  let t := s.mapSlot ref (fun y => { y with block := b })
  if b then t else tryOffer ref (retest ref t)

/-- BLOCK SLOT and UNBLOCK SLOT (R142). -/
def decideSlotBlock (ref : SlotRef) (b : Bool) (s : State) : Verdict :=
  match s.slot? ref with
  | none => .plain .notConfigured 0
  | some _ => { out := .done, detail := 0, act := setSlotBlock ref b }

/-- RESTORE SLOT; `take` is the mode TAKE (R140). -/
def decideRestoreSlot (ref : SlotRef) (take : Bool) (s : State) : Verdict :=
  match s.slot? ref with
  | none => .plain .notConfigured 0
  | some x =>
    if x.permit ≠ .fault then .plain .wrongState 0
    else if take = false then
      { out := .done, detail := 0
        act := fun t => retest ref
          (setPermit ref .heldThere .yielded (fun y => { y.settled with yielded := true }) t) }
    else if linkUp s ref.link = true ∧ x.peer.map (·.permit) = some .yielded then
      { out := .done, detail := 0, act := permitHere x .restored Slot.settled }
    else .plain .notYielded 0

/-- The peer's last outbound field is NONE or WITHDRAW (R148). -/
def peerGone (x : Slot) : Bool :=
  match x.peer with
  | some p => p.outb == .none || p.outb == .withdraw
  | none => false

/-- RELEASE RESERVATION (R148). -/
def decideReleaseReservation (ref : SlotRef) (s : State) : Verdict :=
  match s.slot? ref with
  | none => .plain .notConfigured 0
  | some x =>
    if (x.inb = .acceptedIsolated ∨ (x.inb = .accepted ∧ peerGone x = true)) ∧ x.reserve.mode ≠ .running then
      { out := .done, detail := 0
        act := fun t => emit (.slotIn ref x.inb .releaseTiming)
          (t.mapSlot ref (fun y => { y with reserve := Timer.start x.relTime })) }
    else .plain .wrongState 0

/-! ## Slot timers (R137 to R139, R143, R144, R148) -/

/-- The reconciliation timer expires before the peer claims (R137). -/
def reconExpired (ref : SlotRef) (s : State) : State :=
  match s.slot? ref with
  | none => s
  | some x => if x.recon.mode = .running then permitFault x .noHolder Slot.settled s else s

/-- The permit transfer timer expires in TAKING or GIVING (R138, R139). -/
def transferExpired (ref : SlotRef) (s : State) : State :=
  match s.slot? ref with
  | none => s
  | some x =>
    if x.transfer.mode = .running then
      match x.permit with
      | .taking => retest ref (setPermit ref .heldThere .timeout (fun y => { y with transfer := .off }) s)
      | .giving => permitFault x .timeout (fun y => { y with transfer := .off }) s
      | .heldHere => s
      | .heldThere => s
      | .fault => s
      | .unknown => s
    else s

/-- The acceptance timer expires; in OFFERED that is NO_ANSWER (R143). -/
def acceptExpired (ref : SlotRef) (s : State) : State :=
  match s.slot? ref with
  | none => s
  | some x =>
    if x.accept.mode = .running then
      let t := s.mapSlot ref (fun y => { y with accept := .off })
      if x.outb = .offered then emit (.slotOut ref .offered .noAnswer) t else t
    else s

/-- The transit supervision timer expires: TRANSIT_OVERDUE, and nothing changes (R144). -/
def transitExpired (ref : SlotRef) (s : State) : State :=
  match s.slot? ref with
  | none => s
  | some x =>
    if x.transit.mode = .running then
      let t := s.mapSlot ref (fun y => { y with transit := .off })
      match s.routes.find? (fun a => a.exitSlot == some ref) with
      | some a => emit (.transitOverdue ref a.id) t
      | none => t
    else s

/-- The reservation release timer expires (R148). -/
def reserveExpired (ref : SlotRef) (s : State) : State :=
  match s.slot? ref with
  | none => s
  | some x =>
    if x.reserve.mode = .running ∧ (x.inb = .accepted ∨ x.inb = .acceptedIsolated) then
      endInbound ref x.bsec .reservationReleased s
    else s

end Sys2Proof.Machine
end

