-- ==== Sys2Proof/Machine/Links.lean ====
section
/-!
DEFINITION. The Boundary Link Controllers (chapter 8): changes of state, what a link sends, the classes of received
frames, training, the cyclic exchange, supervision, the loopback test, and halt.
-/

namespace Sys2Proof.Machine

/-! ## Sending -/

/-- A frame put on the transmit line of a link (log 18). -/
def send (l : Nat) (f : LinkFrame) (s : State) : State := { s with tx := s.tx ++ [⟨l, f⟩] }

/-- Area id of the peer of a configured link (R121). -/
def peerArea (x : Link) : Nat :=
  match x.conf with
  | some d => d.peer
  | none => 0

/-- The TRAIN frame of a link with the given flags (R124, R125, R131, R132). -/
def sendTrain (l : Nat) (heard loopback : Bool) (s : State) : State :=
  match s.link? l with
  | none => s
  | some x =>
    send l (.train { sender := s.dev.area, receiver := peerArea x, offer := x.offer
                     heard := heard, loopback := loopback }) s

/-- The published fields of a slot position at this moment (R127). -/
def fieldsOf (s : State) (ref : SlotRef) : PubFields :=
  match s.slot? ref with
  | some x => published x
  | none => unpublished

/-- Send a CYCLIC and increase the send counter, from 255 back to 0 (R127). -/
def sendCyclic (l : Nat) (s : State) : State :=
  match s.link? l with
  | none => s
  | some x =>
    (send l (.cyclic s.dev.area (peerArea x) x.sendCounter ((slotRefs l).map (fieldsOf s))) s).mapLink l
      (fun y => { y with sendCounter := y.sendCounter + 1 })

/-- The adopted period, which every link in UP or LOOPBACK has (R126). -/
def periodOf (x : Link) : Nat :=
  match x.period with
  | some p => p
  | none => x.offer

/-- The supervision time S × P (R126 to R128). -/
def superviseTime (x : Link) (s : State) : Nat := param 14 s * periodOf x

/-! ## Changes of state (R124 to R127, R130) -/

/-- A change of a link's state with its LINK_STATE; `f` sets the other fields. -/
def setLink (l : Nat) (st : LinkState) (cause : LinkCause) (f : Link → Link) (s : State) : State :=
  emit (.linkState l st cause) (s.mapLink l (fun x => { f x with state := st, cause := cause }))

/-- Hand a change of state to the Handover Unit: link loss is the leaving of UP into any state but LOOPBACK
(R130). -/
def handLink (l : Nat) (was : LinkState) (s : State) : State := if was = .up then slotsOnLoss l s else s

/-- What every entry to DOWN or TRAINING does to the record (R125; the test record beside its role: log 47). -/
def Link.restart (x : Link) : Link :=
  { x with supervision := .off, answer := .off, echo := .off, period := none, test := .idle }

/-- Entry to DOWN (R124 to R126): the own offer is taken from P13, and TRAIN frames begin with HEARD clear. -/
def enterDown (x : Link) (cause : LinkCause) (s : State) : State :=
  sendTrain x.id false false
    (handLink x.id x.state
      (setLink x.id .down cause
        (fun y => { y.restart with offer := param 13 s, trainCount := 0, lastTrain := none, sentHeard := false
                                   training := .off, sendTimer := Timer.start Config.trainInterval }) s))

/-- Entry to TRAINING with the given last TRAIN (R125, R126): a TRAIN with HEARD is sent on entry. From UP or LOOPBACK
the own offer is taken afresh. With no frame given the link has no last TRAIN and a count of 0 (log 36). -/
def enterTraining (x : Link) (cause : LinkCause) (last : Option TrainContent) (s : State) : State :=
  sendTrain x.id true false
    (handLink x.id x.state
      (setLink x.id .training cause
        (fun y => { y.restart with
          offer := if x.state = .down then y.offer else param 13 s
          trainCount := if last.isSome then 1 else 0
          lastTrain := last, sentHeard := true
          training := Timer.start Config.trainingTime
          sendTimer := Timer.start Config.trainInterval }) s))

/-- The adopted period on entry to UP: the larger of the two offers (R126). -/
def adopted (x : Link) : Nat :=
  match x.lastTrain with
  | some c => max x.offer c.offer
  | none => x.offer

/-- Entry to UP (R127): counters reset, supervision started, a CYCLIC sent at once; then the Handover Unit is handed
the entry (R130, R137). -/
def enterUp (x : Link) (s : State) : State :=
  slotsOnUp x.id
    (sendCyclic x.id
      (setLink x.id .up .trained
        (fun y => { y with period := some (adopted x), sendCounter := 0, lastCounter := none, training := .off
                           sendTimer := Timer.start (adopted x)
                           supervision := Timer.start (param 14 s * adopted x) }) s))

/-! ## The loopback test (R131 to R133) -/

/-- The test as master ends: its result is stored and queued, and the link enters TRAINING (R133). -/
def endTest (x : Link) (r : TestResult) (cause : LinkCause) (last : Option TrainContent) (s : State) : State :=
  let o : TestOutcome := match r with
    | .refused => { result := .refused, sent := 0, matched := 0 }
    | .complete => { result := .complete, sent := x.test.sent, matched := x.test.matched }
    | .incomplete => { result := .incomplete, sent := x.test.sent, matched := x.test.matched }
  enterTraining x cause last
    (emit (.linkTestResult x.id o) (s.mapLink x.id (fun y => { y with lastResult := some o })))

/-- Send the LOOP frame of the next index (R133): the send timer runs while further indexes remain. -/
def sendLoop (x : Link) (s : State) : State :=
  (send x.id (.loop (BitVec.ofNat 8 x.test.sent) x.test.pattern) s).mapLink x.id
    (fun y => { y with
      test := { y.test with sent := x.test.sent + 1 }
      sendTimer := if x.test.sent + 1 < x.test.count then Timer.start (periodOf x) else .off })

/-- The peer's consent in ASKING: phase RUNNING (R131, R133). -/
def startRunning (x : Link) (s : State) : State :=
  sendLoop x (s.mapLink x.id (fun y =>
    { y with test := { y.test with phase := .running }, answer := .off, echo := Timer.start (superviseTime x s) }))

/-- A valid LOOP frame in RUNNING (R133). -/
def takeEcho (x : Link) (index : Nat) (pattern : List Byte) (s : State) : State :=
  let echo := Timer.start (superviseTime x s)
  if index < x.test.sent ∧ x.test.echoed.contains index = false then
    let t : TestRec := { x.test with
      echoes := x.test.echoes + 1
      matched := if pattern = x.test.pattern then x.test.matched + 1 else x.test.matched
      echoed := x.test.echoed ++ [index] }
    let u := s.mapLink x.id (fun y => { y with test := t, echo := echo })
    if t.echoes = t.count then endTest { x with test := t, echo := echo } .complete .testEnd none u else u
  else s.mapLink x.id (fun y => { y with echo := echo })

/-- Every configured slot of a link is idle (R131). -/
def slotsIdle (s : State) (l : Nat) : Bool := (s.slots.filter (fun x => x.ref.link == l)).all Slot.idle

/-- The answer of a slave: a TRAIN with LOOPBACK and HEARD, and the echo timer started (R132). -/
def answerTest (x : Link) (s : State) : State :=
  (sendTrain x.id true true s).mapLink x.id (fun y => { y with echo := Timer.start (superviseTime x s) })

/-- The request of a peer in UP: consent as slave, or refusal (R132). The fields of a slave's test record beside its role are
log 47's. -/
def testAsked (x : Link) (s : State) : State :=
  if s.dev.state = .inService ∧ slotsIdle s x.id = true then
    answerTest x (setLink x.id .loopback .peerTest
      (fun y => { y with supervision := .off, sendTimer := .off, test := { TestRec.idle with role := .slave } }) s)
  else enterTraining x .testRefused none s

/-- The first configured slot of a link, in position order, that is not idle (R131); R131 does not say which of several the
outcome names (log 14). -/
def busySlot (s : State) (l : Nat) : Option SlotRef :=
  (slotRefs l).find? (fun ref => match s.slot? ref with
    | some x => !x.idle
    | none => false)

/-- Entry to LOOPBACK as master (R131). -/
def startTest (l : Nat) (pattern : List Byte) (count : Nat) (s : State) : State :=
  match s.link? l with
  | none => s
  | some x =>
    sendTrain l false true
      (setLink l .loopback .test
        (fun y => { y with
          supervision := .off
          test := { TestRec.idle with role := .master, phase := .asking, pattern := pattern, count := count }
          sendTimer := Timer.start (periodOf x), answer := Timer.start (superviseTime x s) }) s)

/-- LINK TEST (R131). -/
def decideLinkTest (l : Nat) (pattern : List Byte) (count : Nat) (s : State) : Verdict :=
  match s.link? l with
  | none => .plain .notConfigured l
  | some x =>
    if x.conf.isNone then .plain .notConfigured l
    else if count = 0 then .plain .badValue 0
    else if x.state ≠ .up then .plain .wrongState l
    else match busySlot s l with
      | some ref => .plain .wrongState (slotDetail ref)
      | none => { out := .done, detail := 0, act := startTest l pattern count }

/-! ## Received frames (R123 to R133) -/

/-- A link record in TRAINING after a valid TRAIN (R125). -/
def Link.trained (x : Link) (c : TrainContent) : Link :=
  { x with
    lastTrain := some c
    trainCount := if x.lastTrain = some c then min 2 (x.trainCount + 1) else 1
    training := Timer.start Config.trainingTime }

/-- A valid TRAIN with LOOPBACK clear in TRAINING (R125). -/
def trainInTraining (x : Link) (c : TrainContent) (s : State) : State :=
  let y := x.trained c
  let t := s.mapLink x.id (·.trained c)
  if y.trainCount = 2 ∧ c.heard = true ∧ y.sentHeard = true then enterUp y t else t

/-- An accepted CYCLIC in UP: supervision started again, and one delivery to the Handover Unit (R128). -/
def acceptCyclic (x : Link) (counter : Byte) (ps : List PubFields) (s : State) : State :=
  deliver x.id ps
    (s.mapLink x.id (fun y =>
      { y with lastCounter := some counter, supervision := Timer.start (superviseTime x s) }))

/-- A valid CYCLIC in TRAINING (R125): it completes the training where its two conditions hold. -/
def cyclicInTraining (x : Link) (counter : Byte) (ps : List PubFields) (s : State) : State :=
  let heard := match x.lastTrain with
    | some c => c.heard
    | none => false
  if heard && x.sentHeard then
    let t := enterUp x s
    match t.link? x.id with
    | some y => acceptCyclic y counter ps t
    | none => t
  else s

/-- A valid TRAIN, by the state of the link (R124, R125, R128, R131 to R133). A master in RUNNING discards one with
LOOPBACK set (log 37). -/
def takeTrain (x : Link) (c : TrainContent) (s : State) : State :=
  match x.state with
  | .disabled => s
  | .down => if c.loopback then s else enterTraining x .peerHeard (some c) s
  | .training => if c.loopback then s else trainInTraining x c s
  | .up =>
    if c.loopback then (if c.heard then s else testAsked x s)
    else enterTraining x .peerRestart (some c) s
  | .loopback =>
    match x.test.role with
    | .slave => if c.loopback then answerTest x s else enterTraining x .testEnd (some c) s
    | .master =>
      match x.test.phase with
      | .asking =>
        if c.loopback then (if c.heard then startRunning x s else endTest x .refused .testEnd none s)
        else endTest x .refused .testEnd (some c) s
      | .running => if c.loopback then s else endTest x .incomplete .testEnd (some c) s
      | .none => s
    | .none => s

/-- A valid CYCLIC, by the state of the link. In LOOPBACK it is discarded, by a master in RUNNING too (log 37). -/
def takeCyclic (x : Link) (counter : Byte) (ps : List PubFields) (s : State) : State :=
  match x.state with
  | .disabled => s
  | .down => s
  | .training => cyclicInTraining x counter ps s
  | .up => if x.lastCounter = some counter then s else acceptCyclic x counter ps s
  | .loopback => s

/-- A valid LOOP, by the state of the link. -/
def takeLoop (x : Link) (index : Byte) (pattern : List Byte) (s : State) : State :=
  match x.state with
  | .disabled => s
  | .down => s
  | .training => s
  | .up => s
  | .loopback =>
    match x.test.role with
    | .slave =>
      (send x.id (.loop index pattern) s).mapLink x.id
        (fun y => { y with echo := Timer.start (superviseTime x s) })
    | .master =>
      match x.test.phase with
      | .running => takeEcho x index.toNat pattern s
      | .asking => s
      | .none => s
    | .none => s

/-- In DOWN and TRAINING a bad or mismatched frame sets the training count to 0 and, in TRAINING, clears the last TRAIN
(R123, R125). -/
def Link.forgetTrain (x : Link) : Link :=
  match x.state with
  | .down => { x with trainCount := 0 }
  | .training => { x with trainCount := 0, lastTrain := none }
  | .disabled => x
  | .up => x
  | .loopback => x

/-- A link record after a bad frame (R121, R123). -/
def Link.countBad (x : Link) : Link :=
  { x with badTotal := min 65535 (x.badTotal + 1), badRun := min 4 (x.badRun + 1) }.forgetTrain

/-- A bad frame (R123); the fourth in a run ends UP and LOOPBACK with cause ERRORS (R129, R131, R133). -/
def badFrame (x : Link) (s : State) : State :=
  let y := x.countBad
  let t := s.mapLink x.id Link.countBad
  if y.badRun < 4 then t
  else match y.state with
    | .up => enterDown y .errors t
    | .loopback =>
      if y.test.role = .master then endTest y .incomplete .errors none t else enterTraining y .errors none t
    | .disabled => t
    | .down => t
    | .training => t

/-- The areas a frame carries; a LOOP carries none (R123). -/
def areasOf : LinkFrame → Option (Nat × Nat)
  | .train c => some (c.sender, c.receiver)
  | .cyclic a b _ _ => some (a, b)
  | .loop _ _ => none

/-- A mismatched frame (R123). -/
def mismatchedFrame (x : Link) (a b : Nat) (s : State) : State :=
  let t := s.mapLink x.id (fun y => { { y with badRun := 0 }.forgetTrain with mismatch := true })
  if x.mismatch then t else emit (.linkMismatch x.id a b) t

/-- A link record after a valid frame (R123). -/
def Link.countValid (x : Link) : Link := { x with badRun := 0, mismatch := false }

/-- A valid frame taken by the link's state (R123). -/
def validFrame (x : Link) (f : LinkFrame) (s : State) : State :=
  let y := x.countValid
  let t := s.mapLink x.id Link.countValid
  match f with
  | .train c => takeTrain y c t
  | .cyclic _ _ k ps => takeCyclic y k ps t
  | .loop i p => takeLoop y i p t

/-- A frame of a known kind whose CRC checks: the areas decide between Mismatched and Valid (R123). -/
def knownFrame (x : Link) (f : LinkFrame) (s : State) : State :=
  match areasOf f with
  | some (a, b) => if a = peerArea x ∧ b = s.dev.area then validFrame x f s else mismatchedFrame x a b s
  | none => validFrame x f s

/-- A link that takes the frames on its line: configured, not DISABLED, not halted (R122, R123, R134). -/
def Link.listens (x : Link) : Bool := x.conf.isSome && x.state != .disabled && !x.halted

/-- Everything that arrives on the line of a link (R123). -/
def takeRun (l : Nat) (c : RunClass) (s : State) : State :=
  match s.link? l with
  | none => s
  | some x =>
    if x.listens then
      match c with
      | .bad => badFrame x s
      | .unknown => s.mapLink l (fun y => { y with badRun := 0 })
      | .known f => knownFrame x f s
    else s

/-! ## Link timers; an expiry is taken only while the timer runs (log 25) -/

/-- The send timer expires (R124, R125, R127, R131, R133). -/
def linkSendExpired (l : Nat) (s : State) : State :=
  match s.link? l with
  | none => s
  | some x =>
    if x.sendTimer.mode = .running then
      match x.state with
      | .disabled => s
      | .down =>
        sendTrain l false false (s.mapLink l (fun y => { y with sendTimer := Timer.start Config.trainInterval }))
      | .training =>
        sendTrain l true false
          (s.mapLink l (fun y => { y with sentHeard := true, sendTimer := Timer.start Config.trainInterval }))
      | .up => sendCyclic l (s.mapLink l (fun y => { y with sendTimer := Timer.start (periodOf x) }))
      | .loopback =>
        match x.test.phase with
        | .asking => sendTrain l false true (s.mapLink l (fun y => { y with sendTimer := .off }))
        | .running => if x.test.sent < x.test.count then sendLoop x s else s
        | .none => s
    else s

/-- The training timer expires (R125). -/
def trainingExpired (l : Nat) (s : State) : State :=
  match s.link? l with
  | none => s
  | some x => if x.training.mode = .running ∧ x.state = .training then enterDown x .trainingTimeout s else s

/-- The supervision timer expires (R129). -/
def supervisionExpired (l : Nat) (s : State) : State :=
  match s.link? l with
  | none => s
  | some x => if x.supervision.mode = .running ∧ x.state = .up then enterDown x .timeout s else s

/-- The answer timer expires in ASKING (R131). -/
def answerExpired (l : Nat) (s : State) : State :=
  match s.link? l with
  | none => s
  | some x =>
    if x.answer.mode = .running ∧ x.state = .loopback then endTest x .incomplete .testEnd none s else s

/-- The echo timer expires: of the master in RUNNING, or of the slave (R132, R133). -/
def echoExpired (l : Nat) (s : State) : State :=
  match s.link? l with
  | none => s
  | some x =>
    if x.echo.mode = .running ∧ x.state = .loopback then
      (if x.test.role = .master then endTest x .incomplete .testEnd none s else enterTraining x .testEnd none s)
    else s

/-! ## Start, reset and halt (R122, R134) -/

/-- A configured link on entry to AWAITING_ACCEPTANCE from LOADING (R122). -/
def startLink (l : Nat) (s : State) : State :=
  match s.link? l with
  | none => s
  | some x => if x.conf.isSome then enterDown x .start s else s

/-- A link record as DEVICE RESET leaves it, before a configured link enters DOWN (R121). -/
def Link.restarted (x : Link) : Link := { Link.initial x.id x.conf with cause := .reset }

/-- A link on the carrying out of DEVICE RESET (R121, R134): no event. -/
def resetLink (l : Nat) (s : State) : State :=
  match s.link? l with
  | none => s
  | some x =>
    if x.conf.isSome then
      sendTrain l false false
        (s.mapLink l (fun y => { y.restarted with
          state := .down, offer := param 13 s, sendTimer := Timer.start Config.trainInterval }))
    else s.mapLink l Link.restarted

/-- A configured link on entry to SAFE_HALT (R134). -/
def haltLink (l : Nat) (s : State) : State :=
  match s.link? l with
  | none => s
  | some x =>
    if x.conf.isSome then
      let o : TestOutcome := { result := .incomplete, sent := x.test.sent, matched := x.test.matched }
      let t := if x.state = .loopback ∧ x.test.role = .master then
        emit (.linkTestResult l o) (s.mapLink l (fun y => { y with lastResult := some o })) else s
      handLink l x.state
        (setLink l .down .halt
          (fun y => { y.restart with offer := param 13 s, trainCount := 0, lastTrain := none, sentHeard := false
                                     training := .off, sendTimer := .off, halted := true }) t)
    else s

end Sys2Proof.Machine
end

