-- ==== Sys2Proof/Machine/Channels.lean ====
section
/-!
DEFINITION. The Concurrence Unit's watch over the channels (R29 to R39): first frames, supervision, pause and
resume, loss, channel reset, and the windows and withdrawals of half-requests.
-/

namespace Sys2Proof.Machine

/-! ## Half-requests (R25, R29 to R32) -/

/-- REQUEST_DONE (t, WITHDRAWN) of an entry (R31, R32). -/
def withdrawnEvent (h : HalfRequest) : Event := .requestDone h.tag h.kind .withdrawn 0

/-- Every entry withdrawn with its event to both queues, oldest first (R31, R32). -/
def withdrawTable (s : State) : State :=
  { emitAll (s.table.map withdrawnEvent) s with table := [] }

/-- Every entry withdrawn with its event to one queue, oldest first (R31, R39). -/
def withdrawTableTo (ch : Channel) (s : State) : State :=
  { s.table.foldl (fun t h => emitTo ch (withdrawnEvent h) t) s with table := [] }

/-- The windows of the entries that await a channel, changed by `f` (R30). -/
def mapAwaiting (ch : Channel) (f : Timer → Timer) (s : State) : State :=
  { s with table := s.table.map (fun h => if h.filler = ch.other then { h with window := f h.window } else h) }

/-- The window of the entry of a tag expires (R29). -/
def windowExpired (tag : Byte) (s : State) : State :=
  match s.table.find? (fun h => h.tag == tag) with
  | none => s
  | some h =>
    if h.window.mode = .running then
      emit (.requestDone tag h.kind .lapsed 0) { s with table := s.table.filter (fun x => x.tag != tag) }
    else s

/-! ## Changes of a channel's state (R33, R38) -/

/-- Hand a change of a channel's state to the Permission Unit and the Handover Unit (R38). -/
def handChannel (ch : Channel) : List (State → State) := [permOn (.channel ch), retestAll]

/-- A change of a channel's state with its CHANNEL_STATE to both queues. -/
def setChannel (ch : Channel) (st : ChState) (cause : ChCause) (f : ChannelRec → ChannelRec) (s : State) : State :=
  emit (.channelState ch st cause)
    (s.setChan ch { f (s.chan ch) with state := st, cause := some cause })

/-- A valid frame from a channel arrives (R33, R34). -/
def frameArrives (ch : Channel) (s : State) : State :=
  match (s.chan ch).state with
  | .absent =>
    inAnyOrder (handChannel ch)
      (setChannel ch .active .firstFrame (fun c => { c with supervision := Timer.start (param 2 s) }) s)
  | .active => s.setChan ch { s.chan ch with supervision := Timer.start (param 2 s) }
  | .paused => s
  | .lost => s

/-- A channel enters PAUSED (R35). -/
def enterPaused (ch : Channel) (s : State) : State :=
  inAnyOrder (handChannel ch)
    (mapAwaiting ch Timer.suspend
      (setChannel ch .paused .pause
        (fun c => { c with supervision := .off, pauseLimit := Timer.start (param 3 s) }) s))

/-- A channel returns to ACTIVE on RESUME (R36). -/
def leavePaused (ch : Channel) (s : State) : State :=
  inAnyOrder (handChannel ch)
    (mapAwaiting ch Timer.resume
      (setChannel ch .active .resume
        (fun c => { c with pauseLimit := .off, supervision := Timer.start (param 2 s) }) s))

/-- A channel enters LOST (R37): its views UNKNOWN at once, the table withdrawn, CHANNEL_STATE; then the changes are
handed on in no fixed order (R38, R98). -/
def enterLost (ch : Channel) (cause : ChCause) (s : State) : State :=
  inAnyOrder (handChannel ch ++ unknownChanges s)
    (setChannel ch .lost cause (fun c => { c with supervision := .off, pauseLimit := .off })
      (withdrawTable (viewsUnknown ch s)))

/-- A channel's supervision timer expires (R34). -/
def channelSupervisionExpired (ch : Channel) (s : State) : State :=
  if (s.chan ch).state = .active ∧ (s.chan ch).supervision.mode = .running then enterLost ch .supervision s else s

/-- A channel's pause limit timer expires (R36). -/
def pauseLimitExpired (ch : Channel) (s : State) : State :=
  if (s.chan ch).state = .paused ∧ (s.chan ch).pauseLimit.mode = .running then enterLost ch .pauseLimit s else s

/-- CRST_X may be asserted together with that of the other channel: the other line still stands, and since the other reset
neither has device time passed nor has anything been placed in or removed from the other channel's queue (R39; log 42). -/
def resetsMeet (ch : Channel) (s : State) : Bool := (s.chan ch.other).resetMark == some ⟨s.dev.time, s.queue ch.other⟩

/-- Whether two resets that may be together are so: a free choice, drawn only then (R39 against R161; log 42). -/
def chooseTogether (ch : Channel) (s : State) : Bool × State :=
  if resetsMeet ch s then ((s.pick 2).1 == 1, (s.pick 2).2) else (false, s)

/-- What CRST_X clears (R39): X's queue, port and channel record initial, its views UNKNOWN, the table withdrawn; the
events go to the other queue alone, which keeps what it held (R161). A response still being clocked out is abandoned with
the port (R149; log 44). -/
def resetChannel (ch : Channel) (s : State) : State :=
  emitTo ch.other (.channelState ch .absent .channelReset)
    (withdrawTableTo ch.other
      ((((viewsUnknown ch s).setChan ch { ChannelRec.initial true with cause := some .channelReset }).setPort ch
        .initial).setQueue ch .empty))

/-- Channel reset by CRST_X (R39, R161); the changes are then handed on (R38, R98). Where CRST of both channels is asserted
together, both queues are empty after both resets (R39; log 42). What the reset leaves is marked for that. -/
def channelReset (ch : Channel) (s : State) : State :=
  let c := chooseTogether ch s
  let u := resetChannel ch c.2
  let t := inAnyOrder (handChannel ch ++ unknownChanges s) (if c.1 then u.setQueue ch.other .empty else u)
  t.setChan ch { t.chan ch with resetMark := some ⟨t.dev.time, t.queue ch⟩ }

end Sys2Proof.Machine
end

