-- ==== Sys2Proof/Machine/Reads.lean ====
section
/-!
DEFINITION. The bodies of the read requests: the fields of the rule that answers the read, in its order, laid out as
R172 gives (R74, R153, R154, R159; log 12, log 13).
-/

namespace Sys2Proof.Machine

/-! ## Parts -/

/-- A list preceded by its number of items (R172). -/
def countedBytes {α : Type} (f : α → List Byte) (xs : List α) : List Byte := b1 xs.length ++ xs.flatMap f

/-- The state of a timer: 0 stopped, 1 running, 2 suspended or expired (R172). -/
def timerModeCode : TimerMode → Nat
  | .stopped => 0
  | .running => 1
  | .suspended => 2
  | .expired => 2

/-- A timer: its state and its remaining time (R172). -/
def timerBytes (t : Timer) : List Byte := b1 (timerModeCode t.mode) ++ b2 t.left

/-- A holder of a section: NONE, ROUTE, OVERLAP, ENTRY, then its identifiers (R21, R172). -/
def holderBytes : Holder → List Byte
  | .none => b1 0
  | .route r => b1 2 ++ b1 r
  | .overlap r => b1 3 ++ b1 r
  | .entry l i => b1 4 ++ b1 l ++ b1 i

/-- A primary hold of a point (R21, R172). -/
def holdBytes : PointHold → List Byte
  | .none => b1 0
  | .route r p => b1 2 ++ b1 r ++ b1 (posCode p)
  | .overlap r p => b1 3 ++ b1 r ++ b1 (posCode p)

/-- A route that may be none: its presence, then its id (R21, R92, R172); the permission of a signal is
coded as its entry-of (log 48). -/
def optRouteBytes : Option Nat → List Byte
  | none => b1 0
  | some r => b1 2 ++ b1 r

/-- A claim: its kind byte, 1, since R21 and R75 list one kind of claim (log 48), then its route and its flank entry index
(R172). -/
def claimBytes (c : Claim) : List Byte := b1 1 ++ b1 c.route ++ b1 c.entry

def optPosBytes : Option Pos → List Byte
  | none => b1 0
  | some p => b1 (posCode p)

/-! ## READ ELEMENT (R153) -/

/-- Status and fault fields common to the three kinds: FAULTED, block, mask. -/
def flagBytes (faulted block mask : Bool) : List Byte := bFlag faulted ++ bFlag block ++ bFlag mask

/-- A move state: none, or the target and the start time (R9, R172). -/
def moveBytes : Option Move → List Byte
  | none => b1 0 ++ b4 0
  | some m => b1 (posCode m.target) ++ b4 m.start.toNat

def sectionBytes (x : SectionRec) : List Byte :=
  b1 1 ++ b1 (secViewCode x.viewA) ++ b1 (secViewCode x.viewB) ++ b1 (secStatusCode x.status)
    ++ flagBytes x.faulted x.block x.mask ++ timerBytes x.clearance ++ timerBytes x.disc ++ holderBytes x.holder

def pointBytes (x : PointRec) : List Byte :=
  b1 2 ++ b1 (pointViewCode x.viewA) ++ b1 (pointViewCode x.viewB) ++ b1 (pointStatusCode x.status)
    ++ flagBytes x.faulted x.block x.mask ++ timerBytes .off ++ timerBytes x.disc ++ holdBytes x.hold
    ++ countedBytes claimBytes x.claims ++ optPosBytes x.claimPos ++ moveBytes x.move ++ timerBytes x.moveTimer
    ++ b2 x.lastMove

def signalBytes (x : SignalRec) : List Byte :=
  b1 3 ++ b1 (signalViewCode x.viewA) ++ b1 (signalViewCode x.viewB) ++ b1 (signalStatusCode x.status)
    ++ flagBytes x.faulted x.block x.mask ++ timerBytes .off ++ timerBytes x.disc ++ optRouteBytes x.entryOf
    ++ countedBytes claimBytes x.claims ++ optRouteBytes x.perm ++ timerBytes x.watch

/-- READ ELEMENT: the body, or none for an unused id. -/
def readElement (id : Nat) (s : State) : Option (List Byte) :=
  match s.section? id with
  | some x => some (sectionBytes x)
  | none => match s.point? id with
    | some x => some (pointBytes x)
    | none => (s.signal? id).map signalBytes

/-! ## READ ROUTE and READ ROUTES (R74) -/

/-- An overlap variant: NONE 0, then the places of 0 and 1 (R56, R171). -/
def variantCode : Option Nat → Nat
  | none => 0
  | some v => v + 2

/-- A slot that may be none, with a byte that says whether it is there. -/
def optSlotBytes : Option SlotRef → List Byte
  | none => b1 0
  | some ref => b1 1 ++ slotBytes ref

def routeBytes (s : State) (a : ActiveRoute) : List Byte :=
  b1 a.id ++ b1 (variantCode a.variant) ++ b1 (routeStateCode a.state) ++ bFlag a.permittedBefore
    ++ bFlag a.grantAllowed ++ b1 a.cursor ++ countedBytes bFlag a.released ++ countedBytes bFlag a.marks
    ++ bFlag a.received ++ b1 (overlapCode a.overlap) ++ countedBytes b1 a.options ++ optSlotBytes a.exitSlot
    ++ b1 ((restriction s a.id).getD 0) ++ timerBytes a.setting ++ timerBytes a.overlapTimer ++ timerBytes a.release
    ++ b2 a.releaseT ++ bFlag a.saturated

/-- READ ROUTES: every record in list order with its state, preceded by their number. -/
def routesBytes (s : State) : List Byte :=
  countedBytes (fun a : ActiveRoute => b1 a.id ++ b1 (routeStateCode a.state)) s.routes

/-! ## READ SLOT (R135, R153) -/

/-- The peer's published fields, three bytes, all zero where none are held (R171: 0 stands for none; log 13). -/
def optFieldsBytes : Option PubFields → List Byte
  | none => List.replicate 3 0
  | some p => pubBytes p

def slotRecBytes (x : Slot) : List Byte :=
  slotBytes x.ref ++ b2 x.bsec ++ b1 (capCode x.cap) ++ b1 (if x.initHere then 1 else 2) ++ b2 x.relTime
    ++ b1 (permitCode x.permit) ++ bFlag x.reconciled ++ bFlag x.refusing ++ bFlag x.yielded
    ++ b1 (outboundCode x.outb) ++ bFlag x.receivedReported ++ b1 (inboundCode x.inb) ++ bFlag x.transitSeen
    ++ bFlag x.block ++ optFieldsBytes x.peer ++ timerBytes x.transfer ++ timerBytes x.recon ++ timerBytes x.accept
    ++ timerBytes x.transit ++ timerBytes x.reserve ++ pubBytes (published x)

/-! ## READ LINK (R121, R153) -/

def optByteBytes : Option Byte → List Byte
  | none => b1 0 ++ b1 0
  | some b => b1 1 ++ [b]

/-- A period that may be none: 0 stands for none (R171). -/
def optPeriodBytes : Option Nat → List Byte
  | none => b2 0
  | some p => b2 p

/-- A stored TRAIN frame: its eight bytes before the CRC (R172), zeros where none is stored (log 13). -/
def optTrainBytes : Option TrainContent → List Byte
  | none => List.replicate 8 0
  | some c => trainBytes c

/-- The last test result: its result and its two counts, zeros where there is none (log 13). -/
def optOutcomeBytes : Option TestOutcome → List Byte
  | none => List.replicate 3 0
  | some o => b1 (testResultCode o.result) ++ b1 o.sent ++ b1 o.matched

/-- The pattern of a test record, sixteen bytes; zeros where no test has one (R172). -/
def patternBytes (p : List Byte) : List Byte := (p ++ List.replicate 16 0).take 16

def testBytes (t : TestRec) : List Byte :=
  b1 (testRoleCode t.role) ++ b1 (testPhaseCode t.phase) ++ patternBytes t.pattern ++ b1 t.count ++ b1 t.sent
    ++ b1 t.echoes ++ b1 t.matched

def linkBytes (x : Link) : List Byte :=
  b1 (linkStateCode x.state) ++ b1 (linkCauseCode x.cause) ++ bFlag x.halted ++ b2 x.offer ++ b1 x.trainCount
    ++ optTrainBytes x.lastTrain ++ optPeriodBytes x.period ++ [x.sendCounter] ++ optByteBytes x.lastCounter
    ++ b1 x.badRun ++ b2 x.badTotal ++ bFlag x.mismatch ++ testBytes x.test ++ optOutcomeBytes x.lastResult
    ++ timerBytes x.sendTimer ++ timerBytes x.training ++ timerBytes x.supervision ++ timerBytes x.answer
    ++ timerBytes x.echo

/-! ## READ PARAMETERS (R153, R168) -/

/-- A parameter value with the range of its parameter: one byte where the range lies in 0 to 255, else two (R172). -/
def paramValueBytes (range : Nat × Nat) (v : Nat) : List Byte := if range.2 ≤ 255 then b1 v else b2 v

/-- The active and the pending value of each parameter, in parameter order. -/
def paramBytes (s : State) : List Byte :=
  ((s.dev.active.zip s.dev.pendingParams).zip Config.paramRanges).flatMap (fun p =>
    paramValueBytes p.2 p.1.1 ++ paramValueBytes p.2 p.1.2)

/-! ## READ STATUS (R154) -/

def halfBytes (h : HalfRequest) : List Byte :=
  [h.tag] ++ b1 (chCode h.filler) ++ b1 (kindCode h.kind) ++ timerBytes h.window

def channelBytes (c : ChannelRec) : List Byte := b1 (chStateCode c.state) ++ b1 (chCauseCode c.cause)

def queueBytes (q : EventQueue) : List Byte := b1 q.records.length ++ b2 q.lost

/-- The digest, four bytes (R172), zeros where no image has been loaded (log 13). -/
def digestBytes : Option Word → List Byte
  | none => b4 0
  | some d => b4 d.toNat

def statusBytes (s : State) : List Byte :=
  b1 (devStateCode s.dev.state) ++ b4 s.dev.time.toNat ++ b1 (haltCauseCode s.dev.haltCause)
    ++ b1 (failItemCode s.dev.failItem) ++ b2 s.dev.failIndex ++ digestBytes s.dev.digest
    ++ channelBytes s.chanA ++ channelBytes s.chanB ++ countedBytes halfBytes s.table ++ b2 s.disagreements
    ++ b1 s.portA.badFrames ++ b1 s.portB.badFrames ++ queueBytes s.queueA ++ queueBytes s.queueB

/-! ## READ EVENTS (R159, R172) -/

/-- The oldest records that a READ EVENTS takes. -/
def takenRecords (ch : Channel) (n : Nat) (s : State) : List EventRec := (s.queue ch).records.take n

def eventsBody (ch : Channel) (n : Nat) (s : State) : List Byte :=
  b1 (takenRecords ch n s).length ++ b1 ((s.queue ch).records.length - (takenRecords ch n s).length)
    ++ b2 (s.queue ch).lost ++ (takenRecords ch n s).flatMap eventBytes

end Sys2Proof.Machine
end

