-- ==== Sys2Proof/Machine/Image.lean ====
section
/-!
DEFINITION. The configuration image: its layout (R177), the twelve checks (R163) and the filling of the blocks
(R162, R164). Which record a failing check names, and which check takes a code that no rule names, is in log 16.
-/

namespace Sys2Proof.Machine

/-! ## Layout (R177) -/

def byteAt (bs : List Byte) (i : Nat) : Nat :=
  match bs[i]? with
  | some b => b.toNat
  | none => 0

def half (bs : List Byte) (i : Nat) : Nat := byteAt bs i * 256 + byteAt bs (i + 1)

def word (bs : List Byte) (i : Nat) : Nat := half bs i * 65536 + half bs (i + 2)

/-- The header. -/
structure ImgHeader where
  format : Nat
  area : Nat
  elems : Nat
  routes : Nat
  flanks : Nat
  slots : Nat
  links : Nat
  length : Nat
  crc : Nat
  deriving DecidableEq, Repr

def headerOf (bs : List Byte) : ImgHeader :=
  { format := half bs 0, area := half bs 2, elems := half bs 4, routes := half bs 6, flanks := half bs 8
    slots := byteAt bs 10, links := byteAt bs 11, length := word bs 12, crc := word bs 16 }

/-- `n` records of `size` bytes from byte `off`. -/
def records (bs : List Byte) (off size n : Nat) : List (List Byte) :=
  (List.range n).map (fun k => (bs.drop (off + size * k)).take size)

/-- An element descriptor: id, kind, section or protected section, supervision time. -/
structure ImgElem where
  id : Nat
  kind : Nat
  ref : Nat
  time : Nat
  deriving DecidableEq, Repr

def elemOf (b : List Byte) : ImgElem := { id := half b 0, kind := byteAt b 2, ref := half b 3, time := half b 5 }

/-- A point and its position code. -/
abbrev ImgPoint := Nat × Nat

def imgPoints (b : List Byte) (off n : Nat) : List ImgPoint :=
  (List.range n).map (fun k => (half b (off + 3 * k), byteAt b (off + 3 * k + 2)))

def imgIds (b : List Byte) (off n : Nat) : List Nat := (List.range n).map (fun k => half b (off + 2 * k))

/-- An overlap variant with its two counts as they stand in the record. -/
structure ImgVariant where
  nSecs : Nat
  secs : List Nat
  nPoints : Nat
  points : List ImgPoint
  deriving DecidableEq, Repr

def variantOf (b : List Byte) (off : Nat) : ImgVariant :=
  { nSecs := byteAt b off, secs := imgIds b (off + 1) (min 4 (byteAt b off)), nPoints := byteAt b (off + 9)
    points := imgPoints b (off + 10) (min 4 (byteAt b (off + 9))) }

/-- A route record with its counts as they stand in the record. -/
structure ImgRoute where
  id : Nat
  entry : Nat
  exitKind : Nat
  exitId : Nat
  nSecs : Nat
  secs : List Nat
  nPoints : Nat
  points : List ImgPoint
  nVariants : Nat
  variants : List ImgVariant
  nFlanks : Nat
  nApproach : Nat
  approach : List Nat
  length : Nat
  speed : Nat
  brake : Nat
  mode : Nat
  deriving DecidableEq, Repr

def routeOf (b : List Byte) : ImgRoute :=
  { id := byteAt b 0, entry := half b 1, exitKind := byteAt b 3, exitId := half b 4, nSecs := byteAt b 6
    secs := imgIds b 7 (min 16 (byteAt b 6)), nPoints := byteAt b 39, points := imgPoints b 40 (min 16 (byteAt b 39))
    nVariants := byteAt b 88, variants := ([89, 111].take (byteAt b 88)).map (variantOf b)
    nFlanks := byteAt b 133, nApproach := byteAt b 136, approach := imgIds b 137 (min 4 (byteAt b 136))
    length := half b 145, speed := byteAt b 147, brake := byteAt b 148, mode := byteAt b 149 }

/-- The slot of a boundary exit. -/
def ImgRoute.slot (r : ImgRoute) : SlotRef := ⟨r.exitId / 256, r.exitId % 256⟩

/-- A flank option: kind, element id, position code. -/
structure ImgOption where
  kind : Nat
  id : Nat
  pos : Nat
  deriving DecidableEq, Repr

/-- A flank entry with its option count as it stands in the record. -/
structure ImgFlank where
  route : Nat
  index : Nat
  guard : Nat
  nOptions : Nat
  options : List ImgOption
  deriving DecidableEq, Repr

def flankOf (b : List Byte) : ImgFlank :=
  { route := byteAt b 0, index := byteAt b 1, guard := byteAt b 2, nOptions := byteAt b 3
    options := (List.range (min 3 (byteAt b 3))).map (fun k =>
      { kind := byteAt b (4 + 4 * k), id := half b (5 + 4 * k), pos := byteAt b (7 + 4 * k) }) }

structure ImgSlot where
  ref : SlotRef
  bsec : Nat
  cap : Nat
  holder : Nat
  time : Nat
  deriving DecidableEq, Repr

def slotOf (b : List Byte) : ImgSlot :=
  { ref := ⟨byteAt b 0, byteAt b 1⟩, bsec := half b 2, cap := byteAt b 4, holder := byteAt b 5, time := half b 6 }

structure ImgLink where
  id : Nat
  rate : Nat
  peer : Nat
  deriving DecidableEq, Repr

def linkOf (b : List Byte) : ImgLink := { id := byteAt b 0, rate := byteAt b 1, peer := half b 2 }

/-- The parts of an image. -/
structure Image where
  header : ImgHeader
  elems : List ImgElem
  routes : List ImgRoute
  flanks : List ImgFlank
  slots : List ImgSlot
  links : List ImgLink
  rates : List Nat
  params : List Nat
  deriving DecidableEq, Repr

/-- The image length that the counts give (R177). -/
def lengthFor (h : ImgHeader) : Nat :=
  20 + 8 * h.elems + 160 * h.routes + 16 * h.flanks + 8 * h.slots + 4 * h.links + 8 + 32

def imageOf (bs : List Byte) : Image :=
  let h := headerOf bs
  let q := 20 + 8 * h.elems
  let f := q + 160 * h.routes
  let s := f + 16 * h.flanks
  let k := s + 8 * h.slots
  let b := k + 4 * h.links
  { header := h
    elems := (records bs 20 8 h.elems).map elemOf
    routes := (records bs q 160 h.routes).map routeOf
    flanks := (records bs f 16 h.flanks).map flankOf
    slots := (records bs s 8 h.slots).map slotOf
    links := (records bs k 4 h.links).map linkOf
    rates := (List.range 8).map (fun i => byteAt bs (b + i))
    params := (List.range 16).map (fun i => half bs (b + 8 + 2 * i)) }

/-- The digest: CRC-32 over bytes 0 to 15 and bytes 20 to the last (R177). -/
def imageCrc (bs : List Byte) : Word := crc32 (bs.take 16 ++ bs.drop 20)

/-! ## The checks (R163) -/

/-- A failing item with its id or index. -/
abbrev CheckResult := Option (FailItem × Nat)

/-- The first item of a list that fails, named by `name`. -/
def firstBad {α : Type} (ok : α → Bool) (name : α → FailItem × Nat) (xs : List α) : CheckResult :=
  (xs.find? (fun x => !ok x)).map name

/-- No earlier item of the list has the key of the `i`-th. -/
def fresh {α : Type} (key : α → Nat) (xs : List α) (i : Nat) (x : α) : Bool := (xs.take i).all (fun y => key y != key x)

def posCodeOk (n : Nat) : Bool := n == 1 || n == 2

def imgPointsOk (ps : List ImgPoint) : Bool := ps.all (fun p => p.1 < 512 && posCodeOk p.2)

/-- Number of elements of a kind among the first `i + 1`. -/
def kindCount (m : Image) (kind i : Nat) : Nat := ((m.elems.take (i + 1)).filter (fun x => x.kind == kind)).length

def elemRange (m : Image) (q : ImgElem × Nat) : Bool :=
  let x := q.1
  x.id < 512 && 1 ≤ x.kind && x.kind ≤ 3 && (x.kind == 1 || x.ref < 512) && fresh ImgElem.id m.elems q.2 x
    && (x.kind != 2 || kindCount m 2 q.2 ≤ 128) && (x.kind != 3 || kindCount m 3 q.2 ≤ 160)

def exitRange (r : ImgRoute) : Bool :=
  if r.exitKind = 1 then r.exitId < 512 else r.exitKind == 2 && r.slot.link < 4 && r.slot.idx < 8

def routeRange (m : Image) (q : ImgRoute × Nat) : Bool :=
  let r := q.1
  fresh ImgRoute.id m.routes q.2 r && r.entry < 512 && exitRange r && r.secs.all (· < 512) && r.nPoints ≤ 16
    && imgPointsOk r.points && r.variants.all (fun v => v.secs.all (· < 512) && imgPointsOk v.points)
    && r.nFlanks ≤ 12 && r.approach.all (· < 512) && r.brake < 8 && (r.mode == 1 || r.mode == 2)

def optionRange (o : ImgOption) : Bool := o.id < 512 && (o.kind == 2 || (o.kind == 1 && posCodeOk o.pos))

def flankRange (q : ImgFlank × Nat) : Bool := q.2 < 3072 && q.1.options.all optionRange

def slotRange (m : Image) (q : ImgSlot × Nat) : Bool :=
  let x := q.1
  x.ref.link < 4 && x.ref.idx < 8 && fresh (fun y : ImgSlot => y.ref.link * 256 + y.ref.idx) m.slots q.2 x
    && x.bsec < 512 && 1 ≤ x.cap && x.cap ≤ 3 && (x.holder == 1 || x.holder == 2)

def linkRange (m : Image) (q : ImgLink × Nat) : Bool := q.1.id < 4 && fresh ImgLink.id m.links q.2 q.1

/-- The tests of every record of the image, in image order. -/
def perRecord (m : Image) (e : ImgElem × Nat → Bool) (r : ImgRoute × Nat → Bool) (f : ImgFlank × Nat → Bool)
    (s : ImgSlot × Nat → Bool) (l : ImgLink × Nat → Bool) : List Bool :=
  m.elems.zipIdx.map e ++ m.routes.zipIdx.map r ++ m.flanks.zipIdx.map f ++ m.slots.zipIdx.map s
    ++ m.links.zipIdx.map l

/-- The item with the place of the first record that fails. -/
def firstRecord (item : FailItem) (oks : List Bool) : CheckResult :=
  (oks.findIdx? (fun b => !b)).map (fun i => (item, i))

/-- Check 4. -/
def checkRange (m : Image) : CheckResult :=
  firstRecord .idRange (perRecord m (elemRange m) (routeRange m) flankRange (slotRange m) (linkRange m))

/-- The id is configured with the kind code. -/
def isKind (m : Image) (kind id : Nat) : Bool := m.elems.any (fun x => x.id == id && x.kind == kind)

def elemKinds (m : Image) (q : ImgElem × Nat) : Bool := q.1.kind == 1 || isKind m 1 q.1.ref

def variantKinds (m : Image) (v : ImgVariant) : Bool :=
  v.secs.all (isKind m 1) && v.points.all (fun p => isKind m 2 p.1)

def routeKinds (m : Image) (q : ImgRoute × Nat) : Bool :=
  let r := q.1
  isKind m 3 r.entry && (r.exitKind != 1 || isKind m 3 r.exitId) && r.secs.all (isKind m 1)
    && r.points.all (fun p => isKind m 2 p.1) && r.variants.all (variantKinds m) && r.approach.all (isKind m 1)

def flankKinds (m : Image) (q : ImgFlank × Nat) : Bool :=
  q.1.options.all (fun o => isKind m (if o.kind = 1 then 2 else 3) o.id)

/-- Check 5. -/
def checkKind (m : Image) : CheckResult :=
  firstRecord .kind
    (perRecord m (elemKinds m) (routeKinds m) (flankKinds m) (fun q => isKind m 1 q.1.bsec) (fun _ => true))

/-- No value appears twice. -/
def distinct : List Nat → Bool
  | [] => true
  | x :: xs => !xs.contains x && distinct xs

def disjoint (xs ys : List Nat) : Bool := xs.all (fun x => !ys.contains x)

/-- The section of a point, or the protected section of a signal. -/
def refOf (m : Image) (id : Nat) : Nat :=
  match m.elems.find? (fun x => x.id == id) with
  | some x => x.ref
  | none => 512

/-- Points within the given sections, distinct. -/
def pointsWithin (m : Image) (secs : List Nat) (ps : List ImgPoint) : Bool :=
  ps.all (fun p => secs.contains (refOf m p.1)) && distinct (ps.map Prod.fst)

/-- R42. An exit slot that is not configured, or whose link is not, fails here; a last section that is not the slot's
boundary section is left to check 8 (log 41). -/
def pathOk (m : Image) (r : ImgRoute) : Bool :=
  1 ≤ r.nSecs && r.nSecs ≤ 16 && distinct r.secs && r.secs.head? == some (refOf m r.entry)
    && pointsWithin m r.secs r.points
    && (if r.exitKind = 1 then r.exitId != r.entry
        else r.nVariants == 0 && m.slots.any (fun x => x.ref == r.slot) && m.links.any (fun x => x.id == r.slot.link))

/-- R43. -/
def overlapOk (m : Image) (r : ImgRoute) : Bool :=
  r.nVariants ≤ 2 && r.variants.all (fun v =>
    1 ≤ v.nSecs && v.nSecs ≤ 4 && v.nPoints ≤ 4 && distinct v.secs && disjoint v.secs r.secs
      && pointsWithin m v.secs v.points && disjoint (v.points.map Prod.fst) (r.points.map Prod.fst))

/-- R44. -/
def optionsOk (m : Image) (r : ImgRoute) : Bool :=
  (m.flanks.filter (fun f => f.route == r.id)).all (fun f =>
    1 ≤ f.nOptions && f.nOptions ≤ 3 && f.options.all (fun o => o.kind != 2 || o.id != r.entry))

/-- R45. -/
def approachOk (r : ImgRoute) : Bool :=
  1 ≤ r.nApproach && r.nApproach ≤ 4 && distinct r.approach && disjoint r.approach r.secs
    && r.variants.all (fun v => disjoint r.approach v.secs)

/-- Check 6. -/
def checkRoute (m : Image) : CheckResult :=
  firstBad (fun r => pathOk m r && overlapOk m r && optionsOk m r && approachOk r) (fun r => (.route, r.id)) m.routes

def guardOk (m : Image) (q : ImgFlank × Nat) : Bool :=
  let f := q.1
  fresh (fun y : ImgFlank => y.route * 256 + y.index) m.flanks q.2 f
    && (match m.routes.find? (fun r => r.id == f.route) with
        | none => false
        | some r =>
          1 ≤ f.index && f.index ≤ r.nFlanks && (if f.guard = 0 then r.nVariants != 0 else f.guard ≤ r.nSecs))

/-- Check 7. -/
def checkGuard (m : Image) : CheckResult :=
  firstBad (guardOk m) (fun q => (.guard, q.1.route * 256 + q.1.index)) m.flanks.zipIdx

/-- Check 8: the slots in image order, then the routes (log 41). -/
def checkSlot (m : Image) : CheckResult :=
  (firstBad (fun x : ImgSlot => !m.elems.any (fun e => e.kind == 2 && e.ref == x.bsec)
      && m.links.any (fun l => l.id == x.ref.link)) (fun x => (.slot, slotDetail x.ref)) m.slots).or
    (firstBad (fun r : ImgRoute => r.exitKind == 1
      || m.slots.any (fun x => x.ref == r.slot && r.secs.getLast? == some x.bsec))
      (fun r => (.slot, slotDetail r.slot)) m.routes)

/-- Check 9. -/
def checkLink (m : Image) : CheckResult :=
  firstBad (fun l : ImgLink => 1 ≤ l.rate && l.rate ≤ 4 && 1 ≤ l.peer && l.peer ≤ 65534) (fun l => (.link, l.id)) m.links

/-- Check 10: the points, then the slots, as the image has them. -/
def checkTime (m : Image) : CheckResult :=
  (firstBad (fun x : ImgElem => x.kind != 2 || (20 ≤ x.time && x.time ≤ 300)) (fun x => (.time, x.id)) m.elems).or
    (firstBad (fun x : ImgSlot => 50 ≤ x.time && x.time ≤ 3000) (fun x => (.time, slotDetail x.ref)) m.slots)

/-- Check 11: the braking rates, then the routes (log 41). -/
def checkClass (m : Image) : CheckResult :=
  (firstBad (fun q : Nat × Nat => 20 ≤ q.1 && q.1 ≤ 150) (fun q => (.brakeClass, q.2)) m.rates.zipIdx).or
    (firstBad (fun r : ImgRoute => r.length ≤ 4000 && 5 ≤ r.speed && r.speed ≤ 250 && r.speed % 5 == 0)
      (fun r => (.route, r.id)) m.routes)

/-- Check 12. -/
def checkParams (m : Image) : CheckResult :=
  firstBad (fun q : (Nat × (Nat × Nat)) × Nat => q.1.2.1 ≤ q.1.1 && q.1.1 ≤ q.1.2.2) (fun q => (.parameter, q.2 + 1))
    (m.params.zip Config.paramRanges).zipIdx

/-- Checks 3 to 12 on the parts (R163). -/
def checkParts (m : Image) : CheckResult :=
  if m.header.format ≠ 1 ∨ m.header.area < 1 ∨ 65534 < m.header.area ∨ m.header.length ≠ lengthFor m.header then
    some (.header, 0)
  else
    (checkRange m).or ((checkKind m).or ((checkRoute m).or ((checkGuard m).or ((checkSlot m).or
      ((checkLink m).or ((checkTime m).or ((checkClass m).or (checkParams m))))))))

/-- The bytes of the image itself: as many as the header's image length gives, the header at least (R162). -/
def imageBytes (bs : List Byte) : List Byte := bs.take (max 20 (headerOf bs).length)

/-- All twelve checks on the bytes that the memory port yielded (R163). -/
def validate (bs : List Byte) : CheckResult :=
  if bs.length < 20 ∨ bs.length < (headerOf bs).length then some (.memory, 0)
  else if (imageCrc (imageBytes bs)).toNat ≠ (headerOf bs).crc then some (.imageCrc, 0)
  else checkParts (imageOf (imageBytes bs))

/-! ## Filling the blocks (R1, R2, R41, R121, R135) -/

def posOfCode (n : Nat) : Pos := if n = 2 then .reverse else .normal

def reqOf (p : ImgPoint) : PointReq := { point := p.1, pos := posOfCode p.2 }

def optOf (o : ImgOption) : FlankOpt := if o.kind = 1 then .point o.id (posOfCode o.pos) else .signal o.id

def flankDefOf (f : ImgFlank) : FlankDef :=
  { index := f.index, guard := if f.guard = 0 then .overlap else .sec f.guard, options := f.options.map optOf }

/-- The flank entries of a route in index order (R44). -/
def flanksOf (m : Image) (r : Nat) : List FlankDef :=
  (List.range 12).filterMap (fun k =>
    (m.flanks.find? (fun f => f.route == r && f.index == k + 1)).map flankDefOf)

/-- A route record of the store (R41). -/
def routeDefOf (m : Image) (r : ImgRoute) : RouteDef :=
  { id := r.id, entry := r.entry, exit := if r.exitKind = 1 then .signal r.exitId else .boundary r.slot
    secs := r.secs, points := r.points.map reqOf
    variants := r.variants.map (fun v => { secs := v.secs, points := v.points.map reqOf })
    flanks := flanksOf m r.id, approach := r.approach, length := r.length, speed := r.speed, brake := r.brake
    mode := if r.mode = 1 then .sequential else .whole }

/-- A section record after loading (R2). -/
def newSection (id : Nat) : SectionRec :=
  { id := id, viewA := .unknown, viewB := .unknown, status := .occupied, clearance := .off, disc := .off
    faulted := false, block := false, mask := false, holder := .none }

/-- A point record after loading (R2). -/
def newPoint (id sec time : Nat) : PointRec :=
  { id := id, sec := sec, supTime := time, viewA := .unknown, viewB := .unknown, status := .undetected, disc := .off
    move := none, moveTimer := .off, lastMove := 0, faulted := false, block := false, mask := false, hold := .none
    claims := [], claimPos := none }

/-- A signal record after loading (R2, R92). -/
def newSignal (id protSec : Nat) : SignalRec :=
  { id := id, protSec := protSec, viewA := .unknown, viewB := .unknown, status := .unproven, disc := .off
    faulted := false, block := false, mask := false, entryOf := none, claims := [], perm := none, watch := .off }

def capOfCode (n : Nat) : Capability := if n = 1 then .out else if n = 2 then .inward else .both

/-- The live part of a slot record after loading and after DEVICE RESET; the block is kept apart (R135). -/
def Slot.fresh (x : Slot) : Slot :=
  { x with permit := .unknown, reconciled := false, refusing := false, yielded := false, outb := .none
           receivedReported := false, inb := .none, transitSeen := false, transitEnded := false, peer := none
           transfer := .off, recon := .off, accept := .off, transit := .off, reserve := .off }

/-- A slot record after loading (R135). -/
def newSlot (x : ImgSlot) : Slot :=
  { ref := x.ref, bsec := x.bsec, cap := capOfCode x.cap, initHere := x.holder == 1, relTime := x.time
    permit := .unknown, reconciled := false, refusing := false, yielded := false, outb := .none
    receivedReported := false, inb := .none, transitSeen := false, transitEnded := false, block := false, peer := none
    transfer := .off, recon := .off, accept := .off, transit := .off, reserve := .off }

/-- Bit rate of a rate code (R177). -/
def rateOf (n : Nat) : Nat := if n = 1 then 19200 else if n = 2 then 38400 else if n = 3 then 57600 else 115200

/-- A link record after loading, DISABLED until it is started (R121, R122). -/
def newLink (m : Image) (id : Nat) : Link :=
  Link.initial id ((m.links.find? (fun l => l.id == id)).map (fun l => { rate := rateOf l.rate, peer := l.peer }))

/-- Every block filled from the image that `bs` holds (R162, R164). -/
def fillBlocks (bs : List Byte) (s : State) : State :=
  let m := imageOf bs
  { s with
    sections := (m.elems.filter (fun x => x.kind == 1)).map (fun x => newSection x.id)
    points := (m.elems.filter (fun x => x.kind == 2)).map (fun x => newPoint x.id x.ref x.time)
    signals := (m.elems.filter (fun x => x.kind == 3)).map (fun x => newSignal x.id x.ref)
    store := m.routes.map (routeDefOf m)
    slots := m.slots.map newSlot
    links := (List.range 4).map (newLink m)
    dev := { s.dev with copy := bs, digest := some (imageCrc bs), area := m.header.area, brakes := m.rates
                        active := m.params, pendingParams := m.params } }

end Sys2Proof.Machine
end

