-- ==== Sys2Proof/Machine/Device.lean ====
section
/-!
DEFINITION. The Configuration Unit (chapter 11): the end of the image read, acceptance, the periodic image check,
entry to SAFE_HALT, the Parameter Set, DEVICE RESET, DRST, HEALTH and device time.
-/

namespace Sys2Proof.Machine

/-! ## SAFE_HALT (R165, R167) -/

/-- The DEVICE_STATE cause of a halt (R165). -/
def haltEventCause : HaltCause → DevCause
  | .config => .config
  | .imageCheck => .imageCheck

/-- The links halt, in no fixed order between them; then every slot timer is stopped (R130, R134, R141). -/
def haltLinks (s : State) : State := freezeSlots (inAnyOrder ((List.range 4).map haltLink) s)

/-- Entry to SAFE_HALT: DEVICE_STATE, then every unit in an order that is not fixed (R165, R167). The check timer
stops and HEALTH is driven low. -/
def enterSafeHalt (cause : HaltCause) (item : Option FailItem) (index : Nat) (s : State) : State :=
  inAnyOrder [withdrawTable, withdrawAll, freezeRoutes, haltLinks]
    (emit (.deviceState .safeHalt (haltEventCause cause) item)
      { s with dev := { s.dev with state := .safeHalt, haltCause := some cause, failItem := item, failIndex := index
                                   checkTimer := .off, health := false } })

/-! ## Start-up (R162 to R164) -/

/-- Entry to AWAITING_ACCEPTANCE with the blocks filled (R122, R164 to R166). -/
def enterAwaiting (s : State) : State :=
  inOrder ((List.range 4).map startLink)
    (emit (.deviceState .awaiting .loaded none)
      { s with dev := { s.dev with state := .awaiting, checkTimer := Timer.start Config.imageCheckTime } })

/-- The last byte of the image has been read (R162, R163): only in LOADING, with DRST released. -/
def imageRead (bs : List Byte) (s : State) : State :=
  if s.dev.state = .loading ∧ s.dev.drst = false then
    match validate bs with
    | none => enterAwaiting (fillBlocks (imageBytes bs) s)
    | some (item, i) => enterSafeHalt .config (some item) i s
  else s

/-! ## ACCEPT CONFIGURATION and the periodic check (R164, R166) -/

/-- Entry to IN_SERVICE, handed to the units that read the device state (R164, R165). -/
def enterService (s : State) : State :=
  inAnyOrder [permOn .device, retestAll]
    (emit (.deviceState .inService .accepted none) { s with dev := { s.dev with state := .inService } })

/-- ACCEPT CONFIGURATION (R164). -/
def decideAccept (digest : Nat) (s : State) : Verdict :=
  if s.dev.state = .inService then .plain .wrongState 0
  else if (imageCrc s.dev.copy).toNat = digest then { out := .done, detail := 0, act := enterService }
  else .plain .digestMismatch 0

/-- The internal copy still has the digest it was loaded with (R166, R170). -/
def copyIntact (s : State) : Bool := some (imageCrc s.dev.copy) == s.dev.digest

/-- The timer of the periodic image check expires (R166). -/
def imageCheckExpired (s : State) : State :=
  if s.dev.checkTimer.mode = .running ∧ (s.dev.state = .awaiting ∨ s.dev.state = .inService) then
    if copyIntact s then { s with dev := { s.dev with checkTimer := Timer.start Config.imageCheckTime } }
    else enterSafeHalt .imageCheck none 0 s
  else s

/-! ## The Parameter Set (R168, R169) -/

/-- The value written for a requested value of a range (R168). -/
def clampTo (range : Nat × Nat) (v : Nat) : Nat := max range.1 (min range.2 v)

/-- SET PARAMETER (R168). -/
def decideSetParameter (id v : Nat) (_s : State) : Verdict :=
  if id = 0 then .plain .badValue 0
  else match Config.paramRanges[id - 1]? with
    | none => .plain .badValue 0
    | some range =>
      { out := if clampTo range v = v then .done else .clamped
        detail := if clampTo range v = v then 0 else clampTo range v
        act := fun t =>
          { t with dev := { t.dev with pendingParams := t.dev.pendingParams.set (id - 1) (clampTo range v) } } }

/-- Number of parameters whose active value an apply changes (R169). -/
def changedParams (s : State) : Nat :=
  ((s.dev.active.zip s.dev.pendingParams).filter (fun p => p.1 != p.2)).length

/-- APPLY PARAMETERS carried out (R169). -/
def applyParams (s : State) : State :=
  emit (.parametersApplied (changedParams s)) { s with dev := { s.dev with active := s.dev.pendingParams } }

/-! ## DEVICE RESET (R170) -/

/-- A section after DEVICE RESET: block and mask kept (R2). -/
def SectionRec.reset (x : SectionRec) : SectionRec := { newSection x.id with block := x.block, mask := x.mask }

/-- A point after DEVICE RESET (R2). -/
def PointRec.reset (x : PointRec) : PointRec :=
  { newPoint x.id x.sec x.supTime with block := x.block, mask := x.mask }

/-- A signal after DEVICE RESET: its status derived from the UNKNOWN views and the kept mask (R2, R13, R92). -/
def SignalRec.reset (x : SignalRec) : SignalRec :=
  let y := { newSignal x.id x.protSec with block := x.block, mask := x.mask }
  { y with status := y.derivedStatus }

/-- Everything that DEVICE RESET clears, before the links and the recheck (R40, R170). The port of the completing
channel keeps its transfer to the end; the other port's transfer is abandoned, with the response that it still clocks out
(R149; log 44). -/
def resetBlocks (ch : Channel) (s : State) : State :=
  let t : State := { s with
    sections := s.sections.map SectionRec.reset
    points := s.points.map PointRec.reset
    signals := s.signals.map SignalRec.reset
    routes := [], table := [], disagreements := 0
    slots := s.slots.map Slot.fresh
    chanA := .initial s.chanA.crst, chanB := .initial s.chanB.crst
    queueA := .empty, queueB := .empty }
  (t.setPort ch { t.port ch with badFrames := 0, taken := 0, resetOnEnd := true }).setPort ch.other .initial

/-- DEVICE RESET carried out by the half of channel `ch` (R170). Where the recheck fails the links halt in the same
change and send nothing. -/
def deviceReset (ch : Channel) (s : State) : State :=
  let t := inOrder ((List.range 4).map resetLink) (resetBlocks ch s)
  if copyIntact t then
    { t with dev := { t.dev with state := .awaiting, checkTimer := Timer.start Config.imageCheckTime } }
  else enterSafeHalt .imageCheck none 0 { t with tx := s.tx }

/-! ## DRST (R162, R40) -/

/-- DRST asserted: every block as in LOADING. The levels of the other reset lines, the queue of waiting commands, the
frames already sent and the free values are not the block's to reset. -/
def assertDrst (s : State) : State :=
  { State.loading true s.chanA.crst s.chanB.crst with
    tx := s.tx, choices := s.choices, drawn := s.drawn, pending := s.pending }

/-- DRST released: device time starts and the image read begins (R162). -/
def releaseDrst (s : State) : State := { s with dev := { s.dev with drst := false } }

/-! ## HEALTH and device time (R162, R165) -/

/-- The 5 ms change of HEALTH, in AWAITING_ACCEPTANCE and IN_SERVICE alone (R165). -/
def toggleHealth (s : State) : State :=
  if s.dev.state = .awaiting ∨ s.dev.state = .inService then
    { s with dev := { s.dev with health := !s.dev.health } }
  else s

def SectionRec.tick (x : SectionRec) : SectionRec := { x with clearance := x.clearance.pass 1, disc := x.disc.pass 1 }

def PointRec.tick (x : PointRec) : PointRec := { x with disc := x.disc.pass 1, moveTimer := x.moveTimer.pass 1 }

def SignalRec.tick (x : SignalRec) : SignalRec := { x with disc := x.disc.pass 1, watch := x.watch.pass 1 }

def ActiveRoute.tick (x : ActiveRoute) : ActiveRoute :=
  { x with setting := x.setting.pass 1, overlapTimer := x.overlapTimer.pass 1, release := x.release.pass 1 }

def Slot.tick (x : Slot) : Slot :=
  { x with transfer := x.transfer.pass 1, recon := x.recon.pass 1, accept := x.accept.pass 1
           transit := x.transit.pass 1, reserve := x.reserve.pass 1 }

/-- Link timers count in ms: 100 of them in a decisecond. -/
def Link.tick (x : Link) : Link :=
  { x with sendTimer := x.sendTimer.pass Config.msPerDs, training := x.training.pass Config.msPerDs
           supervision := x.supervision.pass Config.msPerDs, answer := x.answer.pass Config.msPerDs
           echo := x.echo.pass Config.msPerDs }

def ChannelRec.tick (c : ChannelRec) : ChannelRec :=
  { c with supervision := c.supervision.pass Config.msPerDs, pauseLimit := c.pauseLimit.pass Config.msPerDs }

def HalfRequest.tick (h : HalfRequest) : HalfRequest := { h with window := h.window.pass Config.msPerDs }

/-- One decisecond of device time passes (00_scope, R162; log 3). While DRST is asserted device time is held at 0. -/
def tick (s : State) : State :=
  if s.dev.drst then s
  else { s with
    dev := { s.dev with time := s.dev.time + 1, checkTimer := s.dev.checkTimer.pass 1 }
    sections := s.sections.map SectionRec.tick
    points := s.points.map PointRec.tick
    signals := s.signals.map SignalRec.tick
    routes := s.routes.map ActiveRoute.tick
    slots := s.slots.map Slot.tick
    links := s.links.map Link.tick
    table := s.table.map HalfRequest.tick
    chanA := s.chanA.tick
    chanB := s.chanB.tick }

end Sys2Proof.Machine
end

