-- ==== Sys2Proof/Machine/Requests.lean ====
section
/-!
DEFINITION. The channel ports and the matching of halves: transfers (R149, log 1), the checks of a frame (R150), the
course of a valid frame (R151), the Concurrence Table (R24 to R28), the owners of the requests (R23), and the reading
of the event queues (R159).
-/

namespace Sys2Proof.Machine

/-! ## The owners of concurred requests (R23, R27) -/

/-- DEVICE RESET as the Configuration Unit decides it (R170): always carried out. -/
def decideDeviceReset (ch : Channel) (_s : State) : Verdict := { out := .done, detail := 0, act := deviceReset ch }

/-- A request handed to its owner by the half of channel `ch` that completed the pair. A body of another length is
refused at the port and never comes here. -/
def decide (ch : Channel) (k : ReqKind) (body : List Byte) (s : State) : Verdict :=
  match k, body with
  | .setRoute, [r, v] => decideSetRoute r.toNat v.toNat s
  | .cancelRoute, [r] => decideCancel r.toNat s
  | .emergencyRelease, [r] => decideEmergency r.toNat s
  | .setApproachSpeed, [r, v] => decideApproachSpeed r.toNat v.toNat s
  | .movePoint, [hi, lo, p] =>
    match posOf p with
    | some q => decideMovePoint (num2 hi lo) q s
    | none => .plain .badValue 0
  | .blockElement, [hi, lo] => decideBlock (num2 hi lo) true s
  | .unblockElement, [hi, lo] => decideBlock (num2 hi lo) false s
  | .inhibitSet, [hi, lo] => decideMask (num2 hi lo) true s
  | .inhibitClear, [hi, lo] => decideMask (num2 hi lo) false s
  | .elementRestore, [hi, lo] => decideRestore (num2 hi lo) s
  | .requestPermit, [l, i] => decideRequestPermit ⟨l.toNat, i.toNat⟩ s
  | .blockSlot, [l, i] => decideSlotBlock ⟨l.toNat, i.toNat⟩ true s
  | .unblockSlot, [l, i] => decideSlotBlock ⟨l.toNat, i.toNat⟩ false s
  | .restoreSlot, [l, i, m] => decideRestoreSlot ⟨l.toNat, i.toNat⟩ (m.toNat == 2) s
  | .releaseReservation, [l, i] => decideReleaseReservation ⟨l.toNat, i.toNat⟩ s
  | .linkTest, l :: rest => decideLinkTest l.toNat (rest.take 16) (byteAt rest 16) s
  | .setParameter, [id, hi, lo] => decideSetParameter id.toNat (num2 hi lo) s
  | .applyParameters, [] => { out := .done, detail := 0, act := applyParams }
  | .acceptConfiguration, [a, b, c, d] => decideAccept (num4 a b c d) s
  | .deviceReset, [] => decideDeviceReset ch s
  | _, _ => .plain .badLength 0

/-! ## Responses -/

/-- Compose the response of the transfer in DECIDE (R149, R172). -/
def respond (ch : Channel) (st : Status) (tag : Byte) (body : List Byte) (s : State) : State :=
  s.setPort ch { s.port ch with response := some { status := st, tag := tag, body := body } }

/-- An answer of an owner of a single request: its status, its body, and the state it leaves. -/
structure Answer where
  status : Status
  body : List Byte
  after : State

/-- A refusal of a single request, or a read that changes nothing. -/
def Answer.plain (st : Status) (body : List Byte) (s : State) : Answer := { status := st, body := body, after := s }

/-! ## The Concurrence Unit (R24 to R28) -/

/-- The device-state test (R24). -/
def passesDevice (k : ReqKind) (s : State) : Bool :=
  match s.dev.state with
  | .inService => true
  | .awaiting => k == .acceptConfiguration || k == .deviceReset
  | .loading => false
  | .safeHalt => false

/-- A new entry of the table; its window is suspended at once if the awaited channel is PAUSED (R25, R30). -/
def newHalf (ch : Channel) (k : ReqKind) (tag : Byte) (body : List Byte) (s : State) : HalfRequest :=
  { tag := tag, filler := ch, kind := k, body := body
    window := if (s.chan ch.other).state = .paused then ⟨.suspended, param 1 s⟩ else Timer.start (param 1 s) }

/-- The entry of a tag removed. -/
def removeHalf (tag : Byte) (s : State) : State := { s with table := s.table.filter (fun x => x.tag != tag) }

/-- A concurred pair: the owner decides once, REQUEST_DONE stands before what the request queues, and the response
carries the outcome (R27). -/
def concur (ch : Channel) (k : ReqKind) (tag : Byte) (body : List Byte) (s : State) : Answer :=
  let t := removeHalf tag s
  let v := decide ch k body t
  { status := .concurred, body := outcomeBytes k v.out v.detail
    after := v.act (emit (.requestDone tag k v.out v.detail) t) }

/-- Two halves that differ (R26, R28). Where their kinds differ, which kind the event names is open (log 15). -/
def disagree (h : HalfRequest) (k : ReqKind) (s : State) : State :=
  let t := removeHalf h.tag { s with disagreements := min 65535 (s.disagreements + 1) }
  if h.kind = k then emit (.requestDone h.tag k .disagree 0) t
  else
    let p := t.pick 2
    emit (.requestDone h.tag (if p.1 = 0 then h.kind else k) .disagree 0) p.2

/-- A half that finds no entry of its tag (R26). -/
def openHalf (ch : Channel) (k : ReqKind) (tag : Byte) (body : List Byte) (s : State) : Answer :=
  if s.operating ch.other = false then .plain .channelLost [] s
  else if Config.maxHalves ≤ s.table.length then .plain .tableFull [] s
  else .plain .halfHeld [] { s with table := s.table ++ [newHalf ch k tag body s] }

/-- A concurred half (R24, R26). -/
def takeHalf (ch : Channel) (k : ReqKind) (tag : Byte) (body : List Byte) (s : State) : Answer :=
  if passesDevice k s = false then .plain .notInService [] s
  else if (s.chan ch).state = .paused then .plain .channelPaused [] s
  else match s.table.find? (fun h => h.tag == tag) with
    | none => openHalf ch k tag body s
    | some h =>
      if h.filler = ch then .plain .tagBusy [] s
      else if h.kind = k ∧ h.body = body then concur ch k tag body s
      else .plain .disagree [] (disagree h k s)

/-! ## Single requests (R4, R35, R36, R74, R153, R154, R159) -/

/-- A read that a unit answers with a body, or refuses. -/
def readAnswer (b : Option (List Byte)) (refusal : Status) (s : State) : Answer :=
  match b with
  | some body => .plain .done body s
  | none => .plain refusal [] s

/-- REPORT FIELD STATUS (R4). -/
def answerReport (ch : Channel) (body : List Byte) (s : State) : Answer :=
  let r := applyItems ch body s 0 0
  .plain .done (b1 r.1 ++ b1 r.2.1) r.2.2

/-- PAUSE (R35). -/
def answerPause (ch : Channel) (s : State) : Answer :=
  match (s.chan ch).state with
  | .paused => .plain .wrongState [] s
  | .active => if (s.chan ch.other).state = .active then .plain .done [] (enterPaused ch s) else .plain .otherPaused [] s
  | .absent => .plain .otherPaused [] s
  | .lost => .plain .channelLost [] s

/-- RESUME (R36). -/
def answerResume (ch : Channel) (s : State) : Answer :=
  match (s.chan ch).state with
  | .paused => .plain .done [] (leavePaused ch s)
  | .active => .plain .wrongState [] s
  | .absent => .plain .wrongState [] s
  | .lost => .plain .channelLost [] s

/-- READ EVENTS (R159): the records taken are noted at the port and removed at the end of the response. -/
def answerEvents (ch : Channel) (n : Nat) (s : State) : Answer :=
  .plain .done (eventsBody ch n s) (s.setPort ch { s.port ch with taken := (takenRecords ch n s).length })

/-- A single request answered by its owner (R151 step 4). -/
def answer (ch : Channel) (k : ReqKind) (body : List Byte) (s : State) : Answer :=
  match k, body with
  | .reportFieldStatus, items => answerReport ch items s
  | .readElement, [hi, lo] => readAnswer (readElement (num2 hi lo) s) .notConfigured s
  | .readRoute, [r] => readAnswer ((s.route? r.toNat).map (routeBytes s)) .notActive s
  | .readRoutes, [] => .plain .done (routesBytes s) s
  | .readSlot, [l, i] => readAnswer ((s.slot? ⟨l.toNat, i.toNat⟩).map slotRecBytes) .notConfigured s
  | .readLink, [l] => readAnswer ((s.link? l.toNat).map linkBytes) .notConfigured s
  | .readParameters, [] => readAnswer (if s.dev.active.isEmpty then none else some (paramBytes s)) .wrongState s
  | .readStatus, [] => .plain .done (statusBytes s) s
  | .readEvents, [n] => answerEvents ch n.toNat s
  | .pause, [] => answerPause ch s
  | .resume, [] => answerResume ch s
  | _, _ => .plain .badLength [] s

/-! ## A frame in DECIDE (R150, R151) -/

/-- A valid frame after the change of channel state it causes (R151). -/
def answerValid (ch : Channel) (k : ReqKind) (tag : Byte) (body : List Byte) (s : State) : Answer :=
  if (s.chan ch).state = .lost then .plain .channelLost [] s
  else if inRange k body = false then .plain .badValue [] s
  else if isConcurred k then takeHalf ch k tag body s
  else answer ch k body s

/-- Send an answer. -/
def reply (ch : Channel) (tag : Byte) (a : Answer) : State := respond ch a.status tag a.body a.after

/-- A frame answered BAD_FRAME, and counted (R150). -/
def badFrameReply (ch : Channel) (tag : Byte) (s : State) : State :=
  respond ch .badFrame tag [] (s.setPort ch { s.port ch with badFrames := min 255 ((s.port ch).badFrames + 1) })

/-- A frame of a known kind whose CRC checks (R150, R151). -/
def decideFrame (ch : Channel) (k : ReqKind) (tag : Byte) (body : List Byte) (s : State) : State :=
  if 200 < body.length then badFrameReply ch tag s
  else if lengthOk k body.length then reply ch tag (answerValid ch k tag body (frameArrives ch s))
  else respond ch .badLength tag [] s

/-! ## Transfers (R149, R152; log 1) -/

/-- The port when select rises: an incomplete request is counted, and a transfer that carried a DEVICE RESET leaves the
port initial (R40, R149). At an idle port no transfer ends: none was begun, or it was abandoned (log 7). -/
def Port.selectRisen (p : Port) : Port :=
  match p.phase with
  | .idle => if p.resetOnEnd then .initial else { Port.initial with badFrames := p.badFrames }
  | .request => { Port.initial with badFrames := min 255 (p.badFrames + 1) }
  | .decide => if p.resetOnEnd then .initial else { Port.initial with badFrames := p.badFrames }
  | .response => if p.resetOnEnd then .initial else { Port.initial with badFrames := p.badFrames }

/-- The port between two transfers: a transfer still open has ended (log 1). -/
def Port.between (p : Port) : Port :=
  match p.phase with
  | .idle => p
  | .request => p.selectRisen
  | .decide => p.selectRisen
  | .response => p.selectRisen

/-- A new transfer with the bytes clocked in so far, in the given phase. -/
def openTransfer (ch : Channel) (ph : Phase) (bytes : List Byte) (s : State) : State :=
  s.setPort ch { (s.port ch).between with
    phase := ph, bytes := bytes, response := none, taken := 0, resetOnEnd := false }

/-- A request command: one whole transfer up to its response (log 1). While CRST of the channel is asserted the port
ignores it (R39, R149). -/
def request (ch : Channel) (k : ReqKind) (tag : Byte) (body : List Byte) (s : State) : State :=
  if (s.chan ch).crst then s
  else decideFrame ch k tag body (openTransfer ch .decide (channelFrame (kindCode k) tag body) s)

/-- A complete frame of raw bytes: the checks of R150 in order. -/
def decideRaw (ch : Channel) (frame : List Byte) (s : State) : State :=
  let len := byteAt frame 0
  let tag := BitVec.ofNat 8 (byteAt frame 2)
  let payload := frame.take (len + 3)
  if 200 < len ∨ half frame (len + 3) ≠ crc16 payload then badFrameReply ch tag s
  else match frame[1]? with
    | none => badFrameReply ch tag s
    | some b => match kindOfByte b with
      | none => respond ch .unknownKind tag [] s
      | some k => decideFrame ch k tag (payload.drop 3) s

/-- Raw bytes clocked in by a channel: the length byte fixes where the frame ends, and bytes after the end are ignored
(R149, R173). A frame that is not complete stays in REQUEST. -/
def rawFrame (ch : Channel) (bytes : List Byte) (s : State) : State :=
  if (s.chan ch).crst then s
  else if bytes.length < byteAt bytes 0 + 5 then openTransfer ch .request bytes s
  else
    let frame := bytes.take (byteAt bytes 0 + 5)
    decideRaw ch frame (openTransfer ch .decide frame s)

/-- Select rises (R149). -/
def selectRises (ch : Channel) (s : State) : State :=
  if (s.chan ch).crst then s else s.setPort ch (s.port ch).selectRisen

/-! ## Data out (R149, R173) -/

/-- The phase of a transfer after `k` more bytes have been clocked: the second fill byte begins RESPONSE (R149). -/
def Port.phaseAfter (k : Nat) (p : Port) : Phase :=
  match p.phase with
  | .decide => if k < Config.fillsBeforeResponse then .decide else .response
  | .idle => .idle
  | .request => .request
  | .response => .response

/-- The byte that the port drives on data out while byte `k` from the start of DECIDE is clocked: two fill bytes, the
response frame, then fill bytes; in IDLE and REQUEST fill bytes alone (R149, R173). -/
def Port.dataOut (p : Port) (k : Nat) : Byte :=
  match p.phase, p.response with
  | .decide, some r | .response, some r =>
    if k < Config.fillsBeforeResponse then Config.fillByte
    else match (responseFrame r)[k - Config.fillsBeforeResponse]? with
      | some b => b
      | none => Config.fillByte
  | _, _ => Config.fillByte

/-- The byte on data out of a channel's port: fill bytes alone while CRST of the channel is asserted (R39, R149). -/
def State.dataOut (s : State) (ch : Channel) (k : Nat) : Byte :=
  if (s.chan ch).crst then Config.fillByte else (s.port ch).dataOut k

/-- The last byte of a response is clocked out: the port has passed to RESPONSE, and the records of a READ EVENTS are
removed, once (R149, R159). -/
def responseEnds (ch : Channel) (s : State) : State :=
  if (s.chan ch).crst ∨ (s.port ch).response.isNone then s
  else
    let p := s.port ch
    let q := s.queue ch
    (s.setPort ch { p with phase := p.phaseAfter Config.fillsBeforeResponse, taken := 0 }).setQueue ch { q with records := q.records.drop p.taken }

/-- CRST_X released (R39). -/
def releaseCrst (ch : Channel) (s : State) : State := s.setChan ch { s.chan ch with crst := false, resetMark := none }

end Sys2Proof.Machine
end

