-- ==== Sys2Proof/Machine/Concurred.lean ====
section
/-!
DEFINITION. The meanings of the concurred requests (R23 to R28): each command is one half, one whole transfer (log 1).
-/

namespace Sys2Proof.Machine

/-- SET_ROUTE (R46). -/
def execSetRoute (ch : Channel) (tag : Byte) (route : Byte) (variant : Byte)
    (s : State) : Host.Outcome State Fault Refusal :=
  .next (request ch .setRoute tag [route, variant] s)

/-- CANCEL_ROUTE (R70). -/
def execCancelRoute (ch : Channel) (tag : Byte) (route : Byte) (s : State) : Host.Outcome State Fault Refusal :=
  .next (request ch .cancelRoute tag [route] s)

/-- EMERGENCY_RELEASE (R115). -/
def execEmergencyRelease (ch : Channel) (tag : Byte) (route : Byte) (s : State) : Host.Outcome State Fault Refusal :=
  .next (request ch .emergencyRelease tag [route] s)

/-- SET_APPROACH_SPEED (R117). -/
def execSetApproachSpeed (ch : Channel) (tag : Byte) (route : Byte) (speed : Byte)
    (s : State) : Host.Outcome State Fault Refusal :=
  .next (request ch .setApproachSpeed tag [route, speed] s)

/-- MOVE_POINT (R20). -/
def execMovePoint (ch : Channel) (tag : Byte) (element : Half) (position : Byte)
    (s : State) : Host.Outcome State Fault Refusal :=
  .next (request ch .movePoint tag (b2 element.toNat ++ [position]) s)

/-- BLOCK_ELEMENT (R18). -/
def execBlockElement (ch : Channel) (tag : Byte) (element : Half) (s : State) : Host.Outcome State Fault Refusal :=
  .next (request ch .blockElement tag (b2 element.toNat) s)

/-- UNBLOCK_ELEMENT (R18). -/
def execUnblockElement (ch : Channel) (tag : Byte) (element : Half) (s : State) : Host.Outcome State Fault Refusal :=
  .next (request ch .unblockElement tag (b2 element.toNat) s)

/-- INHIBIT_SET (R19). -/
def execInhibitSet (ch : Channel) (tag : Byte) (element : Half) (s : State) : Host.Outcome State Fault Refusal :=
  .next (request ch .inhibitSet tag (b2 element.toNat) s)

/-- INHIBIT_CLEAR (R19). -/
def execInhibitClear (ch : Channel) (tag : Byte) (element : Half) (s : State) : Host.Outcome State Fault Refusal :=
  .next (request ch .inhibitClear tag (b2 element.toNat) s)

/-- ELEMENT_RESTORE (R17). -/
def execElementRestore (ch : Channel) (tag : Byte) (element : Half) (s : State) : Host.Outcome State Fault Refusal :=
  .next (request ch .elementRestore tag (b2 element.toNat) s)

/-- REQUEST_PERMIT (R138). -/
def execRequestPermit (ch : Channel) (tag : Byte) (link : Byte) (slot : Byte)
    (s : State) : Host.Outcome State Fault Refusal :=
  .next (request ch .requestPermit tag [link, slot] s)

/-- BLOCK_SLOT (R142). -/
def execBlockSlot (ch : Channel) (tag : Byte) (link : Byte) (slot : Byte)
    (s : State) : Host.Outcome State Fault Refusal :=
  .next (request ch .blockSlot tag [link, slot] s)

/-- UNBLOCK_SLOT (R142). -/
def execUnblockSlot (ch : Channel) (tag : Byte) (link : Byte) (slot : Byte)
    (s : State) : Host.Outcome State Fault Refusal :=
  .next (request ch .unblockSlot tag [link, slot] s)

/-- RESTORE_SLOT (R140). -/
def execRestoreSlot (ch : Channel) (tag : Byte) (link : Byte) (slot : Byte) (mode : Byte)
    (s : State) : Host.Outcome State Fault Refusal :=
  .next (request ch .restoreSlot tag [link, slot, mode] s)

/-- RELEASE_RESERVATION (R148). -/
def execReleaseReservation (ch : Channel) (tag : Byte) (link : Byte) (slot : Byte)
    (s : State) : Host.Outcome State Fault Refusal :=
  .next (request ch .releaseReservation tag [link, slot] s)

/-- LINK_TEST (R131). -/
def execLinkTest (ch : Channel) (tag : Byte) (link : Byte) (pattern : List Byte) (count : Byte)
    (s : State) : Host.Outcome State Fault Refusal :=
  .next (request ch .linkTest tag (link :: (pattern ++ [count])) s)

/-- SET_PARAMETER (R168). -/
def execSetParameter (ch : Channel) (tag : Byte) (id : Byte) (value : Half)
    (s : State) : Host.Outcome State Fault Refusal :=
  .next (request ch .setParameter tag (id :: b2 value.toNat) s)

/-- APPLY_PARAMETERS (R169). -/
def execApplyParameters (ch : Channel) (tag : Byte) (s : State) : Host.Outcome State Fault Refusal :=
  .next (request ch .applyParameters tag [] s)

/-- ACCEPT_CONFIGURATION (R164). -/
def execAcceptConfiguration (ch : Channel) (tag : Byte) (digest : Word)
    (s : State) : Host.Outcome State Fault Refusal :=
  .next (request ch .acceptConfiguration tag (b4 digest.toNat) s)

/-- DEVICE_RESET (R170). -/
def execDeviceReset (ch : Channel) (tag : Byte) (s : State) : Host.Outcome State Fault Refusal :=
  .next (request ch .deviceReset tag [] s)

end Sys2Proof.Machine
end

