-- ==== Sys2Proof/Machine/Expiries.lean ====
section
/-!
DEFINITION. The meanings of the timer expiries, of the HEALTH change and of the passing of device time (log 3, log 25).
-/

namespace Sys2Proof.Machine

/-- CLEARANCE_TIMER_EXPIRY (R5). -/
def execClearanceTimerExpiry (element : Nat) (s : State) : Host.Outcome State Fault Refusal :=
  .next (clearanceExpired element s)

/-- SECTION_DISCREPANCY_EXPIRY (R6). -/
def execSectionDiscrepancyExpiry (element : Nat) (s : State) : Host.Outcome State Fault Refusal :=
  .next (sectionDiscExpired element s)

/-- POINT_DISCREPANCY_EXPIRY (R8). -/
def execPointDiscrepancyExpiry (element : Nat) (s : State) : Host.Outcome State Fault Refusal :=
  .next (pointDiscExpired element s)

/-- SIGNAL_DISCREPANCY_EXPIRY (R14). -/
def execSignalDiscrepancyExpiry (element : Nat) (s : State) : Host.Outcome State Fault Refusal :=
  .next (signalDiscExpired element s)

/-- MOVE_SUPERVISION_EXPIRY (R11). -/
def execMoveSupervisionExpiry (element : Nat) (s : State) : Host.Outcome State Fault Refusal :=
  .next (moveExpired element s)

/-- WINDOW_TIMER_EXPIRY (R29). -/
def execWindowTimerExpiry (tag : Byte) (s : State) : Host.Outcome State Fault Refusal :=
  .next (windowExpired tag s)

/-- SUPERVISION_TIMER_EXPIRY (R34). -/
def execSupervisionTimerExpiry (ch : Channel) (s : State) : Host.Outcome State Fault Refusal :=
  .next (channelSupervisionExpired ch s)

/-- PAUSE_LIMIT_EXPIRY (R36). -/
def execPauseLimitExpiry (ch : Channel) (s : State) : Host.Outcome State Fault Refusal :=
  .next (pauseLimitExpired ch s)

/-- SETTING_TIMER_EXPIRY (R62). -/
def execSettingTimerExpiry (route : Nat) (s : State) : Host.Outcome State Fault Refusal :=
  .next (settingExpired route s)

/-- OVERLAP_TIMER_EXPIRY (R112). -/
def execOverlapTimerExpiry (route : Nat) (s : State) : Host.Outcome State Fault Refusal :=
  .next (overlapExpired route s)

/-- RELEASE_TIMER_EXPIRY (R116). -/
def execReleaseTimerExpiry (route : Nat) (s : State) : Host.Outcome State Fault Refusal :=
  .next (releaseExpired route s)

/-- WATCH_TIMER_EXPIRY (R102). -/
def execWatchTimerExpiry (element : Nat) (s : State) : Host.Outcome State Fault Refusal :=
  .next (watchExpired element s)

/-- LINK_SEND_TIMER_EXPIRY (R127). -/
def execLinkSendTimerExpiry (link : Nat) (s : State) : Host.Outcome State Fault Refusal :=
  .next (linkSendExpired link s)

/-- TRAINING_TIMER_EXPIRY (R125). -/
def execTrainingTimerExpiry (link : Nat) (s : State) : Host.Outcome State Fault Refusal :=
  .next (trainingExpired link s)

/-- LINK_SUPERVISION_EXPIRY (R129). -/
def execLinkSupervisionExpiry (link : Nat) (s : State) : Host.Outcome State Fault Refusal :=
  .next (supervisionExpired link s)

/-- ANSWER_TIMER_EXPIRY (R131). -/
def execAnswerTimerExpiry (link : Nat) (s : State) : Host.Outcome State Fault Refusal :=
  .next (answerExpired link s)

/-- ECHO_TIMER_EXPIRY (R133). -/
def execEchoTimerExpiry (link : Nat) (s : State) : Host.Outcome State Fault Refusal :=
  .next (echoExpired link s)

/-- RECONCILIATION_TIMER_EXPIRY (R137). -/
def execReconciliationTimerExpiry (link : Nat) (slot : Nat) (s : State) : Host.Outcome State Fault Refusal :=
  .next (reconExpired ⟨link, slot⟩ s)

/-- PERMIT_TRANSFER_EXPIRY (R138). -/
def execPermitTransferExpiry (link : Nat) (slot : Nat) (s : State) : Host.Outcome State Fault Refusal :=
  .next (transferExpired ⟨link, slot⟩ s)

/-- ACCEPTANCE_TIMER_EXPIRY (R143). -/
def execAcceptanceTimerExpiry (link : Nat) (slot : Nat) (s : State) : Host.Outcome State Fault Refusal :=
  .next (acceptExpired ⟨link, slot⟩ s)

/-- TRANSIT_TIMER_EXPIRY (R144). -/
def execTransitTimerExpiry (link : Nat) (slot : Nat) (s : State) : Host.Outcome State Fault Refusal :=
  .next (transitExpired ⟨link, slot⟩ s)

/-- RESERVATION_RELEASE_EXPIRY (R148). -/
def execReservationReleaseExpiry (link : Nat) (slot : Nat) (s : State) : Host.Outcome State Fault Refusal :=
  .next (reserveExpired ⟨link, slot⟩ s)

/-- IMAGE_CHECK_TIMER_EXPIRY (R166). -/
def execImageCheckTimerExpiry (s : State) : Host.Outcome State Fault Refusal :=
  .next (imageCheckExpired s)

/-- HEALTH_TOGGLE (R165). -/
def execHealthToggle (s : State) : Host.Outcome State Fault Refusal :=
  .next (toggleHealth s)

/-- DEVICE_TIME_TICK (R162). -/
def execDeviceTimeTick (s : State) : Host.Outcome State Fault Refusal :=
  .next (tick s)

end Sys2Proof.Machine
end

