-- ==== Sys2Proof/Machine/Lines.lean ====
section
/-!
DEFINITION. The meanings of the port events, the reset lines and the end of the image read (R39, R149, R150, R159, R162, R163).
-/

namespace Sys2Proof.Machine

/-- INVALID_REQUEST_FRAME (R150). -/
def execInvalidRequestFrame (ch : Channel) (bytes : List Byte) (s : State) : Host.Outcome State Fault Refusal :=
  .next (rawFrame ch bytes s)

/-- SELECT_RISE (R149). -/
def execSelectRise (ch : Channel) (s : State) : Host.Outcome State Fault Refusal :=
  .next (selectRises ch s)

/-- EVENT_RECORDS_REMOVED (R159). -/
def execEventRecordsRemoved (ch : Channel) (s : State) : Host.Outcome State Fault Refusal :=
  .next (responseEnds ch s)

/-- CRST_ASSERTED (R39). -/
def execCrstAsserted (ch : Channel) (s : State) : Host.Outcome State Fault Refusal :=
  .next (channelReset ch s)

/-- CRST_RELEASED (R39). -/
def execCrstReleased (ch : Channel) (s : State) : Host.Outcome State Fault Refusal :=
  .next (releaseCrst ch s)

/-- DRST_ASSERTED (R162). -/
def execDrstAsserted (s : State) : Host.Outcome State Fault Refusal :=
  .next (assertDrst s)

/-- DRST_RELEASED (R162). -/
def execDrstReleased (s : State) : Host.Outcome State Fault Refusal :=
  .next (releaseDrst s)

/-- IMAGE_READ_COMPLETE (R163). -/
def execImageReadComplete (bytes : List Byte) (s : State) : Host.Outcome State Fault Refusal :=
  .next (imageRead bytes s)

end Sys2Proof.Machine
end

