-- ==== Sys2Proof/Machine/LinkFrames.lean ====
section
/-!
DEFINITION. The meanings of the frames that arrive on a link (R123, R175, R176): decoded fields, or the raw run (log 9).
-/

namespace Sys2Proof.Machine

/-- LINK_TRAIN_FRAME (R125). -/
def execLinkTrainFrame (link : Nat) (sender : Half) (receiver : Half) (offer : Half) (flags : Byte)
    (s : State) : Host.Outcome State Fault Refusal :=
  .next (takeRun link (runOf (trainFrame sender.toNat receiver.toNat offer.toNat flags.toNat)) s)

/-- LINK_CYCLIC_FRAME (R128). -/
def execLinkCyclicFrame (link : Nat) (sender : Half) (receiver : Half) (counter : Byte) (fields : List Byte)
    (s : State) : Host.Outcome State Fault Refusal :=
  .next (takeRun link (runOf (cyclicFrame sender.toNat receiver.toNat counter fields)) s)

/-- LINK_LOOP_FRAME (R133). -/
def execLinkLoopFrame (link : Nat) (index : Byte) (pattern : List Byte)
    (s : State) : Host.Outcome State Fault Refusal :=
  .next (takeRun link (runOf (loopFrame index pattern)) s)

/-- LINK_BAD_FRAME (R123). -/
def execLinkBadFrame (link : Nat) (run : List Byte) (s : State) : Host.Outcome State Fault Refusal :=
  .next (takeRun link (classifyRun run) s)

/-- LINK_UNKNOWN_FRAME (R123). -/
def execLinkUnknownFrame (link : Nat) (run : List Byte) (s : State) : Host.Outcome State Fault Refusal :=
  .next (takeRun link (classifyRun run) s)

/-- LINK_MISMATCHED_FRAME (R123). -/
def execLinkMismatchedFrame (link : Nat) (run : List Byte) (s : State) : Host.Outcome State Fault Refusal :=
  .next (takeRun link (classifyRun run) s)

end Sys2Proof.Machine
end

