-- ==== Sys2Proof/Machine/Singles.lean ====
section
/-!
DEFINITION. The meanings of the single requests (R4, R35, R36, R74, R151, R153, R154, R159): one whole transfer each (log 1).
-/

namespace Sys2Proof.Machine

/-- REPORT_FIELD_STATUS (R4). -/
def execReportFieldStatus (ch : Channel) (tag : Byte) (items : List ReportItem)
    (s : State) : Host.Outcome State Fault Refusal :=
  .next (request ch .reportFieldStatus tag (items.flatMap itemBytes) s)

/-- READ_ELEMENT (R153). -/
def execReadElement (ch : Channel) (tag : Byte) (element : Half) (s : State) : Host.Outcome State Fault Refusal :=
  .next (request ch .readElement tag (b2 element.toNat) s)

/-- READ_ROUTE (R74). -/
def execReadRoute (ch : Channel) (tag : Byte) (route : Byte) (s : State) : Host.Outcome State Fault Refusal :=
  .next (request ch .readRoute tag [route] s)

/-- READ_ROUTES (R74). -/
def execReadRoutes (ch : Channel) (tag : Byte) (s : State) : Host.Outcome State Fault Refusal :=
  .next (request ch .readRoutes tag [] s)

/-- READ_SLOT (R153). -/
def execReadSlot (ch : Channel) (tag : Byte) (link : Byte) (slot : Byte)
    (s : State) : Host.Outcome State Fault Refusal :=
  .next (request ch .readSlot tag [link, slot] s)

/-- READ_LINK (R153). -/
def execReadLink (ch : Channel) (tag : Byte) (link : Byte) (s : State) : Host.Outcome State Fault Refusal :=
  .next (request ch .readLink tag [link] s)

/-- READ_PARAMETERS (R153). -/
def execReadParameters (ch : Channel) (tag : Byte) (s : State) : Host.Outcome State Fault Refusal :=
  .next (request ch .readParameters tag [] s)

/-- READ_STATUS (R154). -/
def execReadStatus (ch : Channel) (tag : Byte) (s : State) : Host.Outcome State Fault Refusal :=
  .next (request ch .readStatus tag [] s)

/-- READ_EVENTS (R159). -/
def execReadEvents (ch : Channel) (tag : Byte) (count : Byte) (s : State) : Host.Outcome State Fault Refusal :=
  .next (request ch .readEvents tag [count] s)

/-- PAUSE (R35). -/
def execPause (ch : Channel) (tag : Byte) (s : State) : Host.Outcome State Fault Refusal :=
  .next (request ch .pause tag [] s)

/-- RESUME (R36). -/
def execResume (ch : Channel) (tag : Byte) (s : State) : Host.Outcome State Fault Refusal :=
  .next (request ch .resume tag [] s)

end Sys2Proof.Machine
end

