-- ==== Sys2Proof/Machine/Dispatch.lean ====
section
/-!
DEFINITION. The dispatch of commands to their meanings, one arm per row of the table.
-/

namespace Sys2Proof.Machine

/-- A command's effect on everything but the queue of waiting commands. -/
def exec (i : Instr) (s : State) : Host.Outcome State Fault Refusal :=
  match i with
  | .reportFieldStatus ch tag items => Sys2Proof.Machine.execReportFieldStatus ch tag items s
  | .readElement ch tag element => Sys2Proof.Machine.execReadElement ch tag element s
  | .readRoute ch tag route => Sys2Proof.Machine.execReadRoute ch tag route s
  | .readRoutes ch tag => Sys2Proof.Machine.execReadRoutes ch tag s
  | .readSlot ch tag link slot => Sys2Proof.Machine.execReadSlot ch tag link slot s
  | .readLink ch tag link => Sys2Proof.Machine.execReadLink ch tag link s
  | .readParameters ch tag => Sys2Proof.Machine.execReadParameters ch tag s
  | .readStatus ch tag => Sys2Proof.Machine.execReadStatus ch tag s
  | .readEvents ch tag count => Sys2Proof.Machine.execReadEvents ch tag count s
  | .pause ch tag => Sys2Proof.Machine.execPause ch tag s
  | .resume ch tag => Sys2Proof.Machine.execResume ch tag s
  | .setRoute ch tag route variant => Sys2Proof.Machine.execSetRoute ch tag route variant s
  | .cancelRoute ch tag route => Sys2Proof.Machine.execCancelRoute ch tag route s
  | .emergencyRelease ch tag route => Sys2Proof.Machine.execEmergencyRelease ch tag route s
  | .setApproachSpeed ch tag route speed => Sys2Proof.Machine.execSetApproachSpeed ch tag route speed s
  | .movePoint ch tag element position => Sys2Proof.Machine.execMovePoint ch tag element position s
  | .blockElement ch tag element => Sys2Proof.Machine.execBlockElement ch tag element s
  | .unblockElement ch tag element => Sys2Proof.Machine.execUnblockElement ch tag element s
  | .inhibitSet ch tag element => Sys2Proof.Machine.execInhibitSet ch tag element s
  | .inhibitClear ch tag element => Sys2Proof.Machine.execInhibitClear ch tag element s
  | .elementRestore ch tag element => Sys2Proof.Machine.execElementRestore ch tag element s
  | .requestPermit ch tag link slot => Sys2Proof.Machine.execRequestPermit ch tag link slot s
  | .blockSlot ch tag link slot => Sys2Proof.Machine.execBlockSlot ch tag link slot s
  | .unblockSlot ch tag link slot => Sys2Proof.Machine.execUnblockSlot ch tag link slot s
  | .restoreSlot ch tag link slot mode => Sys2Proof.Machine.execRestoreSlot ch tag link slot mode s
  | .releaseReservation ch tag link slot => Sys2Proof.Machine.execReleaseReservation ch tag link slot s
  | .linkTest ch tag link pattern count => Sys2Proof.Machine.execLinkTest ch tag link pattern count s
  | .setParameter ch tag id value => Sys2Proof.Machine.execSetParameter ch tag id value s
  | .applyParameters ch tag => Sys2Proof.Machine.execApplyParameters ch tag s
  | .acceptConfiguration ch tag digest => Sys2Proof.Machine.execAcceptConfiguration ch tag digest s
  | .deviceReset ch tag => Sys2Proof.Machine.execDeviceReset ch tag s
  | .invalidRequestFrame ch bytes => Sys2Proof.Machine.execInvalidRequestFrame ch bytes s
  | .selectRise ch => Sys2Proof.Machine.execSelectRise ch s
  | .eventRecordsRemoved ch => Sys2Proof.Machine.execEventRecordsRemoved ch s
  | .crstAsserted ch => Sys2Proof.Machine.execCrstAsserted ch s
  | .crstReleased ch => Sys2Proof.Machine.execCrstReleased ch s
  | .drstAsserted => Sys2Proof.Machine.execDrstAsserted s
  | .drstReleased => Sys2Proof.Machine.execDrstReleased s
  | .imageReadComplete bytes => Sys2Proof.Machine.execImageReadComplete bytes s
  | .clearanceTimerExpiry element => Sys2Proof.Machine.execClearanceTimerExpiry element s
  | .sectionDiscrepancyExpiry element => Sys2Proof.Machine.execSectionDiscrepancyExpiry element s
  | .pointDiscrepancyExpiry element => Sys2Proof.Machine.execPointDiscrepancyExpiry element s
  | .signalDiscrepancyExpiry element => Sys2Proof.Machine.execSignalDiscrepancyExpiry element s
  | .moveSupervisionExpiry element => Sys2Proof.Machine.execMoveSupervisionExpiry element s
  | .windowTimerExpiry tag => Sys2Proof.Machine.execWindowTimerExpiry tag s
  | .supervisionTimerExpiry ch => Sys2Proof.Machine.execSupervisionTimerExpiry ch s
  | .pauseLimitExpiry ch => Sys2Proof.Machine.execPauseLimitExpiry ch s
  | .settingTimerExpiry route => Sys2Proof.Machine.execSettingTimerExpiry route s
  | .overlapTimerExpiry route => Sys2Proof.Machine.execOverlapTimerExpiry route s
  | .releaseTimerExpiry route => Sys2Proof.Machine.execReleaseTimerExpiry route s
  | .watchTimerExpiry element => Sys2Proof.Machine.execWatchTimerExpiry element s
  | .linkSendTimerExpiry link => Sys2Proof.Machine.execLinkSendTimerExpiry link s
  | .trainingTimerExpiry link => Sys2Proof.Machine.execTrainingTimerExpiry link s
  | .linkSupervisionExpiry link => Sys2Proof.Machine.execLinkSupervisionExpiry link s
  | .answerTimerExpiry link => Sys2Proof.Machine.execAnswerTimerExpiry link s
  | .echoTimerExpiry link => Sys2Proof.Machine.execEchoTimerExpiry link s
  | .linkTrainFrame link sender receiver offer flags => Sys2Proof.Machine.execLinkTrainFrame link sender receiver offer flags s
  | .linkCyclicFrame link sender receiver counter fields => Sys2Proof.Machine.execLinkCyclicFrame link sender receiver counter fields s
  | .linkLoopFrame link index pattern => Sys2Proof.Machine.execLinkLoopFrame link index pattern s
  | .linkBadFrame link run => Sys2Proof.Machine.execLinkBadFrame link run s
  | .linkUnknownFrame link run => Sys2Proof.Machine.execLinkUnknownFrame link run s
  | .reconciliationTimerExpiry link slot => Sys2Proof.Machine.execReconciliationTimerExpiry link slot s
  | .permitTransferExpiry link slot => Sys2Proof.Machine.execPermitTransferExpiry link slot s
  | .acceptanceTimerExpiry link slot => Sys2Proof.Machine.execAcceptanceTimerExpiry link slot s
  | .transitTimerExpiry link slot => Sys2Proof.Machine.execTransitTimerExpiry link slot s
  | .reservationReleaseExpiry link slot => Sys2Proof.Machine.execReservationReleaseExpiry link slot s
  | .imageCheckTimerExpiry => Sys2Proof.Machine.execImageCheckTimerExpiry s
  | .healthToggle => Sys2Proof.Machine.execHealthToggle s
  | .linkMismatchedFrame link run => Sys2Proof.Machine.execLinkMismatchedFrame link run s
  | .deviceTimeTick => Sys2Proof.Machine.execDeviceTimeTick s

end Sys2Proof.Machine
end

