-- ==== Sys2Proof/WellFormed.lean ====
section
/-!
DEFINITION. Well-formed commands: the operands that the spec lets a sender give (R1, R4, R151, R172, R175, R176). An
ill-formed command has a meaning all the same: the port or the link answers it as the rules give.
-/

namespace Sys2Proof

open Sys2Proof.Machine

/-- What a request command puts on its port: channel, kind, tag and body (R172). -/
structure RequestFrame where
  ch : Channel
  kind : ReqKind
  tag : Byte
  body : List Byte
  deriving DecidableEq, Repr

/-- The frame of a request command; none for the commands that are no requests. -/
def requestOf : Instr → Option RequestFrame
  | .reportFieldStatus ch tag items => some ⟨ch, .reportFieldStatus, tag, items.flatMap itemBytes⟩
  | .readElement ch tag element => some ⟨ch, .readElement, tag, b2 element.toNat⟩
  | .readRoute ch tag route => some ⟨ch, .readRoute, tag, [route]⟩
  | .readRoutes ch tag => some ⟨ch, .readRoutes, tag, []⟩
  | .readSlot ch tag link slot => some ⟨ch, .readSlot, tag, [link, slot]⟩
  | .readLink ch tag link => some ⟨ch, .readLink, tag, [link]⟩
  | .readParameters ch tag => some ⟨ch, .readParameters, tag, []⟩
  | .readStatus ch tag => some ⟨ch, .readStatus, tag, []⟩
  | .readEvents ch tag count => some ⟨ch, .readEvents, tag, [count]⟩
  | .pause ch tag => some ⟨ch, .pause, tag, []⟩
  | .resume ch tag => some ⟨ch, .resume, tag, []⟩
  | .setRoute ch tag route variant => some ⟨ch, .setRoute, tag, [route, variant]⟩
  | .cancelRoute ch tag route => some ⟨ch, .cancelRoute, tag, [route]⟩
  | .emergencyRelease ch tag route => some ⟨ch, .emergencyRelease, tag, [route]⟩
  | .setApproachSpeed ch tag route speed => some ⟨ch, .setApproachSpeed, tag, [route, speed]⟩
  | .movePoint ch tag element position => some ⟨ch, .movePoint, tag, b2 element.toNat ++ [position]⟩
  | .blockElement ch tag element => some ⟨ch, .blockElement, tag, b2 element.toNat⟩
  | .unblockElement ch tag element => some ⟨ch, .unblockElement, tag, b2 element.toNat⟩
  | .inhibitSet ch tag element => some ⟨ch, .inhibitSet, tag, b2 element.toNat⟩
  | .inhibitClear ch tag element => some ⟨ch, .inhibitClear, tag, b2 element.toNat⟩
  | .elementRestore ch tag element => some ⟨ch, .elementRestore, tag, b2 element.toNat⟩
  | .requestPermit ch tag link slot => some ⟨ch, .requestPermit, tag, [link, slot]⟩
  | .blockSlot ch tag link slot => some ⟨ch, .blockSlot, tag, [link, slot]⟩
  | .unblockSlot ch tag link slot => some ⟨ch, .unblockSlot, tag, [link, slot]⟩
  | .restoreSlot ch tag link slot mode => some ⟨ch, .restoreSlot, tag, [link, slot, mode]⟩
  | .releaseReservation ch tag link slot => some ⟨ch, .releaseReservation, tag, [link, slot]⟩
  | .linkTest ch tag link pattern count => some ⟨ch, .linkTest, tag, link :: (pattern ++ [count])⟩
  | .setParameter ch tag id value => some ⟨ch, .setParameter, tag, id :: b2 value.toNat⟩
  | .applyParameters ch tag => some ⟨ch, .applyParameters, tag, []⟩
  | .acceptConfiguration ch tag digest => some ⟨ch, .acceptConfiguration, tag, b4 digest.toNat⟩
  | .deviceReset ch tag => some ⟨ch, .deviceReset, tag, []⟩
  | .invalidRequestFrame .. | .selectRise .. | .eventRecordsRemoved .. | .crstAsserted .. | .crstReleased ..
  | .drstAsserted | .drstReleased | .imageReadComplete .. | .clearanceTimerExpiry ..
  | .sectionDiscrepancyExpiry .. | .pointDiscrepancyExpiry .. | .signalDiscrepancyExpiry ..
  | .moveSupervisionExpiry .. | .windowTimerExpiry .. | .supervisionTimerExpiry .. | .pauseLimitExpiry ..
  | .settingTimerExpiry .. | .overlapTimerExpiry .. | .releaseTimerExpiry .. | .watchTimerExpiry ..
  | .linkSendTimerExpiry .. | .trainingTimerExpiry .. | .linkSupervisionExpiry .. | .answerTimerExpiry ..
  | .echoTimerExpiry .. | .linkTrainFrame .. | .linkCyclicFrame .. | .linkLoopFrame .. | .linkBadFrame ..
  | .linkUnknownFrame .. | .reconciliationTimerExpiry .. | .permitTransferExpiry .. | .acceptanceTimerExpiry ..
  | .transitTimerExpiry .. | .reservationReleaseExpiry .. | .imageCheckTimerExpiry | .healthToggle
  | .linkMismatchedFrame .. | .deviceTimeTick => none

/-- An element id, 0 to 511. -/
def elementOk (e : Half) : Bool := e.toNat < 512

/-- A link and slot, 0 to 3 and 0 to 7. -/
def slotOk (link slot : Byte) : Bool := link.toNat < 4 && slot.toNat < 8

/-- Raw bytes that are no valid request frame: incomplete, or failing a check of R150. -/
def invalidFrame (bytes : List Byte) : Bool :=
  match bytes with
  | len :: k :: _ :: rest =>
    bytes.length < len.toNat + 5 || 200 < len.toNat
      || b2 (crc16 (bytes.take (len.toNat + 3))) != (rest.drop len.toNat).take 2
      || (match kindOfByte k with
          | none => true
          | some kind => !lengthOk kind len.toNat)
  | _ => true

/-- The operands of a command are such as the spec lets its sender give. -/
def Instr.wellFormed : Instr → Bool
  | .reportFieldStatus _ _ items => 1 ≤ items.length && items.length ≤ 32 && items.all (fun i => elementOk i.element)
  | .readElement _ _ e => elementOk e
  | .readRoute .. => true
  | .readRoutes .. => true
  | .readSlot _ _ l i => slotOk l i
  | .readLink _ _ l => l.toNat < 4
  | .readParameters .. => true
  | .readStatus .. => true
  | .readEvents _ _ n => 1 ≤ n.toNat && n.toNat ≤ 8
  | .pause .. => true
  | .resume .. => true
  | .setRoute .. => true
  | .cancelRoute .. => true
  | .emergencyRelease .. => true
  | .setApproachSpeed .. => true
  | .movePoint _ _ e p => elementOk e && (posOf p).isSome
  | .blockElement _ _ e => elementOk e
  | .unblockElement _ _ e => elementOk e
  | .inhibitSet _ _ e => elementOk e
  | .inhibitClear _ _ e => elementOk e
  | .elementRestore _ _ e => elementOk e
  | .requestPermit _ _ l i => slotOk l i
  | .blockSlot _ _ l i => slotOk l i
  | .unblockSlot _ _ l i => slotOk l i
  | .restoreSlot _ _ l i m => slotOk l i && (m.toNat == 1 || m.toNat == 2)
  | .releaseReservation _ _ l i => slotOk l i
  | .linkTest _ _ l p _ => l.toNat < 4 && p.length == 16
  | .setParameter .. => true
  | .applyParameters .. => true
  | .acceptConfiguration .. => true
  | .deviceReset .. => true
  | .invalidRequestFrame _ bytes => invalidFrame bytes
  | .selectRise _ => true
  | .eventRecordsRemoved _ => true
  | .crstAsserted _ => true
  | .crstReleased _ => true
  | .drstAsserted => true
  | .drstReleased => true
  | .imageReadComplete _ => true
  | .clearanceTimerExpiry e => e < 512
  | .sectionDiscrepancyExpiry e => e < 512
  | .pointDiscrepancyExpiry e => e < 512
  | .signalDiscrepancyExpiry e => e < 512
  | .moveSupervisionExpiry e => e < 512
  | .windowTimerExpiry _ => true
  | .supervisionTimerExpiry _ => true
  | .pauseLimitExpiry _ => true
  | .settingTimerExpiry r => r < 256
  | .overlapTimerExpiry r => r < 256
  | .releaseTimerExpiry r => r < 256
  | .watchTimerExpiry e => e < 512
  | .linkSendTimerExpiry l => l < 4
  | .trainingTimerExpiry l => l < 4
  | .linkSupervisionExpiry l => l < 4
  | .answerTimerExpiry l => l < 4
  | .echoTimerExpiry l => l < 4
  | .linkTrainFrame l _ _ o _ => l < 4 && 50 ≤ o.toNat && o.toNat ≤ 1000
  | .linkCyclicFrame l _ _ _ fs => l < 4 && fs.length == 24 && (parseFields fs).isSome
  | .linkLoopFrame l _ p => l < 4 && p.length == 16
  | .linkBadFrame l run => l < 4 && classifyRun run == .bad
  | .linkUnknownFrame l run => l < 4 && classifyRun run == .unknown
  | .reconciliationTimerExpiry l i => l < 4 && i < 8
  | .permitTransferExpiry l i => l < 4 && i < 8
  | .acceptanceTimerExpiry l i => l < 4 && i < 8
  | .transitTimerExpiry l i => l < 4 && i < 8
  | .reservationReleaseExpiry l i => l < 4 && i < 8
  | .imageCheckTimerExpiry => true
  | .healthToggle => true
  | .linkMismatchedFrame l run =>
    l < 4 && (match classifyRun run with
      | .known (.train _) => true
      | .known (.cyclic ..) => true
      | .known (.loop ..) => false
      | .bad => false
      | .unknown => false)
  | .deviceTimeTick => true

end Sys2Proof
end

