-- ==== Sys2Proof/Safety.lean ====
section
/-!
DEFINITION. The words in which statements about the block are made: what the units may change when a change is
handed to them (R15, R22, R38), what a completed pair of halves leaves (R27), and the laws that every step keeps.
-/

namespace Sys2Proof.Machine

/-! ## What the units may change on a handed change -/

/-- A section without its holder. -/
def SectionRec.core (x : SectionRec) : SectionRec := { x with holder := .none }

/-- A point without its primary hold and its claim set. -/
def PointRec.core (x : PointRec) : PointRec := { x with hold := .none, claims := [], claimPos := none }

/-- A signal without its entry-of, its claim set and its permission record. -/
def SignalRec.core (x : SignalRec) : SignalRec := { x with entryOf := none, claims := [], perm := none, watch := .off }

/-- The configured part of a slot, its block and the fields last received from the peer. -/
def Slot.core (x : Slot) : Slot := { x.fresh with peer := x.peer }

/-- What a route keeps for as long as it is in the Active Route List. -/
def ActiveRoute.core (a : ActiveRoute) : Nat × Option Nat × Option SlotRef × List Nat :=
  (a.id, a.variant, a.exitSlot, a.options)

/-- The state without the records that the Route, Permission, Flank and Handover Units write, without the event
queues and without the free values of log 4. -/
def State.base (s : State) : State :=
  { s with
    sections := s.sections.map SectionRec.core, points := s.points.map PointRec.core
    signals := s.signals.map SignalRec.core, routes := [], slots := [], queueA := .empty, queueB := .empty
    choices := [], drawn := 0 }

/-- `State.base` without the elements. -/
def State.rest (s : State) : State := { s.base with sections := [], points := [], signals := [] }

/-- A holder that the units have left, dropped, or replaced by an entry reservation. -/
def holderDrops (old new : Holder) : Prop := new = old ∨ new = .none ∨ ∃ l i, new = .entry l i

/-- The holds and claims of a point that the units have left or dropped. -/
def holdDrops (old new : PointRec) : Prop := (new.hold = old.hold ∨ new.hold = .none) ∧ new.claims.Sublist old.claims

/-- The entry-of and claims of a signal that the units have left or dropped; permission left, withdrawn, or granted to
one of the given routes. -/
def signalDrops (routes : List ActiveRoute) (old new : SignalRec) : Prop :=
  (new.entryOf = old.entryOf ∨ new.entryOf = none) ∧ new.claims.Sublist old.claims
    ∧ (new.perm = old.perm ∨ new.perm = none ∨ ∃ a ∈ routes, new.perm = some a.id)

/-- `t` differs from `u` at most by what the units do with the changes handed to them: no view, agreed status, fault,
block, mask or move changes; no route or claim appears; nothing changes in the device, the channels, the ports, the
table or the links; and the events they queue stand after those of `u`. -/
structure Reacts (u t : State) : Prop where
  base : t.base = u.base
  sections : List.Forall₂ (fun x y => holderDrops x.holder y.holder) u.sections t.sections
  points : List.Forall₂ holdDrops u.points t.points
  signals : List.Forall₂ (signalDrops u.routes) u.signals t.signals
  routes : (t.routes.map ActiveRoute.core).Sublist (u.routes.map ActiveRoute.core)
  slots : t.slots.map Slot.core = u.slots.map Slot.core
  events : ∀ ch, (u.queue ch).records <+: (t.queue ch).records

/-- The changes of a list carried out one after another in some order, each on the state that the one before it left, with
free values drawn in between (R15, R22, R38; log 4). -/
inductive InSomeOrder : List (State → State) → State → State → Prop where
  | done (s : State) : InSomeOrder [] s s
  | next (before : List (State → State)) (f : State → State) (after : List (State → State)) (s : State)
      (c : List Nat) (d : Nat) (t : State) :
      InSomeOrder (before ++ after) (f { s with choices := c, drawn := d }) t → InSomeOrder (before ++ f :: after) s t

/-! ## Views -/

/-- The view of a channel (R2). -/
def SectionRec.view (ch : Channel) (x : SectionRec) : SecView :=
  match ch with
  | .A => x.viewA
  | .B => x.viewB

def PointRec.view (ch : Channel) (x : PointRec) : PointView :=
  match ch with
  | .A => x.viewA
  | .B => x.viewB

def SignalRec.view (ch : Channel) (x : SignalRec) : SignalView :=
  match ch with
  | .A => x.viewA
  | .B => x.viewB

/-- What the last valid item for element `id` reports, by the states that `ofByte` gives the kind; `before` where no
item names it (R4). -/
def lastReport {α : Type} (ofByte : Byte → Option α) (items : List ReportItem) (id : Nat) (before : α) : α :=
  ((items.filterMap (fun i => if i.element.toNat = id then ofByte i.state else none)).getLast?).getD before

/-! ## Permission -/

/-- The handed change concerns a condition of R94 for the route, or the route itself (R95). -/
def Touches (s : State) (a : ActiveRoute) : Concern → Prop
  | .sec id => id ∈ allSecs (s.defOf a.id) a.variant
  | .point id => ∃ q ∈ allPoints (s.defOf a.id) a.variant, q.point = id
  | .flank rs => a.id ∈ rs
  | .signals gs => (s.defOf a.id).entry ∈ gs
  | .channel _ => True
  | .device => True
  | .slot ref => a.exitSlot = some ref
  | .route r => r = a.id

/-- The condition on an entry signal (R94). -/
def SignalFit (s : State) (g : Nat) : Prop :=
  ∃ x, s.signal? g = some x ∧ x.faulted = false ∧ x.mask = false ∧ x.status ≠ .dark ∧ x.claims = []

/-- A handed change that finds a condition of R94 failing for the route, with the cause that R94 gives. S1 agreed
OCCUPIED is entry and no failure (R96, R97). -/
inductive Breaks (s : State) (a : ActiveRoute) : Concern → PermCause → Prop where
  | sec (id : Nat) : id ∈ allSecs (s.defOf a.id) a.variant → secStatusIs s id .clear = false →
      ¬ ((s.defOf a.id).secs.head? = some id ∧ secStatusIs s id .occupied = true) → Breaks s a (.sec id) (.sec id)
  | point (q : PointReq) : q ∈ allPoints (s.defOf a.id) a.variant →
      (∀ x, s.point? q.point = some x → x.status ≠ statusOfPos q.pos) → Breaks s a (.point q.point) (.point q.point)
  | flank (rs : List Nat) (before : List FlankRec) (f : FlankRec) (after : List FlankRec) : a.id ∈ rs →
      a.flanks = before ++ f :: after → (∀ g ∈ before, g.standing = true → g.satisfied = true) →
      f.standing = true → f.satisfied = false → Breaks s a (.flank rs) (.flank f.index)
  | signal (gs : List Nat) : (s.defOf a.id).entry ∈ gs → ¬ SignalFit s (s.defOf a.id).entry →
      Breaks s a (.signals gs) (.entrySignal (s.defOf a.id).entry)
  | channel (ch : Channel) : (s.chan ch).state ≠ .active → (s.chan ch).state ≠ .paused →
      Breaks s a (.channel ch) (.channel ch)
  | device : s.dev.state ≠ .inService → Breaks s a .device .deviceState
  | slot (ref : SlotRef) : a.exitSlot = some ref → (∀ x, s.slot? ref = some x → x.outb ≠ .accepted) →
      Breaks s a (.slot ref) (.boundary ref)

/-- The state after permission is withdrawn from a route that returns to LOCKED with grant_allowed false (R96). -/
def State.withdrawn (u : State) (a : ActiveRoute) (cause : PermCause) : State :=
  let g := (u.defOf a.id).entry
  emit (.routeState a.id (.state .locked) .withdrawn 0)
    ((emit (.permissionWithdrawn g a.id cause) (u.mapSignal g (fun y =>
      { y with perm := none, watch := SignalRec.watchTimer (param 7 u) { y with perm := none } }))).mapRoute a.id
      (fun y => { y with state := .locked, grantAllowed := false }))

/-! ## Routes -/

/-- What follows move calls (R9, R15): the units react, and a move just called to where both views already report its
point completes at once, with a duration of 0. -/
inductive Settles (u : State) : State → Prop where
  | reacts (w : State) : Reacts u w → Settles u w
  | completes (t w : State) (x : PointRec) (m : Move) : Settles u t → t.point? x.id = some x → x.move = some m →
      m.start = t.dev.time → x.viewA = viewOfPos m.target → x.viewB = viewOfPos m.target →
      Reacts (emit (.moveDone x.id m.target 0) (t.mapPoint x.id (fun y =>
        PointRec.derive (param 6 t) { y with move := none, moveTimer := .off, lastMove := 0 }))) w →
      Settles u w

/-- A signal at which a route may begin (R47). -/
def EntryReady (s : State) (id : Nat) : Prop :=
  ∃ x, s.signal? id = some x ∧ x.entryOf = none ∧ x.claims = [] ∧ x.block = false ∧ x.faulted = false

/-- A section that a route may take (R48). -/
def SectionReady (s : State) (id : Nat) : Prop :=
  ∃ x, s.section? id = some x ∧ x.holder = .none ∧ x.block = false ∧ x.faulted = false

/-- A point lies in a position or is MOVING toward it (R48). -/
def PointAt (x : PointRec) (p : Pos) : Prop := x.status = statusOfPos p ∨ x.move.map (·.target) = some p

/-- A point that a route may take in a position (R48). -/
def PointReady (s : State) (q : PointReq) : Prop :=
  ∃ x, s.point? q.point = some x ∧ x.hold = .none ∧ (x.claims = [] ∨ x.claimPos = some q.pos) ∧ x.faulted = false
    ∧ (PointAt x q.pos ∨ (x.block = false ∧ secStatusIs s x.sec .clear = true))

/-- An exit at which a route may end (R49). -/
def ExitReady (s : State) (d : RouteDef) : Prop :=
  ∀ ref, d.exit = .boundary ref → ∃ x, s.slot? ref = some x ∧ x.permit = .heldHere ∧ x.block = false

/-- The state without a route: every hold, claim and entry-of of it dropped and its record removed (R57, R65, R71). -/
def State.without (s : State) (r : Nat) : State :=
  { s with
    sections := s.sections.map (fun x =>
      if x.holder = .route r ∨ x.holder = .overlap r then { x with holder := .none } else x)
    points := s.points.map (fun x =>
      let kept := x.claims.filter (fun c => c.route != r)
      { x with hold := (match x.hold with
                 | .route q p => if q = r then .none else .route q p
                 | .overlap q p => if q = r then .none else .overlap q p
                 | .none => .none)
               claims := kept, claimPos := if kept = [] then none else x.claimPos })
    signals := s.signals.map (fun x =>
      { x with entryOf := if x.entryOf = some r then none else x.entryOf
               claims := x.claims.filter (fun c => c.route != r) })
    routes := s.routes.filter (fun a => a.id != r) }

/-- What is handed on when a route leaves the Active Route List (R22, R65, R71, R110, R145): its sections to the slots over
them, the signals that it claimed to the Permission Unit, and its removal to its exit slot. -/
def State.removalWork (s : State) (a : ActiveRoute) (cause : SlotCause) : List (State → State) :=
  (s.sections.filter (fun x => x.holder == .route a.id || x.holder == .overlap a.id)).map (fun x => retestOver x.id)
    ++ permOn (.signals ((s.signals.filter (fun x => x.claims.any (fun c => c.route == a.id))).map (·.id)))
      :: (match a.exitSlot with
          | some ref => [slotRouteGone cause ref]
          | none => [])

/-- A route of the list is removed with its ROUTE_STATE: every hold, claim and entry-of of it and its record go in one
change, and the drops are handed on after it (R57, R65, R71, R110, R114). -/
def Removes (a : ActiveRoute) (news : RouteNews) (cause : RouteCause) (point : Nat) (slot : SlotCause) (s t : State) :
    Prop :=
  let u := emit (.routeState a.id news cause point) (s.without a.id)
  Reacts u t ∧ InSomeOrder (s.removalWork a slot) u t

/-- The permission of a signal taken from a route that has it, with its PERMISSION event (R97, R101). -/
def State.unpermitted (s : State) (g r : Nat) (cause : PermCause) : State :=
  match s.signal? g with
  | some x =>
    if x.perm = some r then
      emit (.permissionWithdrawn g r cause)
        (s.mapSignal g (fun y => { y with perm := none, watch := SignalRec.watchTimer (param 7 s) { y with perm := none } }))
    else s
  | none => s

/-! ## Links -/

/-- The link loss of a link that left UP, taken at each of its slots (R130, R141), in position order, which no rule gives (log 31);
a link that was in another state has lost nothing. -/
def State.lossTaken (u : State) (x : Link) : State :=
  if x.state = .up then (List.range 8).foldl (fun t i => loseSlot ⟨x.id, i⟩ t) u else u

/-- A link enters DOWN (R124 to R126, R130): its record and LINK_STATE first, then the loss at each of its slots where it
was UP, then the first TRAIN with HEARD clear. The cleared last TRAIN is log 30's, the test record beside its role log 47's.
The stopped timers show 0 (log 49). -/
def EntersDown (x : Link) (cause : LinkCause) (u w : State) : Prop :=
  let t := emit (.linkState x.id .down cause) (u.mapLink x.id (fun y => { y with
      state := .down, cause := cause, offer := param 13 u, trainCount := 0, lastTrain := none, sentHeard := false
      period := none, test := .idle, supervision := .off, answer := .off, echo := .off, training := .off
      sendTimer := ⟨.running, 200⟩ }))
  ∃ v, Reacts t v ∧ v = t.lossTaken x
    ∧ w = { v with tx := v.tx ++ [⟨x.id, .train ⟨u.dev.area, peerArea x, param 13 u, false, false⟩⟩] }

/-- A link enters TRAINING with the given last TRAIN (R124 to R126, R130; with none given, log 36): from DOWN it keeps its
offer, else the offer is taken afresh; the loss is taken at each slot where the link was UP; a TRAIN with HEARD goes out
last. The test record beside its role is log 47's. The stopped timers show 0 (log 49). -/
def EntersTraining (x : Link) (cause : LinkCause) (last : Option TrainContent) (u w : State) : Prop :=
  let offer (y : Link) : Nat := if x.state = .down then y.offer else param 13 u
  let t := emit (.linkState x.id .training cause) (u.mapLink x.id (fun y => { y with
      state := .training, cause := cause, offer := offer y, trainCount := if last = none then 0 else 1, lastTrain := last
      sentHeard := true, period := none, test := .idle, supervision := .off, answer := .off, echo := .off
      training := ⟨.running, 2000⟩, sendTimer := ⟨.running, 200⟩ }))
  ∃ v, Reacts t v ∧ v = t.lossTaken x
    ∧ w = { v with tx := v.tx ++ [⟨x.id, .train ⟨u.dev.area, peerArea x, offer x, true, false⟩⟩] }

/-- The fields a link publishes, slot position by slot position (R127, R136). -/
def publishedFields (s : State) (l : Nat) : List PubFields :=
  (List.range 8).map (fun i => match s.slot? ⟨l, i⟩ with
    | some x => published x
    | none => ⟨.notHold, .none, .none⟩)

/-- The state after a link's entry to UP with period `p` (R126, R127, R137): counters begin again, one CYCLIC goes out at once,
and the slots of the link are unreconciled. -/
def State.withLinkUp (u : State) (x : Link) (p : Nat) : State :=
  let v := emit (.linkState x.id .up .trained) (u.mapLink x.id (fun y => { y with
    state := .up, cause := .trained, period := some p, sendCounter := 1, lastCounter := none, training := .off
    sendTimer := ⟨.running, p⟩, supervision := ⟨.running, param 14 u * p⟩ }))
  { v with
    tx := v.tx ++ [⟨x.id, .cyclic u.dev.area (peerArea x) 0 (publishedFields u x.id)⟩]
    slots := v.slots.map (fun y => if y.ref.link = x.id then { y with reconciled := false } else y) }

/-- The test as master ends with a result: stored, LINK_TEST_RESULT queued, and the link enters TRAINING (R133). -/
def EndsTest (x : Link) (o : TestOutcome) (cause : LinkCause) (last : Option TrainContent) (u w : State) : Prop :=
  EntersTraining x cause last
    (emit (.linkTestResult x.id o) (u.mapLink x.id (fun y => { y with lastResult := some o }))) w

/-- A CYCLIC accepted in UP (R128, R136): its counter kept, supervision started again; in AWAITING_ACCEPTANCE and IN_SERVICE
each configured slot of the link has the peer's fields, and in IN_SERVICE each slot takes its part of the delivery, in
position order. -/
def AcceptsCyclic (x : Link) (counter : Byte) (ps : List PubFields) (u w : State) : Prop :=
  let v := u.mapLink x.id (fun y =>
    { y with lastCounter := some counter, supervision := ⟨.running, param 14 u * periodOf x⟩ })
  let stored : State := { v with slots := v.slots.map (fun y =>
    if y.ref.link = x.id then (match ps[y.ref.idx]? with
      | some p => { y with peer := some p }
      | none => y) else y) }
  match u.dev.state with
  | .inService => Reacts stored w ∧ w = ps.zipIdx.foldl (fun t q => deliverSlot ⟨x.id, q.2⟩ q.1 t) v
  | .awaiting => w = stored
  | .loading => w = v
  | .safeHalt => w = v

/-! ## Changes of a channel -/

/-- What is handed on when a channel's state has changed (R38): the conditions of permission and of acceptance. -/
def channelWork (ch : Channel) : List (State → State) := [permOn (.channel ch), retestAll]

/-- What is handed on when a channel in `s` has become LOST or been reset (R37 to R39, R98): its change of state, and the
change of each element whose views are UNKNOWN since. -/
def State.lossWork (s : State) (ch : Channel) : List (State → State) :=
  channelWork ch ++ (s.sections.map (fun x => sectionChanged x) ++ s.points.map (fun x => pointViewChanged x)
    ++ s.signals.map (fun x => signalChanged x))

/-! ## Requests -/

/-- The transfer that a request opens at its port (R149; log 1). -/
def State.opened (s : State) (f : RequestFrame) : State :=
  s.setPort f.ch { (s.port f.ch).between with
    phase := .decide, bytes := channelFrame (kindCode f.kind) f.tag f.body, response := none, taken := 0
    resetOnEnd := false }

/-- The state in which a frame of an ACTIVE or a PAUSED channel is decided: its transfer open, and the supervision timer of an
ACTIVE channel started again with P2 (R34); that of a PAUSED one stays stopped (R35). -/
def State.served (s : State) (f : RequestFrame) : State :=
  if (s.chan f.ch).state = .active then
    (s.opened f).setChan f.ch { s.chan f.ch with supervision := Timer.start (param 2 s) }
  else s.opened f

/-- The port takes the frame of a channel in ACTIVE: its reset line is low, and the body has the length of its kind and
fields in their ranges (R39, R150, R151). -/
structure Serves (f : RequestFrame) (s : State) : Prop where
  line : (s.chan f.ch).crst = false
  active : (s.chan f.ch).state = .active
  short : f.body.length ≤ 200
  length : lengthOk f.kind f.body.length = true
  range : inRange f.kind f.body = true

/-- The half of the other channel waits in the table with the same tag, kind and body, and the device takes the kind
(R24, R26). -/
structure Completes (f : RequestFrame) (s : State) : Prop extends Serves f s where
  concurred : isConcurred f.kind = true
  device : s.dev.state = .inService
    ∨ (s.dev.state = .awaiting ∧ (f.kind = .acceptConfiguration ∨ f.kind = .deviceReset))
  half : ∃ h, s.table.find? (fun x => x.tag == f.tag) = some h ∧ h.filler = f.ch.other ∧ h.kind = f.kind
    ∧ h.body = f.body

/-- The state in which the owner decides a completed pair: the entry is removed (R26). -/
def State.paired (s : State) (f : RequestFrame) : State :=
  { s.served f with table := s.table.filter (fun x => x.tag != f.tag) }

/-- A single request ends in a next state with the given response, composed in a state that `effect` relates to the one
in which the frame was decided (R151). -/
def Answers (c : Instr) (f : RequestFrame) (s : State) (st : Status) (body : List Byte)
    (effect : State → State → Prop) : Prop :=
  ∃ w, exec c s = .next (respond f.ch st f.tag body w) ∧ effect (s.served f) w

/-- The command ends in a next state: the response is CONCURRED with the outcome, REQUEST_DONE stands before what the
request queues, and `effect` relates the state with that event queued to the state in which the response is composed
(R27). -/
def Concurs (c : Instr) (f : RequestFrame) (s : State) (out : Status) (detail : Nat) (effect : State → State → Prop) :
    Prop :=
  ∃ w, exec c s = .next (respond f.ch .concurred f.tag (outcomeBytes f.kind out detail) w)
    ∧ effect (emit (.requestDone f.tag f.kind out detail) (s.paired f)) w

/-- A refused pair changes nothing beyond what `Concurs` says of every pair (R27). -/
def Refuses (c : Instr) (f : RequestFrame) (s : State) (out : Status) (detail : Nat) : Prop :=
  Concurs c f s out detail (fun u w => w = u)

/-- A request frame that is answered with an empty body from the open transfer alone: no unit is reached and no channel
supervised again. -/
def AnsweredAtPort (c : Instr) (f : RequestFrame) (s : State) (st : Status) : Prop :=
  exec c s = .next (respond f.ch st f.tag [] (s.opened f))

/-! ## Events -/

/-- The events a queue accounts for: its records that are no LOST record, the counts its LOST records carry, and its lost
count (R158). -/
def EventQueue.account (q : EventQueue) : Nat :=
  q.lost + (q.records.map (fun r => match r.event with | .lost _ n => n | _ => 1)).sum

/-! ## A sound image (R163) -/

/-- The image describes an element of the kind: SECTION 1, POINT 2, SIGNAL 3 (R177). -/
def Image.Has (m : Image) (kind id : Nat) : Prop := ∃ x ∈ m.elems, x.id = id ∧ x.kind = kind

/-- The points lie in the given sections, are distinct, and have a position each (R42, R43). -/
def Image.PointsIn (m : Image) (secs : List Nat) (ps : List ImgPoint) : Prop :=
  (ps.map Prod.fst).Nodup ∧ ∀ p ∈ ps, (p.2 = 1 ∨ p.2 = 2) ∧ ∃ x ∈ m.elems, x.id = p.1 ∧ x.kind = 2 ∧ x.ref ∈ secs

/-- A route record that R42 to R45 allow, with the elements that it names configured (checks 4 to 6, 8, 11). -/
structure Image.RouteSound (m : Image) (r : ImgRoute) : Prop where
  sections : 1 ≤ r.nSecs ∧ r.nSecs ≤ 16 ∧ r.secs.Nodup ∧ ∀ i ∈ r.secs, m.Has 1 i
  entry : ∃ x ∈ m.elems, x.id = r.entry ∧ x.kind = 3 ∧ r.secs.head? = some x.ref
  exit : (r.exitKind = 1 ∧ m.Has 3 r.exitId ∧ r.exitId ≠ r.entry)
    ∨ (r.exitKind = 2 ∧ r.nVariants = 0 ∧ ∃ x ∈ m.slots, x.ref = ⟨r.exitId / 256, r.exitId % 256⟩
      ∧ r.secs.getLast? = some x.bsec)
  points : r.nPoints ≤ 16 ∧ m.PointsIn r.secs r.points
  variants : r.nVariants ≤ 2 ∧ ∀ v ∈ r.variants, 1 ≤ v.nSecs ∧ v.nSecs ≤ 4 ∧ v.nPoints ≤ 4 ∧ v.secs.Nodup
    ∧ (∀ i ∈ v.secs, m.Has 1 i ∧ i ∉ r.secs) ∧ m.PointsIn v.secs v.points
    ∧ ∀ p ∈ v.points, ∀ q ∈ r.points, p.1 ≠ q.1
  approach : 1 ≤ r.nApproach ∧ r.nApproach ≤ 4 ∧ r.approach.Nodup
    ∧ ∀ i ∈ r.approach, m.Has 1 i ∧ i ∉ r.secs ∧ ∀ v ∈ r.variants, i ∉ v.secs
  data : r.length ≤ 4000 ∧ 5 ≤ r.speed ∧ r.speed ≤ 250 ∧ r.speed % 5 = 0 ∧ r.brake < 8 ∧ (r.mode = 1 ∨ r.mode = 2)
    ∧ r.nFlanks ≤ 12

/-- A flank entry of a configured route, within its count and its guarded parts, with one to three options of configured
elements, none of them the route's entry signal (checks 4 to 7). -/
def Image.FlankSound (m : Image) (f : ImgFlank) : Prop :=
  ∃ r ∈ m.routes, r.id = f.route ∧ 1 ≤ f.index ∧ f.index ≤ r.nFlanks
    ∧ ((f.guard = 0 ∧ r.nVariants ≠ 0) ∨ (1 ≤ f.guard ∧ f.guard ≤ r.nSecs)) ∧ 1 ≤ f.nOptions ∧ f.nOptions ≤ 3
    ∧ ∀ o ∈ f.options, (o.kind = 1 ∧ (o.pos = 1 ∨ o.pos = 2) ∧ m.Has 2 o.id)
      ∨ (o.kind = 2 ∧ m.Has 3 o.id ∧ o.id ≠ r.entry)

/-- What checks 3 to 12 ask of the parts of an image (R163, with the codes of R177 and the ranges of R168). -/
structure Image.Sound (m : Image) : Prop where
  header : m.header.format = 1 ∧ 1 ≤ m.header.area ∧ m.header.area ≤ 65534
    ∧ m.header.length = 20 + 8 * m.header.elems + 160 * m.header.routes + 16 * m.header.flanks + 8 * m.header.slots
      + 4 * m.header.links + 8 + 32
  elements : (m.elems.map (·.id)).Nodup ∧ ∀ x ∈ m.elems, x.id < 512
    ∧ (x.kind = 1 ∨ (x.kind = 2 ∧ m.Has 1 x.ref ∧ 20 ≤ x.time ∧ x.time ≤ 300) ∨ (x.kind = 3 ∧ m.Has 1 x.ref))
  counts : (m.elems.filter (fun x => x.kind == 2)).length ≤ 128 ∧ (m.elems.filter (fun x => x.kind == 3)).length ≤ 160
    ∧ m.flanks.length ≤ 3072
  routes : (m.routes.map (·.id)).Nodup ∧ ∀ r ∈ m.routes, m.RouteSound r
  flanks : (m.flanks.map (fun f => (f.route, f.index))).Nodup ∧ ∀ f ∈ m.flanks, m.FlankSound f
  slots : (m.slots.map (·.ref)).Nodup ∧ ∀ x ∈ m.slots, x.ref.link < 4 ∧ x.ref.idx < 8 ∧ m.Has 1 x.bsec
    ∧ (∀ y ∈ m.elems, y.kind = 2 → y.ref ≠ x.bsec) ∧ (∃ l ∈ m.links, l.id = x.ref.link) ∧ 1 ≤ x.cap ∧ x.cap ≤ 3
    ∧ (x.holder = 1 ∨ x.holder = 2) ∧ 50 ≤ x.time ∧ x.time ≤ 3000
  links : (m.links.map (·.id)).Nodup ∧ ∀ l ∈ m.links, l.id < 4 ∧ 1 ≤ l.rate ∧ l.rate ≤ 4 ∧ 1 ≤ l.peer ∧ l.peer ≤ 65534
  rates : ∀ v ∈ m.rates, 20 ≤ v ∧ v ≤ 150
  params : List.Forall₂ (fun v r => r.1 ≤ v ∧ v ≤ r.2) m.params
    [(20, 500), (100, 1000), (100, 2000), (0, 100), (5, 100), (5, 100), (5, 50), (0, 100), (0, 1200), (50, 1200), (50, 600),
     (20, 600), (50, 1000), (3, 10), (50, 95), (50, 3000)]

/-! ## Laws that every step keeps -/

/-- Agreed status and timers of a section agree with its views, mask and FAULTED (R5, R6). -/
structure SectionRec.Lawful (x : SectionRec) : Prop where
  occupied : x.occupying = true ↔ x.status = .occupied
  clearance : x.clearance.mode = .running ↔ x.status = .clearing
  disc : x.disc.mode = .running ↔ x.discrepant = true

/-- Agreed status and timers of a point agree with its views, mask, FAULTED and move (R7, R8, R11). -/
structure PointRec.Lawful (x : PointRec) : Prop where
  status : x.status = x.derivedStatus
  disc : x.disc.mode = .running ↔ x.discrepant = true
  move : x.moveTimer.mode = .running ↔ x.move.isSome = true

/-- Agreed status and timers of a signal agree with its views, mask, FAULTED and permission (R13, R14, R101). -/
structure SignalRec.Lawful (x : SignalRec) : Prop where
  status : x.status = x.derivedStatus
  disc : x.disc.mode = .running ↔ x.discrepant = true
  watch : x.watch.mode = .stopped ↔ x.watched = false

/-- Every element is lawful. -/
structure ElementLaw (s : State) : Prop where
  sections : ∀ x ∈ s.sections, x.Lawful
  points : ∀ x ∈ s.points, x.Lawful
  signals : ∀ x ∈ s.signals, x.Lawful

/-- Every holder, hold, entry-of and claim of a route names a route of the Active Route List (R57). -/
structure HolderLaw (s : State) : Prop where
  sections : ∀ x ∈ s.sections, ∀ r, x.holder = .route r ∨ x.holder = .overlap r → ∃ a ∈ s.routes, a.id = r
  points : ∀ x ∈ s.points, ∀ r p, x.hold = .route r p ∨ x.hold = .overlap r p → ∃ a ∈ s.routes, a.id = r
  entries : ∀ x ∈ s.signals, ∀ r, x.entryOf = some r → ∃ a ∈ s.routes, a.id = r
  pointClaims : ∀ x ∈ s.points, ∀ c ∈ x.claims, ∃ a ∈ s.routes, a.id = c.route
  signalClaims : ∀ x ∈ s.signals, ∀ c ∈ x.claims, ∃ a ∈ s.routes, a.id = c.route

/-- What R42 to R44 keep apart in one route record: its sections, its points and the indexes of its flank entries are distinct,
and those of a variant are distinct and none of the route's own. -/
structure RouteDef.Apart (d : RouteDef) : Prop where
  secs : d.secs.Nodup
  points : (d.points.map (·.point)).Nodup
  flanks : (d.flanks.map (·.index)).Nodup
  variants : ∀ v ∈ d.variants, v.secs.Nodup ∧ (v.points.map (·.point)).Nodup
    ∧ (∀ i ∈ v.secs, i ∉ d.secs) ∧ ∀ q ∈ v.points, ∀ p ∈ d.points, q.point ≠ p.point

/-- The locks of every active route stand (R57, R77): each unreleased route section and each point in it names the route as
primary holder, the point in the position required of it; so does each section and point of an overlap that is HELD; and a
STANDING flank entry has its claim in the set of its element. In LOADING no route is active (R55). -/
structure LockLaw (s : State) : Prop where
  ids : (s.routes.map (·.id)).Nodup
  loading : s.dev.state = .loading → s.routes = []
  store : ∀ d ∈ s.store, d.Apart
  sections : ∀ a ∈ s.routes, ∀ (j id : Nat), (s.defOf a.id).secs[j]? = some id → a.released[j]? = some false →
    ∃ x, s.section? id = some x ∧ x.holder = .route a.id
  points : ∀ a ∈ s.routes, ∀ q ∈ (s.defOf a.id).points, ∀ x, s.point? q.point = some x → ∀ j : Nat,
    (s.defOf a.id).secs[j]? = some x.sec → a.released[j]? = some false → x.hold = .route a.id q.pos
  overlapSections : ∀ a ∈ s.routes, a.overlap = .held → ∀ id ∈ overlapSecs (s.defOf a.id) a.variant,
    ∃ x, s.section? id = some x ∧ x.holder = .overlap a.id
  overlapPoints : ∀ a ∈ s.routes, a.overlap = .held → ∀ q ∈ overlapPoints (s.defOf a.id) a.variant,
    ∃ x, s.point? q.point = some x ∧ x.hold = .overlap a.id q.pos
  indexes : ∀ a ∈ s.routes, (a.flanks.map (·.index)).Nodup
  claims : ∀ a ∈ s.routes, ∀ f ∈ a.flanks, f.standing = true → match f.opt with
    | .point id _ => ∃ x, s.point? id = some x ∧ ⟨a.id, f.index⟩ ∈ x.claims
    | .signal id => ∃ x, s.signal? id = some x ∧ ⟨a.id, f.index⟩ ∈ x.claims

/-- Permission and entry-of agree with the routes (R57, R93, R104): permission names a route in PERMITTED whose entry the
signal is, every route in PERMITTED has it, the device then is IN_SERVICE and both channels are ACTIVE or PAUSED, and the
entry signal of a route not yet entered names the route. In LOADING no route is active (R55). -/
structure AuthorityLaw (s : State) : Prop where
  ids : (s.routes.map (·.id)).Nodup
  loading : s.dev.state = .loading → s.routes = []
  service : ∀ a ∈ s.routes, a.state = .permitted →
    s.dev.state = .inService ∧ ∀ ch, (s.chan ch).state = .active ∨ (s.chan ch).state = .paused
  names : ∀ g x r, s.signal? g = some x → x.perm = some r →
    ∃ a ∈ s.routes, a.id = r ∧ a.state = .permitted ∧ (s.defOf r).entry = g
  permitted : ∀ a ∈ s.routes, a.state = .permitted →
    ∃ x, s.signal? (s.defOf a.id).entry = some x ∧ x.perm = some a.id
  entry : ∀ a ∈ s.routes, a.state = .calling ∨ a.state = .locked ∨ a.state = .permitted →
    ∃ x, s.signal? (s.defOf a.id).entry = some x ∧ x.entryOf = some a.id

/-- The law of R96, with the condition of R94 on the entry signal: while a route is in PERMITTED, each route and overlap section
is agreed CLEAR, each route and overlap point is agreed in its required position, the element of each STANDING flank entry does
what its claim asks, the entry signal is fit, and the exit slot is in ACCEPTED. In every state of a route the satisfied flag of
a STANDING flank entry is what its claimed element gives (R82). -/
structure ProceedLaw (s : State) : Prop where
  satisfied : ∀ a ∈ s.routes, ∀ f ∈ a.flanks, f.standing = true → f.satisfied = optSatisfied s f.opt
  sections : ∀ a ∈ s.routes, a.state = .permitted → ∀ id ∈ allSecs (s.defOf a.id) a.variant,
    ∃ x, s.section? id = some x ∧ x.status = .clear
  points : ∀ a ∈ s.routes, a.state = .permitted → ∀ q ∈ allPoints (s.defOf a.id) a.variant,
    ∃ x, s.point? q.point = some x ∧ x.status = statusOfPos q.pos
  flank : ∀ a ∈ s.routes, a.state = .permitted → ∀ f ∈ a.flanks, f.standing = true → match f.opt with
    | .point id pos => ∃ x, s.point? id = some x ∧ x.status = statusOfPos pos
    | .signal id => ∃ x, s.signal? id = some x ∧ x.status = .danger ∧ x.faulted = false
  signal : ∀ a ∈ s.routes, a.state = .permitted → SignalFit s (s.defOf a.id).entry
  exit : ∀ a ∈ s.routes, a.state = .permitted → ∀ ref, a.exitSlot = some ref →
    ∃ x, s.slot? ref = some x ∧ x.outb = .accepted

/-- The claim sets (R75 to R78): at most 8 claims in a set and none twice; a point's set holds a position exactly while it is not
empty, every STANDING flank entry on the point asks for that position, and a primary hold on a claimed point has it. -/
structure ClaimLaw (s : State) : Prop where
  points : ∀ id x, s.point? id = some x → x.claims.length ≤ 8 ∧ x.claims.Nodup ∧ (x.claims = [] ↔ x.claimPos = none)
  holds : ∀ id x r p, s.point? id = some x → x.hold = .route r p ∨ x.hold = .overlap r p → x.claims ≠ [] →
    x.claimPos = some p
  shared : ∀ a ∈ s.routes, ∀ f ∈ a.flanks, f.standing = true → ∀ id p x, f.opt = .point id p → s.point? id = some x →
    x.claimPos = some p
  signals : ∀ id x, s.signal? id = some x → x.claims.length ≤ 8 ∧ x.claims.Nodup

/-- An entry reservation on a section names a slot over it whose inbound state is ACCEPTED, ACCEPTED_ISOLATED or RECEIVING
(R146 to R148). -/
structure ReservationLaw (s : State) : Prop where
  refs : (s.slots.map (·.ref)).Nodup
  entries : ∀ x ∈ s.sections, ∀ l i, x.holder = .entry l i →
    ∃ y ∈ s.slots, y.ref = ⟨l, i⟩ ∧ y.bsec = x.id
      ∧ (y.inb = .accepted ∨ y.inb = .acceptedIsolated ∨ y.inb = .receiving)

/-- The bounded stores: 64 events and a lost count of 65,535 in each queue (R157, R158), 16 half-requests with one entry
for a tag (R25), 32 active routes, each once (R55), and the four links (R121). -/
structure StoreLaw (s : State) : Prop where
  events : ∀ ch, (s.queue ch).records.length ≤ 64 ∧ (s.queue ch).lost ≤ 65535
  halves : s.table.length ≤ 16
  tags : (s.table.map (·.tag)).Nodup
  routes : s.routes.length ≤ 32
  ids : (s.routes.map (·.id)).Nodup
  links : s.links.map (·.id) = [0, 1, 2, 3]

/-- The channel records and the windows: the two channels are never PAUSED together (R35), the supervision timer runs in ACTIVE
alone and the pause limit timer in PAUSED alone (R34 to R37), and a window is suspended exactly while its awaited channel is
PAUSED, else it runs (R25, R30). -/
structure ChannelLaw (s : State) : Prop where
  paused : ¬ (s.chanA.state = .paused ∧ s.chanB.state = .paused)
  supervision : ∀ ch, (s.chan ch).supervision.mode = .running ↔ (s.chan ch).state = .active
  pauseLimit : ∀ ch, (s.chan ch).pauseLimit.mode = .running ↔ (s.chan ch).state = .paused
  windows : ∀ h ∈ s.table, h.window.mode = if (s.chan h.filler.other).state = .paused then .suspended else .running

/-- What an image configures of an element: id, the section of a point or the protected section of a signal, the
supervision time of a point (R1); and of the blocks: the Route Store (R41), the slots (R135), the links (R121), the internal
copy with its digest (R162), the area id and the braking rates (R45, R121, R177). -/
structure Layout where
  sections : List Nat
  points : List (Nat × Nat × Nat)
  signals : List (Nat × Nat)
  store : List RouteDef
  slots : List (SlotRef × Nat × Capability × Bool × Nat)
  links : List (Nat × Option LinkDef)
  copy : List Byte
  digest : Option Word
  area : Nat
  brakes : List Nat

/-- The configured part of the state (R1, R41, R121, R135, R162, R177). -/
def State.layout (s : State) : Layout :=
  { sections := s.sections.map (·.id), points := s.points.map (fun x => (x.id, x.sec, x.supTime))
    signals := s.signals.map (fun x => (x.id, x.protSec)), store := s.store
    slots := s.slots.map (fun x => (x.ref, x.bsec, x.cap, x.initHere, x.relTime))
    links := s.links.map (fun x => (x.id, x.conf)), copy := s.dev.copy, digest := s.dev.digest
    area := s.dev.area, brakes := s.dev.brakes }

end Sys2Proof.Machine
end

