-- ==== Sys2Proof/Certificates/Slice0/Obligations.lean ====
section
/-!
DEFINITION. The statements for the provers. A statement about a command ends in the next state that `exec` answers: what
the command's own effect writes stands as an explicit update, and `Reacts` says that beyond it only the units have acted on
the changes handed to them.
-/

open Sys2Proof Sys2Proof.Machine

/-! ## The step -/

/-- One step runs the command at the front of the queue on the state with the queue's rest; on an empty queue the
block idles (the idling is the model's choice, log 2). -/
def Obligations.StepRunsFrontCommand : Prop :=
  (∀ (c : Instr) (rest : List Instr) (s : State), s.pending = c :: rest → step s = exec c { s with pending := rest })
    ∧ ∀ s : State, s.pending = [] → step s = .next s

/-! ## Elements -/

/-- A section after a change of one view (R5, R6): its agreed status, its clearance timer and its discrepancy timer;
nothing else of the record changes. A timer stopped before its expiry shows 0 (log 49). -/
def Obligations.SectionFollowsViews : Prop :=
  ∀ (p4 p5 : Nat) (ch : Channel) (v : SecView) (x : SectionRec), (x.disc.mode = .running → x.discrepant = true) →
    x.view ch ≠ v →
    let y := x.withView p4 p5 ch v
    y.view ch = v ∧ y.view ch.other = x.view ch.other
      ∧ y.status = (if v = .clear ∧ x.view ch.other = .clear ∧ x.mask = false ∧ x.faulted = false then
          (if x.status = .occupied then (if p4 = 0 then .clear else .clearing) else x.status) else .occupied)
      ∧ (x.status = .occupied → y.status = .clearing → y.clearance = ⟨.running, p4⟩)
      ∧ (y.status = .occupied → y.clearance = ⟨.stopped, 0⟩)
      ∧ y.disc = (if ((v = .clear ∧ x.view ch.other = .occupied) ∨ (v = .occupied ∧ x.view ch.other = .clear))
          ∧ x.faulted = false then ⟨.running, p5⟩ else ⟨.stopped, 0⟩)
      ∧ { y with viewA := x.viewA, viewB := x.viewB, status := x.status, clearance := x.clearance, disc := x.disc } = x

/-- A point after a change of one view (R7, R8): MOVING while a move is in flight, else as views, mask and FAULTED
give it. A timer stopped before its expiry shows 0 (log 49). -/
def Obligations.PointFollowsViews : Prop :=
  ∀ (p6 : Nat) (ch : Channel) (v : PointView) (x : PointRec), x.view ch ≠ v →
    let y := x.withView p6 ch v
    y.view ch = v ∧ y.view ch.other = x.view ch.other
      ∧ y.status = (if x.move ≠ none then .moving else if x.mask = true ∨ x.faulted = true then .undetected
          else if v = .normal ∧ x.view ch.other = .normal then .normal
          else if v = .reverse ∧ x.view ch.other = .reverse then .reverse else .undetected)
      ∧ y.disc = (if x.move = none ∧ v ≠ .unknown ∧ x.view ch.other ≠ .unknown ∧ v ≠ x.view ch.other ∧ x.faulted = false
          then (if x.disc.mode = .running then x.disc else ⟨.running, p6⟩) else ⟨.stopped, 0⟩)
      ∧ { y with viewA := x.viewA, viewB := x.viewB, status := x.status, disc := x.disc } = x

/-- The agreed status of a signal in every combination of views and mask (R13). -/
def Obligations.SignalStatusTable : Prop :=
  ∀ x : SignalRec,
    x.derivedStatus =
      if (x.mask = true ∧ x.viewA ≠ .proceed ∧ x.viewB ≠ .proceed) ∨ (x.viewA = .danger ∧ x.viewB = .danger) then .danger
      else if x.viewA = .proceed ∨ x.viewB = .proceed then .proceed
      else if x.viewA = .dark ∨ x.viewB = .dark then .dark
      else .unproven

/-- A field report of any length from an ACTIVE channel (R4): it is answered DONE with the counts of items applied and
skipped; the channel's view of each element is what the last valid item for it reports; the other channel's views and
every fault, block and mask stay, and outside the elements and the units' own records nothing changes. A report of 1
to 32 items with ids in range (R151) from a PAUSED channel is answered DONE with every item skipped, and nothing
changes but its port (R4, R35). The command is the request's whole transfer up to its decision (log 1). -/
def Obligations.FieldReportSetsViews : Prop :=
  (∀ (ch : Channel) (tag : Byte) (items : List ReportItem) (s : State), (s.chan ch).crst = false →
    (s.chan ch).state = .paused → 1 ≤ items.length → items.length ≤ 32 →
    inRange .reportFieldStatus (items.flatMap itemBytes) = true →
    exec (.reportFieldStatus ch tag items) s = .next (respond ch .done tag (b1 0 ++ b1 items.length)
      (s.opened ⟨ch, .reportFieldStatus, tag, items.flatMap itemBytes⟩)))
  ∧ ∀ (ch : Channel) (tag : Byte) (items : List ReportItem) (s : State),
    Serves ⟨ch, .reportFieldStatus, tag, items.flatMap itemBytes⟩ s →
    let valid := (items.filter (fun i => itemValid s i.element.toNat i.state)).length
    Answers (.reportFieldStatus ch tag items) ⟨ch, .reportFieldStatus, tag, items.flatMap itemBytes⟩ s .done
      (b1 valid ++ b1 (items.length - valid))
      (fun u w => w.rest = u.rest ∧ w.layout = s.layout
        ∧ (∀ id x, s.section? id = some x → ∃ y, w.section? id = some y
          ∧ y.view ch = lastReport secViewOf items id (x.view ch) ∧ y.view ch.other = x.view ch.other
          ∧ y.faulted = x.faulted ∧ y.block = x.block ∧ y.mask = x.mask)
        ∧ (∀ id x, s.section? id = none → s.point? id = some x → ∃ y, w.point? id = some y
          ∧ y.view ch = lastReport pointViewOf items id (x.view ch) ∧ y.view ch.other = x.view ch.other
          ∧ y.faulted = x.faulted ∧ y.block = x.block ∧ y.mask = x.mask)
        ∧ (∀ id x, s.section? id = none → s.point? id = none → s.signal? id = some x → ∃ y, w.signal? id = some y
          ∧ y.view ch = lastReport signalViewOf items id (x.view ch) ∧ y.view ch.other = x.view ch.other
          ∧ y.faulted = x.faulted ∧ y.block = x.block ∧ y.mask = x.mask))

/-- One reported state of a section, of a signal, or of a point with no move in flight (R3, R4, R15): the view
change at that element, DETECTION_LOST where a point's agreed status goes from NORMAL or REVERSE to UNDETECTED
(R7), and otherwise only the units' reactions. A change of agreed status is handed to the Route Unit, the Permission Unit
and the Handover Unit or the Flank Unit, in some order; where the status stays, nothing is handed on (R15). The command is
the request's whole transfer up to its decision (log 1). DETECTION_LOST is queued with the change that R7 names (log
26). -/
def Obligations.OneReportedState : Prop :=
  ∀ (ch : Channel) (tag : Byte) (e : Half) (b : Byte) (s : State),
    let f : RequestFrame := ⟨ch, .reportFieldStatus, tag, itemBytes ⟨e, b⟩⟩
    Serves f s →
    (∀ x v, s.section? e.toNat = some x → secViewOf b = some v →
      Answers (.reportFieldStatus ch tag [⟨e, b⟩]) f s .done (b1 1 ++ b1 0)
        (fun u w => Reacts (u.mapSection e.toNat (SectionRec.withView (param 4 s) (param 5 s) ch v)) w))
    ∧ (∀ x v, s.section? e.toNat = none → s.point? e.toNat = none → s.signal? e.toNat = some x → signalViewOf b = some v →
      Answers (.reportFieldStatus ch tag [⟨e, b⟩]) f s .done (b1 1 ++ b1 0)
        (fun u w => Reacts (u.mapSignal e.toNat (SignalRec.withView (param 7 s) ch v)) w))
    ∧ (∀ x v, s.section? e.toNat = none → s.point? e.toNat = some x → x.move = none → pointViewOf b = some v →
      Answers (.reportFieldStatus ch tag [⟨e, b⟩]) f s .done (b1 1 ++ b1 0)
        (fun u w =>
          let t := u.mapPoint e.toNat (PointRec.withView (param 6 s) ch v)
          match x.status.pos? with
          | some p =>
            if x.view ch ≠ v ∧ (x.withView (param 6 s) ch v).status = .undetected then
              Reacts (emit (.detectionLost e.toNat p) t) w
            else Reacts t w
          | none => Reacts t w))
    ∧ (∀ x v, s.section? e.toNat = some x → secViewOf b = some v →
      Answers (.reportFieldStatus ch tag [⟨e, b⟩]) f s .done (b1 1 ++ b1 0)
        (fun u w =>
          let t := u.mapSection e.toNat (SectionRec.withView (param 4 s) (param 5 s) ch v)
          if (x.withView (param 4 s) (param 5 s) ch v).status = x.status then w = t
          else InSomeOrder [routesOnSection e.toNat x.status, permOn (.sec e.toNat), slotsOnSection e.toNat x.status] t w))
    ∧ (∀ x v, s.section? e.toNat = none → s.point? e.toNat = none → s.signal? e.toNat = some x → signalViewOf b = some v →
      Answers (.reportFieldStatus ch tag [⟨e, b⟩]) f s .done (b1 1 ++ b1 0)
        (fun u w =>
          let t := u.mapSignal e.toNat (SignalRec.withView (param 7 s) ch v)
          if (x.withView (param 7 s) ch v).status = x.status then w = t
          else InSomeOrder [permOn (.signals [e.toNat]), flanksOn e.toNat] t w))
    ∧ (∀ x v, s.section? e.toNat = none → s.point? e.toNat = some x → x.move = none → pointViewOf b = some v →
      Answers (.reportFieldStatus ch tag [⟨e, b⟩]) f s .done (b1 1 ++ b1 0)
        (fun u w =>
          let t := u.mapPoint e.toNat (PointRec.withView (param 6 s) ch v)
          let y := x.withView (param 6 s) ch v
          if y.status = x.status then w = t
          else InSomeOrder [routesOnPoint e.toNat, permOn (.point e.toNat), flanksOn e.toNat]
            (match x.status.pos? with
              | some p => if y.status = .undetected then emit (.detectionLost e.toNat p) t else t
              | none => t) w))

/-- A reported state of a point whose move is in flight (R10): nothing but the view changes until both views report
the target; then the move is done, its duration stored, MOVE_DONE queued and, where the slow-move test finds it,
POINT_SLOW after it; and the change is handed to the Route, Permission and Flank Units, in some order (R15, R60). The
command is the request's whole transfer up to its decision (log 1). A timer stopped before its expiry shows 0 (log
49). -/
def Obligations.MoveCompletesAtBothViews : Prop :=
  ∀ (ch : Channel) (tag : Byte) (e : Half) (b : Byte) (s : State) (x : PointRec) (m : Move) (v : PointView),
    let f : RequestFrame := ⟨ch, .reportFieldStatus, tag, itemBytes ⟨e, b⟩⟩
    Serves f s → s.section? e.toNat = none → s.point? e.toNat = some x → x.move = some m → pointViewOf b = some v →
    x.view ch ≠ v →
    Answers (.reportFieldStatus ch tag [⟨e, b⟩]) f s .done (b1 1 ++ b1 0)
      (fun u w =>
        let t := u.mapPoint e.toNat (PointRec.withView (param 6 s) ch v)
        let took := (s.dev.time - m.start).toNat
        let finished := emit (.moveDone e.toNat m.target took)
          (t.mapPoint e.toNat (fun y =>
            PointRec.derive (param 6 s) { y with move := none, moveTimer := ⟨.stopped, 0⟩, lastMove := took }))
        if v = viewOfPos m.target ∧ x.view ch.other = viewOfPos m.target then
          (if param 15 s * x.supTime < took * 100 then Reacts (emit (.pointSlow e.toNat took x.supTime) finished) w
           else Reacts finished w)
            ∧ InSomeOrder [routesOnPoint e.toNat, permOn (.point e.toNat), flanksOn e.toNat]
              (if param 15 s * x.supTime < took * 100 then emit (.pointSlow e.toNat took x.supTime) finished else finished) w
        else w = t)

/-- The timers of elements that run them expire. A section in CLEARING goes to CLEAR (R5). A discrepancy sets the
element FAULTED, a section with it OCCUPIED and a point UNDETECTED unless it is moving, and queues ELEMENT_FAULT (R6,
R8, R14, R16). A move in flight has failed: the point is FAULTED and UNDETECTED, and MOVE_FAILED is queued (R11).
FAULTED and a changed status are handed to the units, in some order; what a section going to CLEAR and a failed move
hand on stands in the last two clauses (R11, R15, R63). A section OCCUPIED already hands its FAULTED to the slots
(R146). A clearance timer that does not run has no expiry (log 25). An expiry is taken whenever the timer runs (log
3). A timer stopped before its expiry shows 0 (log 49). -/
def Obligations.ElementTimersExpire : Prop :=
  (∀ (id : Nat) (s : State) (x : SectionRec), s.section? id = some x →
      if x.status = .clearing ∧ x.clearance.mode = .running then
        ∃ t, exec (.clearanceTimerExpiry id) s = .next t
          ∧ Reacts (s.mapSection id (fun y =>
              if y.status = .clearing then { y with status := .clear, clearance := ⟨.stopped, 0⟩ } else y)) t
      else exec (.clearanceTimerExpiry id) s = .next s)
  ∧ ((∀ (id : Nat) (s : State) (x : SectionRec), s.section? id = some x → x.disc.mode = .running → x.faulted = false →
      let u := emit (.elementFault id) (s.mapSection id (fun y =>
        { y with faulted := true, status := .occupied, clearance := ⟨.stopped, 0⟩, disc := ⟨.stopped, 0⟩ }))
      ∃ t, exec (.sectionDiscrepancyExpiry id) s = .next t ∧ Reacts u t
        ∧ if x.status = .occupied then t = retestOver id u
          else InSomeOrder [routesOnSection id x.status, permOn (.sec id), slotsOnSection id x.status] u t)
    ∧ (∀ (id : Nat) (s : State) (x : PointRec), s.point? id = some x → x.disc.mode = .running → x.faulted = false →
      let u := emit (.elementFault id) (s.mapPoint id (fun y =>
        { y with faulted := true, status := if y.move = none then .undetected else .moving, disc := ⟨.stopped, 0⟩ }))
      ∃ t, exec (.pointDiscrepancyExpiry id) s = .next t ∧ Reacts u t
        ∧ InSomeOrder [routesOnPoint id, permOn (.point id), flanksOn id] u t)
    ∧ (∀ (id : Nat) (s : State) (x : SignalRec), s.signal? id = some x → x.disc.mode = .running → x.faulted = false →
      let u := emit (.elementFault id) (s.mapSignal id (fun y =>
        { y with faulted := true, status := y.derivedStatus, disc := ⟨.stopped, 0⟩, watch := y.watchTimer (param 7 s) }))
      ∃ t, exec (.signalDiscrepancyExpiry id) s = .next t ∧ Reacts u t
        ∧ InSomeOrder [permOn (.signals [id]), flanksOn id] u t))
  ∧ (∀ (id : Nat) (s : State) (x : PointRec) (m : Move), s.point? id = some x → x.move = some m →
      x.moveTimer.mode = .running →
      ∃ t, exec (.moveSupervisionExpiry id) s = .next t
        ∧ Reacts (emit (.moveFailed id m.target) (s.mapPoint id (fun y =>
            { y with faulted := true, move := none, moveTimer := ⟨.stopped, 0⟩, status := .undetected
                     disc := ⟨.stopped, 0⟩ }))) t)
  ∧ (∀ (id : Nat) (s : State) (x : SectionRec), s.section? id = some x → x.status = .clearing →
      x.clearance.mode = .running →
      ∃ t, exec (.clearanceTimerExpiry id) s = .next t
        ∧ InSomeOrder [routesOnSection id .clearing, permOn (.sec id), slotsOnSection id .clearing]
          (s.mapSection id (fun y =>
            if y.status = .clearing then { y with status := .clear, clearance := ⟨.stopped, 0⟩ } else y)) t)
  ∧ (∀ (id : Nat) (s : State) (x : PointRec) (m : Move), s.point? id = some x → x.move = some m →
      x.moveTimer.mode = .running →
      ∃ t, exec (.moveSupervisionExpiry id) s = .next t
        ∧ InSomeOrder [routesOnMoveFailed id m.target, permOn (.point id), flanksOn id]
          (emit (.moveFailed id m.target) (s.mapPoint id (fun y =>
            { y with faulted := true, move := none, moveTimer := ⟨.stopped, 0⟩, status := .undetected
                     disc := ⟨.stopped, 0⟩ }))) t)

/-- MOVE POINT by the table of R20: the first situation that applies gives the outcome; only the last issues a call,
which makes the point MOVING toward the target with its supervision started (R9), restarts a move the other way (R12),
and completes at once where both views already report the target; that a restarted move completes so too is the
model's choice (log 30). The change to MOVING, or the completion, is handed to the units, in some order (R15). The
command is the request's whole transfer up to its decision (log 1). The detail names the point (log 14). A timer
stopped before its expiry shows 0 (log 49). -/
def Obligations.MovePointTable : Prop :=
  ∀ (ch : Channel) (tag : Byte) (e : Half) (b : Byte) (p : Pos) (s : State),
    let c : Instr := .movePoint ch tag e b
    let f : RequestFrame := ⟨ch, .movePoint, tag, b2 e.toNat ++ [b]⟩
    Completes f s → posOf b = some p →
    match s.point? e.toNat with
    | none => Refuses c f s .notConfigured e.toNat
    | some x =>
      if x.hold ≠ .none ∨ x.claims ≠ [] then Refuses c f s .held e.toNat
      else if x.block = true then Refuses c f s .blocked e.toNat
      else if secStatusIs s x.sec .clear = false then Refuses c f s .occupied e.toNat
      else if x.faulted = true then Refuses c f s .faulted e.toNat
      else if x.status = statusOfPos p ∨ x.move.map (·.target) = some p then Refuses c f s .done 0
      else Concurs c f s .done 0 (fun u w =>
        let called := emit (.moveCall e.toNat p) (u.mapPoint e.toNat (fun y =>
          { y with move := some ⟨p, s.dev.time⟩, moveTimer := ⟨.running, y.supTime⟩, status := .moving
                   disc := ⟨.stopped, 0⟩ }))
        let after := if x.viewA = viewOfPos p ∧ x.viewB = viewOfPos p then
            emit (.moveDone e.toNat p 0) (called.mapPoint e.toNat (fun y =>
              PointRec.derive (param 6 s) { y with move := none, moveTimer := ⟨.stopped, 0⟩, lastMove := 0 }))
          else called
        Reacts after w ∧ InSomeOrder [routesOnPoint e.toNat, permOn (.point e.toNat), flanksOn e.toNat] after w)

/-- BLOCK ELEMENT and UNBLOCK ELEMENT are carried out for every configured element, whatever its holders, status or
move state, and the block of that element is the only thing the request itself changes (R18). INHIBIT SET and
INHIBIT CLEAR act at once on the agreed status where the mask changes, and on nothing where it does not (R19). A changed
block of a section is handed to the slots over it, and a changed mask to the units that read it, in some order (R15). The
command is the request's whole transfer up to its decision (log 1). -/
def Obligations.BlocksAndMasks : Prop :=
  (∀ (ch : Channel) (tag : Byte) (e : Half) (on : Bool) (s : State),
      let c : Instr := if on then .blockElement ch tag e else .unblockElement ch tag e
      let f : RequestFrame := ⟨ch, if on then .blockElement else .unblockElement, tag, b2 e.toNat⟩
      Completes f s →
      if configured s e.toNat = true then Concurs c f s .done 0 (fun u w =>
        (s.section? e.toNat ≠ none → Reacts (u.mapSection e.toNat (fun y => { y with block := on })) w)
          ∧ (∀ x, s.section? e.toNat = some x →
            let t := u.mapSection e.toNat (fun y => { y with block := on })
            w = if x.block = on then t else retestOver e.toNat t)
          ∧ (s.section? e.toNat = none →
            w = (u.mapPoint e.toNat (fun y => { y with block := on })).mapSignal e.toNat (fun y => { y with block := on })))
      else Refuses c f s .notConfigured 0)
  ∧ (∀ (ch : Channel) (tag : Byte) (e : Half) (on : Bool) (s : State),
      let c : Instr := if on then .inhibitSet ch tag e else .inhibitClear ch tag e
      let f : RequestFrame := ⟨ch, if on then .inhibitSet else .inhibitClear, tag, b2 e.toNat⟩
      Completes f s →
      match s.section? e.toNat, s.point? e.toNat, s.signal? e.toNat with
      | some x, _, _ => Concurs c f s .done 0 (fun u w =>
          let t := u.mapSection e.toNat (fun y => SectionRec.derive (param 4 s) (param 5 s) { y with mask := on })
          if x.mask = on then w = u
          else Reacts t w ∧ if (SectionRec.derive (param 4 s) (param 5 s) { x with mask := on }).status = x.status then w = t
            else InSomeOrder
              [routesOnSection e.toNat x.status, permOn (.sec e.toNat), slotsOnSection e.toNat x.status] t w)
      | none, some x, _ => Concurs c f s .done 0 (fun u w =>
          let t := u.mapPoint e.toNat (fun y => PointRec.derive (param 6 s) { y with mask := on })
          if x.mask = on then w = u
          else Reacts t w ∧ InSomeOrder [routesOnPoint e.toNat, permOn (.point e.toNat), flanksOn e.toNat] t w)
      | none, none, some x => Concurs c f s .done 0 (fun u w =>
          let t := u.mapSignal e.toNat (fun y => SignalRec.derive (param 7 s) { y with mask := on })
          if x.mask = on then w = u
          else Reacts t w ∧ InSomeOrder [permOn (.signals [e.toNat]), flanksOn e.toNat] t w)
      | none, none, none => Refuses c f s .notConfigured 0)

/-- ELEMENT RESTORE (R17): only a FAULTED element whose views agree is restored; FAULTED is cleared, the status is
derived again, ELEMENT_RESTORED follows the REQUEST_DONE, and the change is handed to the units that read it, in some
order (R15). The command is the request's whole transfer up to its
decision (log 1). -/
def Obligations.ElementRestores : Prop :=
  ∀ (ch : Channel) (tag : Byte) (e : Half) (s : State),
    let c : Instr := .elementRestore ch tag e
    let f : RequestFrame := ⟨ch, .elementRestore, tag, b2 e.toNat⟩
    Completes f s →
    match s.section? e.toNat, s.point? e.toNat, s.signal? e.toNat with
    | some x, _, _ =>
      if x.faulted = true ∧ x.viewA = .clear ∧ x.viewB = .clear then Concurs c f s .done 0 (fun u w =>
        let t := emit (.elementRestored e.toNat) (u.mapSection e.toNat (fun y =>
          SectionRec.derive (param 4 s) (param 5 s) { y with faulted := false }))
        Reacts t w ∧ if (SectionRec.derive (param 4 s) (param 5 s) { x with faulted := false }).status = x.status then
            w = retestOver e.toNat t
          else InSomeOrder [routesOnSection e.toNat x.status, permOn (.sec e.toNat), slotsOnSection e.toNat x.status] t w)
      else Refuses c f s .wrongState 0
    | none, some x, _ =>
      if x.faulted = true ∧ ((x.viewA = .normal ∧ x.viewB = .normal) ∨ (x.viewA = .reverse ∧ x.viewB = .reverse)) then
        Concurs c f s .done 0 (fun u w =>
          let t := emit (.elementRestored e.toNat) (u.mapPoint e.toNat (fun y =>
            PointRec.derive (param 6 s) { y with faulted := false }))
          Reacts t w ∧ InSomeOrder [routesOnPoint e.toNat, permOn (.point e.toNat), flanksOn e.toNat] t w)
      else Refuses c f s .wrongState 0
    | none, none, some x =>
      if x.faulted = true ∧ x.viewA = .danger ∧ x.viewB = .danger then Concurs c f s .done 0 (fun u w =>
        let t := emit (.elementRestored e.toNat) (u.mapSignal e.toNat (fun y =>
          SignalRec.derive (param 7 s) { y with faulted := false }))
        Reacts t w ∧ InSomeOrder [permOn (.signals [e.toNat]), flanksOn e.toNat] t w)
      else Refuses c f s .wrongState 0
    | none, none, none => Refuses c f s .notConfigured 0

/-! ## Channels, ports and the Concurrence Table -/

/-- A concurred half whose pair is not completed, by the tests of R24 and the table of R26 in their order:
NOT_IN_SERVICE, TAG_BUSY, CHANNEL_LOST, TABLE_FULL, HALF_HELD with its new entry (its window suspended at once
where the awaited channel is PAUSED), or DISAGREE with the entry removed. Which kind the event of a DISAGREE names
where the kinds differ is open (log 15). The command is the request's whole transfer up to its decision (log 1). -/
def Obligations.HalfIsDecidedByTable : Prop :=
  ∀ (c : Instr) (f : RequestFrame) (s : State), requestOf c = some f → isConcurred f.kind = true → Serves f s →
    if s.dev.state = .loading ∨ s.dev.state = .safeHalt
        ∨ (s.dev.state = .awaiting ∧ f.kind ≠ .acceptConfiguration ∧ f.kind ≠ .deviceReset) then
      Answers c f s .notInService [] (fun u w => w = u)
    else match s.table.find? (fun h => h.tag == f.tag) with
      | some h =>
        if h.filler = f.ch then Answers c f s .tagBusy [] (fun u w => w = u)
        else if h.kind = f.kind ∧ h.body = f.body then ∃ out detail, Concurs c f s out detail (fun _ _ => True)
        else Answers c f s .disagree [] (fun u w => ∃ k, (k = h.kind ∨ k = f.kind) ∧
          w = emit (.requestDone f.tag k .disagree 0)
            { u with table := u.table.filter (fun x => x.tag != f.tag)
                     disagreements := min 65535 (u.disagreements + 1), choices := w.choices, drawn := w.drawn })
      | none =>
        if (s.chan f.ch.other).state = .lost ∨ (s.chan f.ch.other).state = .absent then
          Answers c f s .channelLost [] (fun u w => w = u)
        else if 16 ≤ s.table.length then Answers c f s .tableFull [] (fun u w => w = u)
        else Answers c f s .halfHeld [] (fun u w => w = { u with table := u.table ++
          [{ tag := f.tag, filler := f.ch, kind := f.kind, body := f.body
             window := ⟨if (s.chan f.ch.other).state = .paused then .suspended else .running, param 1 s⟩ }] })

/-- Frames that reach no unit (R39, R150, R151): while CRST is asserted the port ignores them; a LOST channel is
answered CHANNEL_LOST; a field out of its range, from an ACTIVE or PAUSED channel, BAD_VALUE; a body of another
length BAD_LENGTH; and a concurred half of a PAUSED channel CHANNEL_PAUSED. The command is the request's whole
transfer up to its decision (log 1). -/
def Obligations.FramesTurnedAway : Prop :=
  ∀ (c : Instr) (f : RequestFrame) (s : State), requestOf c = some f → f.body.length ≤ 200 →
    if (s.chan f.ch).crst = true then exec c s = .next s
    else if lengthOk f.kind f.body.length = false then AnsweredAtPort c f s .badLength
    else if (s.chan f.ch).state = .lost then AnsweredAtPort c f s .channelLost
    else if inRange f.kind f.body = false then
      (((s.chan f.ch).state = .active → Answers c f s .badValue [] (fun u w => w = u))
        ∧ ((s.chan f.ch).state = .paused → AnsweredAtPort c f s .badValue))
    else if (s.chan f.ch).state = .paused ∧ isConcurred f.kind = true then
      (if s.dev.state = .loading ∨ s.dev.state = .safeHalt
          ∨ (s.dev.state = .awaiting ∧ f.kind ≠ .acceptConfiguration ∧ f.kind ≠ .deviceReset) then
        AnsweredAtPort c f s .notInService else AnsweredAtPort c f s .channelPaused)
    else True

/-- The window of an entry expires (R29): the entry is removed and REQUEST_DONE (LAPSED) queued to both channels. A
tag with no entry, or a window that does not run, gives nothing. The expiry is taken whenever the timer runs and
changes nothing when it does not (log 3, 25). -/
def Obligations.WindowLapses : Prop :=
  ∀ (tag : Byte) (s : State),
    match s.table.find? (fun h => h.tag == tag) with
    | some h =>
      if h.window.mode = .running then
        exec (.windowTimerExpiry tag) s =
          .next (emit (.requestDone tag h.kind .lapsed 0) { s with table := s.table.filter (fun x => x.tag != tag) })
      else exec (.windowTimerExpiry tag) s = .next s
    | none => exec (.windowTimerExpiry tag) s = .next s

/-- A channel enters LOST by its supervision timer or its pause limit (R34, R36, R37): its views become UNKNOWN at
once and the other channel's stay, every half-request is withdrawn with its event, oldest first, and CHANNEL_STATE
follows them. The change of state and the change of each element are then handed on, in some order (R15, R38, R98; log
10): an element whose status stays hands nothing on, and a point that loses its position queues DETECTION_LOST first
(R7; log 26). The expiry is taken whenever the timer runs and changes nothing when it does not (log 3, 25). A timer
stopped before its expiry shows 0 (log 49). -/
def Obligations.SilentChannelIsLost : Prop :=
  (∀ (ch : Channel) (s : State),
    let lost (cause : ChCause) : State :=
      emit (.channelState ch .lost cause)
        ({ emitAll (s.table.map (fun h : HalfRequest => Event.requestDone h.tag h.kind .withdrawn 0)) (viewsUnknown ch s) with
          table := [] }.setChan ch
          { s.chan ch with state := .lost, cause := some cause, supervision := ⟨.stopped, 0⟩, pauseLimit := ⟨.stopped, 0⟩ })
    let unknown (t : State) : Prop :=
      (∀ x ∈ t.sections, x.view ch = .unknown) ∧ (∀ x ∈ t.points, x.view ch = .unknown)
        ∧ (∀ x ∈ t.signals, x.view ch = .unknown) ∧ t.sections.map (·.view ch.other) = s.sections.map (·.view ch.other)
        ∧ t.points.map (·.view ch.other) = s.points.map (·.view ch.other)
        ∧ t.signals.map (·.view ch.other) = s.signals.map (·.view ch.other)
    (if (s.chan ch).state = .active ∧ (s.chan ch).supervision.mode = .running then
      ∃ t, exec (.supervisionTimerExpiry ch) s = .next t ∧ Reacts (lost .supervision) t ∧ unknown t
        ∧ InSomeOrder (s.lossWork ch) (lost .supervision) t
     else exec (.supervisionTimerExpiry ch) s = .next s)
    ∧ (if (s.chan ch).state = .paused ∧ (s.chan ch).pauseLimit.mode = .running then
      ∃ t, exec (.pauseLimitExpiry ch) s = .next t ∧ Reacts (lost .pauseLimit) t ∧ unknown t
        ∧ InSomeOrder (s.lossWork ch) (lost .pauseLimit) t
     else exec (.pauseLimitExpiry ch) s = .next s))
  ∧ (∀ (u : State) (x y : SectionRec), u.section? x.id = some y →
      (y.status = x.status → y.faulted = x.faulted → y.block = x.block → sectionChanged x u = u)
      ∧ (y.status ≠ x.status →
        InSomeOrder [routesOnSection x.id x.status, permOn (.sec x.id), slotsOnSection x.id x.status] u (sectionChanged x u)))
  ∧ (∀ (u : State) (x y : PointRec), u.point? x.id = some y →
      let same := y.viewA = x.viewA ∧ y.viewB = x.viewB
      (same → pointViewChanged x u = u)
      ∧ (y.move ≠ none → y.viewA = .unknown ∨ y.viewB = .unknown → pointViewChanged x u = u)
      ∧ (y.move = none → y.status = x.status → pointViewChanged x u = u)
      ∧ (¬ same → y.move = none → y.status ≠ x.status →
        InSomeOrder [routesOnPoint x.id, permOn (.point x.id), flanksOn x.id]
          (match x.status.pos? with
            | some p => if y.status = .undetected then emit (.detectionLost x.id p) u else u
            | none => u) (pointViewChanged x u)))
  ∧ ∀ (u : State) (x y : SignalRec), u.signal? x.id = some y →
      (y.status = x.status → y.faulted = x.faulted → y.mask = x.mask → signalChanged x u = u)
      ∧ (y.status ≠ x.status → InSomeOrder [permOn (.signals [x.id]), flanksOn x.id] u (signalChanged x u))

/-- CRST_X asserted (R39): the channel is ABSENT, its port, queue and views are initial, the table is emptied with its
events to the other queue alone, and CHANNEL_STATE follows them there; a response still being clocked out is abandoned
(log 44); the other queue keeps what it held (R161). The change of state and the change of each element are then
handed on, in some order (R38, R98). Two resets with nothing between them in time or in the first channel's queue, the
first line still asserted, may be asserted together, and a free value decides: both queues are then empty after both
(R39), else the second one's CHANNEL_STATE stands behind what the first channel's queue holds (R161; log 42). CRST_X
released changes the line alone. A timer stopped before its expiry shows 0 (log 49). -/
def Obligations.ChannelResetLine : Prop :=
  ∀ (ch : Channel) (s : State),
    let one := emitTo ch.other (.channelState ch .absent .channelReset)
      { (s.table.map (fun h : HalfRequest => Event.requestDone h.tag h.kind .withdrawn 0)).foldl (fun u e => emitTo ch.other e u)
          ((((viewsUnknown ch s).setChan ch
            { state := .absent, cause := some .channelReset, supervision := ⟨.stopped, 0⟩, pauseLimit := ⟨.stopped, 0⟩
              crst := true, resetMark := none }).setPort ch Port.initial).setQueue ch ⟨[], 0⟩) with table := [] }
    let meet := (s.chan ch.other).resetMark = some ⟨s.dev.time, s.queue ch.other⟩
    let u := if meet ∧ (s.pick 2).1 = 1 then one.setQueue ch.other ⟨[], 0⟩ else one
    (∃ t, exec (.crstAsserted ch) s = .next (t.setChan ch
          { t.chan ch with resetMark := some ⟨t.dev.time, t.queue ch⟩ })
      ∧ Reacts u t ∧ InSomeOrder (s.lossWork ch) u t
      ∧ (∀ x ∈ t.sections, x.view ch = .unknown) ∧ (∀ x ∈ t.points, x.view ch = .unknown)
      ∧ (∀ x ∈ t.signals, x.view ch = .unknown)
      ∧ ∀ (k : Nat) (c : List Nat), ∃ v w, exec (.crstAsserted ch.other)
          { t.setChan ch { t.chan ch with resetMark := some ⟨t.dev.time, t.queue ch⟩ } with choices := k :: c } = .next w
        ∧ Reacts v (w.setChan ch.other { w.chan ch.other with resetMark := none })
        ∧ v.queue ch.other = ⟨[], 0⟩
        ∧ v.queue ch = (if k % 2 = 1 then ⟨[], 0⟩
            else (t.queue ch).offer ch t.dev.time (.channelState ch.other .absent .channelReset))
        ∧ w.table = [] ∧ ∀ c, (w.chan c).state = .absent)
    ∧ exec (.crstReleased ch) s = .next (s.setChan ch { s.chan ch with crst := false, resetMark := none })

/-- PAUSE (R30, R35): taken while both channels are ACTIVE; supervision stops, the pause limit starts with P3, and the
running windows that await the channel are suspended with their time kept. RESUME undoes it (R36). Each change is
handed on (R38). Neither has an effect in another state. The command is the request's whole transfer up to its
decision (log 1). A timer stopped before its expiry shows 0 (log 49). -/
def Obligations.PauseAndResume : Prop :=
  ∀ (ch : Channel) (tag : Byte) (s : State), (s.chan ch).crst = false →
    let p : RequestFrame := ⟨ch, .pause, tag, []⟩
    let r : RequestFrame := ⟨ch, .resume, tag, []⟩
    let awaited (g : Timer → Timer) (u : State) : State :=
      { u with table := u.table.map (fun h => if h.filler = ch.other then { h with window := g h.window } else h) }
    ((s.chan ch).state = .active →
      (if (s.chan ch.other).state = .active then Answers (.pause ch tag) p s .done [] (fun u w =>
        let v := awaited (fun t => if t.mode = .running then ⟨.suspended, t.left⟩ else t)
          (emit (.channelState ch .paused .pause) (u.setChan ch
            { s.chan ch with state := .paused, cause := some .pause, supervision := ⟨.stopped, 0⟩
                             pauseLimit := ⟨.running, param 3 s⟩ }))
        Reacts v w ∧ InSomeOrder (channelWork ch) v w)
       else Answers (.pause ch tag) p s .otherPaused [] (fun u w => w = u))
      ∧ Answers (.resume ch tag) r s .wrongState [] (fun u w => w = u))
    ∧ ((s.chan ch).state = .paused →
      AnsweredAtPort (.pause ch tag) p s .wrongState
      ∧ ∃ w, exec (.resume ch tag) s = .next (respond ch .done tag [] w)
        ∧ let v := awaited (fun t => if t.mode = .suspended then ⟨.running, t.left⟩ else t)
            (emit (.channelState ch .active .resume) ((s.opened r).setChan ch
              { s.chan ch with state := .active, cause := some .resume, pauseLimit := ⟨.stopped, 0⟩
                               supervision := ⟨.running, param 2 s⟩ }))
          Reacts v w ∧ InSomeOrder (channelWork ch) v w)

/-- The first valid frame of an ABSENT channel, of any request, makes it ACTIVE and starts its supervision before the
frame is answered (R33, R151): CHANNEL_STATE stands first, the change is handed to the Permission Unit and the Handover
Unit, in some order (R38, R95), and the frame is then decided as the same
frame of an ACTIVE channel, PAUSE and halves of concurred requests included. READ STATUS is answered in that state. The
command is the request's whole transfer up to its decision (log 1). -/
def Obligations.FirstFrameActivates : Prop :=
  (∀ (c : Instr) (f : RequestFrame) (s : State), requestOf c = some f → (s.chan f.ch).crst = false →
    (s.chan f.ch).state = .absent → f.body.length ≤ 200 → lengthOk f.kind f.body.length = true →
    let u := emit (.channelState f.ch .active .firstFrame) ((s.opened f).setChan f.ch
      { s.chan f.ch with state := .active, cause := some .firstFrame, supervision := ⟨.running, param 2 s⟩ })
    ∃ v t, Reacts u v ∧ InSomeOrder (channelWork f.ch) u v
      ∧ (v.chan f.ch).state = .active ∧ exec c s = exec c v ∧ exec c s = .next t)
  ∧ ∀ (ch : Channel) (tag : Byte) (s : State), (s.chan ch).crst = false → (s.chan ch).state = .absent →
    let u := emit (.channelState ch .active .firstFrame) ((s.opened ⟨ch, .readStatus, tag, []⟩).setChan ch
      { s.chan ch with state := .active, cause := some .firstFrame, supervision := ⟨.running, param 2 s⟩ })
    ∃ w, exec (.readStatus ch tag) s = .next (respond ch .done tag (statusBytes w) w)
      ∧ Reacts u w ∧ InSomeOrder (channelWork ch) u w

/-- The reads of R74, R153 and R154 from an ACTIVE or a PAUSED channel (R35): the response carries the record asked for, or
the refusal where there is none, and nothing else changes; the supervision timer of a PAUSED channel stays as it is. The command is the request's whole transfer up to its
decision (log 1). The layouts of the bodies follow R172 and log 12, 13, 40. -/
def Obligations.ReadsChangeNothing : Prop :=
  ∀ (ch : Channel) (tag : Byte) (s : State), (s.chan ch).crst = false →
    (s.chan ch).state = .active ∨ (s.chan ch).state = .paused →
    (∀ e : Half, e.toNat < 512 →
      let f : RequestFrame := ⟨ch, .readElement, tag, b2 e.toNat⟩
      match s.section? e.toNat, s.point? e.toNat, s.signal? e.toNat with
      | some x, _, _ => Answers (.readElement ch tag e) f s .done (sectionBytes x) (fun u w => w = u)
      | none, some x, _ => Answers (.readElement ch tag e) f s .done (pointBytes x) (fun u w => w = u)
      | none, none, some x => Answers (.readElement ch tag e) f s .done (signalBytes x) (fun u w => w = u)
      | none, none, none => Answers (.readElement ch tag e) f s .notConfigured [] (fun u w => w = u))
    ∧ (∀ r : Byte, match s.route? r.toNat with
      | some a => Answers (.readRoute ch tag r) ⟨ch, .readRoute, tag, [r]⟩ s .done (routeBytes s a) (fun u w => w = u)
      | none => Answers (.readRoute ch tag r) ⟨ch, .readRoute, tag, [r]⟩ s .notActive [] (fun u w => w = u))
    ∧ Answers (.readRoutes ch tag) ⟨ch, .readRoutes, tag, []⟩ s .done (routesBytes s) (fun u w => w = u)
    ∧ (∀ l i : Byte, l.toNat < 4 → i.toNat < 8 → match s.slot? ⟨l.toNat, i.toNat⟩ with
      | some x => Answers (.readSlot ch tag l i) ⟨ch, .readSlot, tag, [l, i]⟩ s .done (slotRecBytes x) (fun u w => w = u)
      | none => Answers (.readSlot ch tag l i) ⟨ch, .readSlot, tag, [l, i]⟩ s .notConfigured [] (fun u w => w = u))
    ∧ (∀ l : Byte, l.toNat < 4 → ∀ x, s.link? l.toNat = some x →
      Answers (.readLink ch tag l) ⟨ch, .readLink, tag, [l]⟩ s .done (linkBytes x) (fun u w => w = u))
    ∧ (s.dev.active ≠ [] →
      Answers (.readParameters ch tag) ⟨ch, .readParameters, tag, []⟩ s .done (paramBytes s) (fun u w => w = u))
    ∧ (s.dev.active = [] →
      Answers (.readParameters ch tag) ⟨ch, .readParameters, tag, []⟩ s .wrongState [] (fun u w => w = u))
    ∧ Answers (.readStatus ch tag) ⟨ch, .readStatus, tag, []⟩ s .done
      (statusBytes (s.served ⟨ch, .readStatus, tag, []⟩)) (fun u w => w = u)

/-- READ EVENTS of an ACTIVE or a PAUSED channel takes at most the oldest `n` records and leaves the queue as it is;
at the end of the response exactly those are removed, and a further end of the same response removes nothing more
(R159). The lost count stays. In every state the attention line of a channel is asserted exactly while its queue is
not empty (R160). The command is the request's whole transfer up to its decision (log 1). -/
def Obligations.EventsAreReadOnce : Prop :=
  (∀ (s : State) (ch : Channel), s.atn ch = true ↔ (s.queue ch).records ≠ [])
  ∧ ∀ (ch : Channel) (tag n : Byte) (s : State), (s.chan ch).crst = false →
    (s.chan ch).state = .active ∨ (s.chan ch).state = .paused →
    1 ≤ n.toNat → n.toNat ≤ 8 →
    ∃ t u, exec (.readEvents ch tag n) s = .next t ∧ exec (.eventRecordsRemoved ch) t = .next u
      ∧ (t.port ch).response = some ⟨.done, tag, eventsBody ch n.toNat s⟩
      ∧ (∀ c, t.queue c = s.queue c) ∧ t.queue ch.other = u.queue ch.other
      ∧ u.queue ch = { records := (s.queue ch).records.drop n.toNat, lost := (s.queue ch).lost }
      ∧ ∃ v, exec (.eventRecordsRemoved ch) u = .next v ∧ v.queue ch = u.queue ch

/-- Select rises (R149, R152): the port returns to IDLE with nothing kept but its count of bad frames, which an
incomplete request in REQUEST increases by one, to 255 at most; a transfer that carried a DEVICE RESET leaves the port
initial (R40). While CRST is asserted the port ignores it. What the port drives on data out until then (R149, R172,
R173): two fill bytes in DECIDE, the response frame with its CRC, then fill bytes; fill bytes alone in IDLE, in REQUEST
and while CRST is asserted. That a rise at an idle port counts nothing is log 7's. -/
def Obligations.SelectRiseEndsTransfer : Prop :=
  (∀ (ch : Channel) (s : State),
    if (s.chan ch).crst = true then exec (.selectRise ch) s = .next s
    else exec (.selectRise ch) s = .next (s.setPort ch
      { phase := .idle, bytes := [], response := none, taken := 0, resetOnEnd := false
        badFrames := if (s.port ch).phase = .request then min 255 ((s.port ch).badFrames + 1)
          else if (s.port ch).resetOnEnd = true then 0 else (s.port ch).badFrames }))
  ∧ (∀ (ch : Channel) (s : State) (k : Nat),
      (s.chan ch).crst = true ∨ (s.port ch).phase = .idle ∨ (s.port ch).phase = .request → s.dataOut ch k = 0xFF)
  ∧ ∀ (ch : Channel) (s : State) (r : Response), (s.chan ch).crst = false →
      (s.port ch).phase = .decide ∨ (s.port ch).phase = .response → (s.port ch).response = some r →
      let head := b1 r.body.length ++ b1 (statusCode r.status) ++ [r.tag] ++ r.body
      let frame := head ++ b2 (crc16 head)
      s.dataOut ch 0 = 0xFF ∧ s.dataOut ch 1 = 0xFF ∧ (∀ i b, frame[i]? = some b → s.dataOut ch (i + 2) = b)
        ∧ ∀ i, frame.length ≤ i → s.dataOut ch (i + 2) = 0xFF

/-- Raw bytes that are no valid frame (R149, R150, R173): an incomplete frame waits in REQUEST; a complete one of
more than 200 body bytes or with another CRC is answered BAD_FRAME and counted; one of an unknown kind
UNKNOWN_KIND; one of a length that its kind does not have BAD_LENGTH. None of them reaches a unit or changes the
channel. The raw bytes are an operand (log 9), and a transfer still open has ended before they come (log 1). -/
def Obligations.InvalidFramesAreAnswered : Prop :=
  ∀ (ch : Channel) (len k tag : Byte) (rest : List Byte) (s : State), (s.chan ch).crst = false →
    let bytes := len :: k :: tag :: rest
    let open' (ph : Phase) (bs : List Byte) (bad : Nat) : State :=
      s.setPort ch { (s.port ch).between with
        phase := ph, bytes := bs, response := none, taken := 0, resetOnEnd := false, badFrames := bad }
    let bad := (s.port ch).between.badFrames
    let frame := bytes.take (len.toNat + 5)
    if bytes.length < len.toNat + 5 then exec (.invalidRequestFrame ch bytes) s = .next (open' .request bytes bad)
    else if 200 < len.toNat ∨ half frame (len.toNat + 3) ≠ crc16 (frame.take (len.toNat + 3)) then
      exec (.invalidRequestFrame ch bytes) s =
        .next (respond ch .badFrame tag [] (open' .decide frame (min 255 (bad + 1))))
    else match kindOfByte k with
      | none => exec (.invalidRequestFrame ch bytes) s = .next (respond ch .unknownKind tag [] (open' .decide frame bad))
      | some q => lengthOk q len.toNat = false →
        exec (.invalidRequestFrame ch bytes) s = .next (respond ch .badLength tag [] (open' .decide frame bad))

/-- An event offered to a queue of at most 64 records, by the table of R158, and the count it keeps: an empty queue
accounts for no event; below saturation every offer adds one to the events accounted for; and the records that a
read removes from the oldest end account for what the rest no longer does. -/
def Obligations.EventOffersAreCounted : Prop :=
  ∀ (q : EventQueue) (ch : Channel) (now : Word) (e : Event), q.records.length ≤ 64 → (∀ c n, e ≠ .lost c n) →
    let r := q.offer ch now e
    (if q.records.length = 64 then r = { records := q.records, lost := min (q.lost + 1) 65535 }
     else if q.lost = 0 then r = { records := q.records ++ [⟨e, now⟩], lost := 0 }
     else if q.records.length ≤ 62 then r = { records := q.records ++ [⟨.lost ch q.lost, now⟩, ⟨e, now⟩], lost := 0 }
     else r = { records := q.records ++ [⟨.lost ch q.lost, now⟩], lost := 1 })
    ∧ r.records.length ≤ 64 ∧ (q.lost ≤ 65535 → r.lost ≤ 65535) ∧ EventQueue.empty.account = 0
    ∧ (q.lost < 65535 → r.account = q.account + 1)
    ∧ ∀ k, q.account = EventQueue.account ⟨q.records.take k, 0⟩ + EventQueue.account ⟨q.records.drop k, q.lost⟩

/-! ## Routes -/

/-- The refusals of SET ROUTE in the order of R46 to R48 up to the first section or point that fails, and of R49
for the exit: each leaves nothing but its REQUEST_DONE (R51). A re-request carries out R53 instead. The command is
the request's whole transfer up to its decision (log 1). The details are those of R27 (log 14). -/
def Obligations.SetRouteExamination : Prop :=
  ∀ (ch : Channel) (tag r v : Byte) (s : State),
    let c : Instr := .setRoute ch tag r v
    let f : RequestFrame := ⟨ch, .setRoute, tag, [r, v]⟩
    Completes f s →
    match s.def? r.toNat with
    | none => Refuses c f s .notConfigured r.toNat
    | some d =>
      if d.variants ≠ [] ∧ d.variants.length ≤ v.toNat then Refuses c f s .badVariant v.toNat
      else match s.route? r.toNat with
        | some a =>
          if a.state = .locked ∧ a.grantAllowed = false then
            Concurs c f s .done 0 (fun u w =>
              Reacts (u.mapRoute r.toNat (fun y => { y with grantAllowed := true })) w
                ∧ w = permOn (.route r.toNat) (u.mapRoute r.toNat (fun y => { y with grantAllowed := true })))
          else Refuses c f s .alreadyActive r.toNat
        | none =>
          let var := if d.variants = [] then none else some v.toNat
          ∀ g, s.signal? d.entry = some g →
            if g.entryOf ≠ none then Refuses c f s .signalBusy d.entry
            else if g.claims ≠ [] then Refuses c f s .held d.entry
            else if g.block = true then Refuses c f s .blocked d.entry
            else if g.faulted = true then Refuses c f s .faulted d.entry
            else if 32 ≤ s.routes.length then Refuses c f s .listFull 0
            else
              (∀ before id after x, allSecs d var = before ++ id :: after → (∀ i ∈ before, SectionReady s i) →
                s.section? id = some x →
                (x.holder ≠ .none → Refuses c f s .held id)
                ∧ (x.holder = .none → x.block = true → Refuses c f s .blocked id)
                ∧ (x.holder = .none → x.block = false → x.faulted = true → Refuses c f s .faulted id))
              ∧ ((∀ i ∈ allSecs d var, SectionReady s i) →
                (∀ before q after x, allPoints d var = before ++ q :: after → (∀ p ∈ before, PointReady s p) →
                  s.point? q.point = some x →
                  let claimed := x.claims ≠ [] ∧ x.claimPos ≠ some q.pos
                  (x.hold ≠ .none ∨ claimed → Refuses c f s .held q.point)
                  ∧ (x.hold = .none → ¬ claimed → x.faulted = true → Refuses c f s .faulted q.point)
                  ∧ (x.hold = .none → ¬ claimed → x.faulted = false → ¬ PointAt x q.pos → x.block = true →
                    Refuses c f s .blocked q.point)
                  ∧ (x.hold = .none → ¬ claimed → x.faulted = false → ¬ PointAt x q.pos → x.block = false →
                    secStatusIs s x.sec .clear = false → Refuses c f s .occupied q.point))
                ∧ ((∀ q ∈ allPoints d var, PointReady s q) → ∀ ref x, d.exit = .boundary ref → s.slot? ref = some x →
                  (x.permit ≠ .heldHere → Refuses c f s .noPermit (ref.link * 256 + ref.idx))
                  ∧ (x.permit = .heldHere → x.block = true → Refuses c f s .blocked (ref.link * 256 + ref.idx))))

/-- When a flank option is obtainable, with the options `chosen` for earlier entries of the same request, and the
choice: entry by entry the first obtainable option; the first entry with none gives its index (R49). -/
def Obligations.FirstObtainableOption : Prop :=
  (∀ (s : State) (d : RouteDef) (v : Option Nat) (chosen : List FlankRec),
      (∀ id pos, obtainable s d v chosen (.point id pos) = true ↔ ∃ x, s.point? id = some x
        ∧ (match (allPoints d v).find? (fun q => q.point == id) with
            | some q => q.pos = pos
            | none => x.hold = .none)
        ∧ (x.claims = [] ∨ x.claimPos = some pos)
        ∧ (∀ f ∈ chosen, f.opt.element = id → f.opt = .point id pos)
        ∧ x.claims.length + (chosen.filter (fun f => f.opt.element == id)).length < 8
        ∧ x.faulted = false
        ∧ (PointAt x pos ∨ (x.block = false ∧ secStatusIs s x.sec .clear = true)))
      ∧ (∀ id, obtainable s d v chosen (.signal id) = true ↔ ∃ x, s.signal? id = some x
        ∧ x.perm = none ∧ (∀ a ∈ s.routes, a.state = .permitted → (s.defOf a.id).entry ≠ id)
        ∧ x.claims.length + (chosen.filter (fun f => f.opt.element == id)).length < 8))
  ∧ (∀ (s : State) (d : RouteDef) (v : Option Nat) (entries : List FlankDef),
      (∀ flanks opts, chooseFlanks s d v entries [] [] = .ok (flanks, opts) →
        flanks.length = entries.length ∧ opts.length = entries.length
        ∧ ∀ i e, entries[i]? = some e → ∃ k o, opts[i]? = some (k + 1) ∧ e.options[k]? = some o
          ∧ flanks[i]? = some ⟨e.index, e.guard, o, true, optSatisfied s o⟩
          ∧ obtainable s d v (flanks.take i) o = true
          ∧ ∀ j o', j < k → e.options[j]? = some o' → obtainable s d v (flanks.take i) o' = false)
      ∧ (∀ index, chooseFlanks s d v entries [] [] = .error index →
        ∃ before e after flanks opts, entries = before ++ e :: after ∧ e.index = index
          ∧ chooseFlanks s d v before [] [] = .ok (flanks, opts)
          ∧ ∀ o ∈ e.options, obtainable s d v flanks o = false))

/-- SET ROUTE with steps 1 to 5 passed (R49, R50, R55, R56, R59, R77): an entry without an obtainable option refuses
it NO_FLANK; else every section, point, entry signal and flank option is taken in one change, the record stands at the
newest end of the list, and ROUTE_STATE (CALLING) and the move calls follow in order before anything else. Then each
call and the claims on signals are handed on, in some order (R15, R22), and the proving test comes last (R60, R61):
with every point in position the route enters LOCKED in the same decision. A call whose point both views already
report at the target completes at once, as any move that is done (R9, R10); any other hands its change to MOVING on.
The command is the request's whole transfer up to its decision (log 1). The order of what the units do after the calls
is free (log 4); all calls stand before what completes at once, and the proving test after it (log 32), and the time
and flag of a release timer not yet started are 0 and clear (log 33). A timer stopped before its expiry shows 0 (log
49). -/
def Obligations.SetRouteTakes : Prop :=
  (∀ (id : Nat) (s : State),
    (s.point? id = none → settleCall id s = s)
    ∧ ∀ x, s.point? id = some x →
      (x.move = none → settleCall id s = s)
      ∧ ∀ m, x.move = some m →
        let took := (s.dev.time - m.start).toNat
        let finished := emit (.moveDone id m.target took) (s.mapPoint id (fun y =>
          PointRec.derive (param 6 s) { y with move := none, moveTimer := ⟨.stopped, 0⟩, lastMove := took }))
        let after := if x.viewA = viewOfPos m.target ∧ x.viewB = viewOfPos m.target then
            (if param 15 s * x.supTime < took * 100 then emit (.pointSlow id took x.supTime) finished else finished)
          else s
        InSomeOrder [routesOnPoint id, permOn (.point id), flanksOn id] after (settleCall id s))
  ∧ ∀ (ch : Channel) (tag r v : Byte) (s : State) (d : RouteDef),
    let c : Instr := .setRoute ch tag r v
    let f : RequestFrame := ⟨ch, .setRoute, tag, [r, v]⟩
    let var := if d.variants = [] then none else some v.toNat
    Completes f s → s.def? r.toNat = some d → (d.variants = [] ∨ v.toNat < d.variants.length) →
    s.route? r.toNat = none → EntryReady s d.entry → s.routes.length < 32 →
    (∀ i ∈ allSecs d var, SectionReady s i) → (∀ q ∈ allPoints d var, PointReady s q) → ExitReady s d →
    match chooseFlanks s d var d.flanks [] [] with
    | .error index => Refuses c f s .noFlank index
    | .ok (flanks, opts) => Concurs c f s .done 0 (fun u w =>
        let claimsOn (o : FlankOpt → Bool) : List Claim :=
          (flanks.filter (fun g => o g.opt)).map (fun g => ⟨r.toNat, g.index⟩)
        let taken : State := { u with
          sections := u.sections.map (fun x => { x with
            holder := if x.id ∈ d.secs then .route r.toNat else if x.id ∈ overlapSecs d var then .overlap r.toNat
              else x.holder })
          points := u.points.map (fun x => { x with
            hold := (match d.points.find? (fun q => q.point == x.id), (overlapPoints d var).find? (fun q => q.point == x.id) with
              | some q, _ => .route r.toNat q.pos
              | none, some q => .overlap r.toNat q.pos
              | none, none => x.hold)
            claims := x.claims ++ claimsOn (fun o => o == .point x.id .normal || o == .point x.id .reverse)
            claimPos := ((flanks.filterMap (fun g => match g.opt with
              | .point id pos => if id = x.id then some pos else none
              | .signal _ => none)).getLast?).or x.claimPos })
          signals := u.signals.map (fun x => { x with
            entryOf := if x.id = d.entry then some r.toNat else x.entryOf
            claims := x.claims ++ claimsOn (fun o => o == .signal x.id) })
          routes := u.routes ++ [{
            id := r.toNat, variant := var, state := .calling, permittedBefore := false, grantAllowed := true, cursor := 1
            released := d.secs.map (fun _ => false), marks := d.secs.map (fun _ => false), received := false
            gapped := false, transitLost := false, overlap := if var = none then .none else .held, options := opts, setting := ⟨.running, param 11 s⟩
            overlapTimer := ⟨.stopped, 0⟩, release := ⟨.stopped, 0⟩, releaseT := 0, saturated := false
            exitSlot := (match d.exit with
              | .boundary ref => some ref
              | .signal _ => none)
            flanks := flanks }] }
        let needed := allPoints d var ++ flanks.filterMap (fun g => match g.opt with
          | .point id pos => some ⟨id, pos⟩
          | .signal _ => none)
        let called := (needed.eraseDupsBy (fun p q => p.point == q.point)).filter (fun q =>
          match s.point? q.point with
          | some x => x.status != statusOfPos q.pos && x.move.map (·.target) != some q.pos
          | none => false)
        let calling := called.foldl (fun t q => emit (.moveCall q.point q.pos) (t.mapPoint q.point (fun y =>
            { y with move := some ⟨q.pos, s.dev.time⟩, moveTimer := ⟨.running, y.supTime⟩, status := .moving
                     disc := ⟨.stopped, 0⟩ })))
          (emit (.routeState r.toNat (.state .calling) .set 0) taken)
        let guards := flanks.filterMap (fun g => match g.opt with
          | .signal id => some id
          | .point _ _ => none)
        Settles calling w
          ∧ ∃ t, InSomeOrder (called.map (fun q => settleCall q.point) ++ [permOn (.signals guards)]) calling t
            ∧ w = testProven r.toNat t)

/-- CANCEL ROUTE by the table of R70 and EMERGENCY RELEASE by the table of R115: a granted permission is withdrawn
first (R97). Released at once, every hold, claim and the record go in one change with ROUTE_STATE (RELEASED,
CANCELLED) (R71), and the drops are handed on. In APPROACH_HELD (R113) and EMERGENCY_TIMING the release timer starts with the computed time and
RELEASE_TIMING is queued. The command is the request's whole transfer up to its decision (log 1). -/
def Obligations.RouteIsGivenUp : Prop :=
  (∀ (ch : Channel) (tag r : Byte) (s : State),
      let c : Instr := .cancelRoute ch tag r
      let f : RequestFrame := ⟨ch, .cancelRoute, tag, [r]⟩
      Completes f s →
      match s.def? r.toNat with
      | none => Refuses c f s .notConfigured 0
      | some d => match s.route? r.toNat with
        | none => Refuses c f s .notActive 0
        | some a =>
          let clear := ∀ i ∈ d.approach, secStatusIs s i .clear = true
          let atOnce := Concurs c f s .done 0 (fun u w =>
            Reacts (emit (.routeState r.toNat .released .cancelled 0)
              ((u.unpermitted d.entry r.toNat .cancelled).without r.toNat)) w
            ∧ Removes a .released .cancelled 0 .none (u.unpermitted d.entry r.toNat .cancelled) w)
          let held := Concurs c f s .done 0 (fun u w =>
            let t := emit (.routeState r.toNat (.state .approachHeld) .cancelled 0)
              ((u.unpermitted d.entry r.toNat .cancelled).mapRoute r.toNat (fun y => { y with state := .approachHeld }))
            let time := releaseTime s r.toNat
            w = emit (.releaseTiming r.toNat time.1 time.2) (t.mapRoute r.toNat (fun y =>
              { y with release := ⟨.running, time.1⟩, releaseT := time.1, saturated := time.2 })))
          match a.state with
          | .calling => atOnce
          | .locked => (a.permittedBefore = false ∨ clear → atOnce) ∧ (a.permittedBefore = true → ¬ clear → held)
          | .permitted => (clear → atOnce) ∧ (¬ clear → held)
          | .entered => Refuses c f s .trainOnRoute 0
          | .approachHeld => Refuses c f s .wrongState 0
          | .emergencyTiming => Refuses c f s .wrongState 0)
  ∧ (∀ (ch : Channel) (tag r : Byte) (s : State),
      let c : Instr := .emergencyRelease ch tag r
      let f : RequestFrame := ⟨ch, .emergencyRelease, tag, [r]⟩
      Completes f s →
      match s.def? r.toNat with
      | none => Refuses c f s .notConfigured 0
      | some d => match s.route? r.toNat with
        | none => Refuses c f s .notActive 0
        | some a =>
          if a.state = .locked ∨ a.state = .permitted ∨ a.state = .entered then
            Concurs c f s .done 0 (fun u w =>
              let t := emit (.routeState r.toNat (.state .emergencyTiming) .emergency 0)
                ((u.unpermitted d.entry r.toNat .emergency).mapRoute r.toNat (fun y => { y with state := .emergencyTiming }))
              let time := releaseTime s r.toNat
              w = emit (.releaseTiming r.toNat time.1 time.2) (t.mapRoute r.toNat (fun y =>
                { y with release := ⟨.running, time.1⟩, releaseT := time.1, saturated := time.2 })))
          else Refuses c f s .wrongState 0)

/-- SET APPROACH SPEED by the table of R117: the restriction stored for the id, the outcome, and the detail that
carries it; restrictions of other ids and everything else stay. The command is the request's whole transfer up to
its decision (log 1). -/
def Obligations.ApproachSpeedTable : Prop :=
  ∀ (ch : Channel) (tag r n : Byte) (s : State),
    let c : Instr := .setApproachSpeed ch tag r n
    let f : RequestFrame := ⟨ch, .setApproachSpeed, tag, [r, n]⟩
    Completes f s →
    if s.def? r.toNat = none then Refuses c f s .notConfigured 0
    else
      let stored := if n.toNat = 0 then 0 else if 250 < n.toNat then 250 else (n.toNat + 4) / 5 * 5
      let exact := n.toNat = 0 ∨ (n.toNat ≤ 250 ∧ n.toNat % 5 = 0)
      Concurs c f s (if exact then .done else .clamped) stored (fun u w =>
        restriction w r.toNat = (if stored = 0 then none else some stored)
        ∧ (∀ q, q ≠ r.toNat → restriction w q = restriction u q)
        ∧ { w with speeds := u.speeds } = u)

/-- The timers of a route that runs them: the setting timer abandons a route in CALLING (R62, R65), the release timer
releases one in APPROACH_HELD or EMERGENCY_TIMING (R114, R116), each with its drops handed on, to an exit slot with
cause EMERGENCY where emergency timing ends (R144, R145), and the overlap timer releases a HELD overlap with the
claims that guard it, and hands the drops on, in some order (R22, R86, R112). In WHOLE mode R87 keeps those claims
until the whole release, against R86 and R112: there a free choice decides, and it is drawn for nothing else (log 34).
The expiry is taken whenever the timer runs and changes nothing when it does not (log 3, 25). -/
def Obligations.RouteTimersExpire : Prop :=
  ∀ (r : Nat) (s : State) (a : ActiveRoute), s.route? r = some a →
    (if a.setting.mode = .running ∧ a.state = .calling then ∃ t, exec (.settingTimerExpiry r) s = .next t
        ∧ Reacts (emit (.routeState r .abandoned .settingTime 0) (s.without r)) t
        ∧ Removes a .abandoned .settingTime 0 .none s t
     else exec (.settingTimerExpiry r) s = .next s)
    ∧ (if a.release.mode = .running ∧ (a.state = .approachHeld ∨ a.state = .emergencyTiming) then
        ∃ t, exec (.releaseTimerExpiry r) s = .next t
          ∧ Reacts (emit (.routeState r .released
              (if a.state = .approachHeld then .releaseTimer else .emergency) 0) (s.without r)) t
          ∧ Removes a .released (if a.state = .approachHeld then .releaseTimer else .emergency) 0
            (if a.state = .approachHeld then .none else .emergency) s t
     else exec (.releaseTimerExpiry r) s = .next s)
    ∧ (if a.overlapTimer.mode = .running ∧ a.overlap = .held then
        let stays := (s.defOf r).mode = .whole ∧ (∃ f ∈ a.flanks, f.guard = .overlap ∧ f.standing = true) ∧ (s.pick 2).1 = 1
        let kept (c : Claim) : Bool := stays ∨ guardClaims a .overlap c = false
        let u : State := { s with
          sections := s.sections.map (fun x => if x.holder = .overlap r then { x with holder := .none } else x)
          points := s.points.map (fun x =>
            { x with hold := (match x.hold with
                       | .overlap q p => if q = r then .none else .overlap q p
                       | .route q p => .route q p
                       | .none => .none)
                     claims := x.claims.filter kept, claimPos := if x.claims.filter kept = [] then none else x.claimPos })
          signals := s.signals.map (fun x => { x with claims := x.claims.filter kept })
          routes := s.routes.map (fun y => if y.id = r then
            { y with overlap := .released, overlapTimer := ⟨.stopped, 0⟩
                     flanks := y.flanks.map (fun g => if g.guard = .overlap ∧ ¬ stays then
                       { g with standing := false, satisfied := false } else g) } else y) }
        ∃ t, exec (.overlapTimerExpiry r) s = .next t ∧ Reacts u t
          ∧ InSomeOrder ((s.sections.filter (fun x => x.holder == .overlap r)).map (fun x => retestOver x.id)
              ++ [permOn (.signals ((s.signals.filter (fun x => x.claims.any (fun c => !kept c))).map (·.id)))]) u t
     else exec (.overlapTimerExpiry r) s = .next s)

/-- The release time (R118 to R120): no division rounds down, the limits of R120 hold, and a time lies between the
minimum and 6000 ds whenever the minimum is at most 1200. The inputs of a route are the length of its approach, the
restriction in place or else its line speed, the rate of its braking class and the active P8, and the minimum is the
active P9 (R118). -/
def Obligations.ReleaseTimeLimits : Prop :=
  (∀ length speed brake reaction : Nat, 0 < speed → 0 < brake →
    ∃ v tb db tr, rawReleaseTime length speed brake reaction = reaction + tb + tr
      ∧ speed * 250 ≤ v * 9 ∧ v * 9 < speed * 250 + 9
      ∧ v * 10 ≤ tb * brake ∧ tb * brake < v * 10 + brake
      ∧ v * v ≤ db * (2 * brake) ∧ db * (2 * brake) < v * v + 2 * brake
      ∧ (length * 100 ≤ db → tr = 0)
      ∧ (db < length * 100 → (length * 100 - db) * 10 ≤ tr * v ∧ tr * v < (length * 100 - db) * 10 + v))
  ∧ (∀ tMin raw : Nat, limitReleaseTime tMin raw =
      if raw < tMin then (tMin, false) else if raw ≤ 6000 then (raw, false) else (6000, true))
  ∧ (∀ (s : State) (r : Nat), param 9 s ≤ 1200 → param 9 s ≤ (releaseTime s r).1 ∧ (releaseTime s r).1 ≤ 6000)
  ∧ ∀ (s : State) (r : Nat) (d : RouteDef) (rate : Nat), s.def? r = some d → s.dev.brakes[d.brake]? = some rate →
      (∀ q, s.speeds.find? (fun q => q.1 == r) = some q →
        releaseTime s r = limitReleaseTime (param 9 s) (rawReleaseTime d.length q.2 rate (param 8 s)))
      ∧ (s.speeds.find? (fun q => q.1 == r) = none →
        releaseTime s r = limitReleaseTime (param 9 s) (rawReleaseTime d.length d.speed rate (param 8 s)))

/-- Grant and withdrawal at a change handed to the Permission Unit (R94 to R99), and what brings a route before it
(R60, R63 to R65, R82). One route: concerned by the change, in LOCKED with grant_allowed, it is granted exactly when
every condition holds; in PERMITTED it returns to LOCKED, with the cause that R94 gives to the condition that the
change finds failing, and keeps its permission where the change finds none; in every other state it stays as it is.
All routes: in the order of the Active Route List; in SAFE_HALT every permission goes, in that order (log 24). A route
in CALLING whose points are all agreed in position is proven and enters LOCKED, which is handed on; any other route
stays; a route in CALLING that a failed move abandons is removed. A flag of a flank follows its element, and a changed
flank is handed on. The cause outside IN_SERVICE, and that a change names the condition it concerns, are log 11's. The
setting timer that stops at LOCKED shows 0 (log 49). -/
def Obligations.PermissionFollowsConditions : Prop :=
  (∀ (c : Concern) (s : State) (a : ActiveRoute), s.route? a.id = some a →
    let d := s.defOf a.id
    let secsClear := ∀ i ∈ allSecs d a.variant, secStatusIs s i .clear = true
    let pointsIn := ∀ q ∈ allPoints d a.variant, ∃ x, s.point? q.point = some x ∧ x.status = statusOfPos q.pos
    let flank := ∀ g ∈ a.flanks, g.standing = true → g.satisfied = true
    let channels := ∀ ch, (s.chan ch).state = .active ∨ (s.chan ch).state = .paused
    let slot := ∀ ref, a.exitSlot = some ref → ∃ x, s.slot? ref = some x ∧ x.outb = .accepted
    let all := secsClear ∧ pointsIn ∧ flank ∧ SignalFit s d.entry ∧ channels ∧ s.dev.state = .inService ∧ slot
    (¬ Touches s a c → permRoute c a.id s = s)
    ∧ (Touches s a c → a.state = .locked → a.grantAllowed = true → all →
      permRoute c a.id s = emit (.routeState a.id (.state .permitted) .granted 0)
        ((emit (.permissionGranted d.entry a.id) (s.mapSignal d.entry (fun y =>
          { y with perm := some a.id, watch := SignalRec.watchTimer (param 7 s) { y with perm := some a.id } }))).mapRoute
            a.id (fun y => { y with state := .permitted, permittedBefore := true })))
    ∧ (a.state = .locked → ¬ (a.grantAllowed = true ∧ all) → permRoute c a.id s = s)
    ∧ (a.state ≠ .locked → a.state ≠ .permitted → permRoute c a.id s = s)
    ∧ (a.state = .permitted →
      (∀ cause, Breaks s a c cause →
        permRoute c a.id s = s.withdrawn a (if s.dev.state = .inService then cause else .deviceState))
      ∧ ((∀ cause, ¬ Breaks s a c cause) → permRoute c a.id s = s)))
  ∧ (∀ (c : Concern) (s : State), permOn c s =
      if s.dev.state = .safeHalt then
        (s.routes.filter (fun a => a.state == .permitted)).foldl (fun u a => u.withdrawn a .deviceState) s
      else s.routes.foldl (fun u a => permRoute c a.id u) s)
  ∧ (∀ (s : State) (a : ActiveRoute), s.route? a.id = some a →
      let needed := allPoints (s.defOf a.id) a.variant ++ a.flanks.filterMap (fun f => match f.opt with
        | .point id pos => if f.standing then some ⟨id, pos⟩ else none
        | .signal _ => none)
      let proven := a.state = .calling ∧
        ∀ q ∈ needed, ∃ x, s.point? q.point = some x ∧ x.status = statusOfPos q.pos
      let locked := emit (.routeState a.id (.state .locked) .pointsProven 0)
        (s.mapRoute a.id (fun y => { y with state := .locked, setting := ⟨.stopped, 0⟩ }))
      let work := permOn (.route a.id) :: (match a.exitSlot with
        | some ref => [tryOffer ref]
        | none => [])
      (proven → Reacts locked (testProven a.id s) ∧ InSomeOrder work locked (testProven a.id s))
      ∧ (¬ proven → testProven a.id s = s)
      ∧ ∀ cause point,
        (a.state = .calling → Removes a .abandoned cause point .none s (abandonRoute cause point a.id s))
        ∧ (a.state ≠ .calling → abandonRoute cause point a.id s = s))
  ∧ (∀ (id : Nat) (s : State),
      let waits (a : ActiveRoute) : List PointReq :=
        allPoints (s.defOf a.id) a.variant ++ a.flanks.filterMap (fun f => match f.opt with
          | .point p pos => if f.standing then some ⟨p, pos⟩ else none
          | .signal _ => none)
      (s.dev.state = .safeHalt → routesOnPoint id s = s ∧ ∀ target, routesOnMoveFailed id target s = s)
      ∧ (s.dev.state ≠ .safeHalt →
        InSomeOrder ((s.routes.filter (fun a => (waits a).any (fun q => q.point == id))).map (fun a => testProven a.id)) s
          (routesOnPoint id s)
        ∧ ∀ target, InSomeOrder ((s.routes.filter (fun a => a.state == .calling && (waits a).contains ⟨id, target⟩)).map
            (fun a => abandonRoute .moveFailed id a.id)) s (routesOnMoveFailed id target s)))
  ∧ (∀ (id : Nat) (s : State),
      let does (o : FlankOpt) : Bool := match o with
        | .point p pos => Decidable.decide ((s.point? p).map (·.status) = some (statusOfPos pos))
        | .signal g => Decidable.decide ((s.signal? g).map (fun x => (x.status, x.faulted)) = some (.danger, false))
      let names (o : FlankOpt) : Bool := match o with
        | .point p _ => p == id
        | .signal g => g == id
      let fresh (a : ActiveRoute) : ActiveRoute := { a with flanks := a.flanks.map (fun f =>
        if f.standing = true ∧ names f.opt = true then { f with satisfied := does f.opt } else f) }
      let ok (a : ActiveRoute) : Prop := ∀ f ∈ a.flanks, f.standing = true → f.satisfied = true
      let t : State := { s with routes := s.routes.map fresh }
      ((∀ a ∈ s.routes, (ok (fresh a) ↔ ok a)) → flanksOn id s = t)
      ∧ ((∃ a ∈ s.routes, ¬ (ok (fresh a) ↔ ok a)) → ∃ rs : List Nat,
        (∀ r, r ∈ rs ↔ ∃ a ∈ s.routes, a.id = r ∧ ¬ (ok (fresh a) ↔ ok a)) ∧ flanksOn id s = permOn (.flank rs) t))

/-- The watch timer of a signal expires (R101, R102): the signal is FAULTED, UNAUTHORIZED_PROCEED is queued, and
every route in PERMITTED that holds the protected section returns to LOCKED with grant_allowed false, in list
order; the FAULTED flag is then handed to the Permission Unit and the Flank Unit, in some order (R15). The expiry is taken whenever the timer runs and changes nothing when it does not (log 3, 25). -/
def Obligations.WatchExpires : Prop :=
  ∀ (id : Nat) (s : State) (x : SignalRec), s.signal? id = some x →
    if x.watch.mode = .running then
      let u := ((s.routes.filter (fun a => a.state == .permitted
              && (allSecs (s.defOf a.id) a.variant).contains x.protSec)).foldl
            (fun u a => emit (.routeState a.id (.state .locked) .withdrawn 0)
              ((emit (.permissionWithdrawn (s.defOf a.id).entry a.id (.unauthorized id))
                (u.mapSignal (s.defOf a.id).entry (fun y =>
                  { y with perm := none, watch := SignalRec.watchTimer (param 7 s) { y with perm := none } }))).mapRoute a.id
                (fun y => { y with state := .locked, grantAllowed := false })))
            (emit (.unauthorizedProceed id x.protSec) (s.mapSignal id (fun y =>
              SignalRec.derive (param 7 s) { y with faulted := true, watch := ⟨.expired, 0⟩ }))))
      ∃ t, exec (.watchTimerExpiry id) s = .next t ∧ Reacts u t
        ∧ if x.faulted = true ∧ x.derivedStatus = x.status then t = u
          else InSomeOrder [permOn (.signals [id]), flanksOn id] u t
    else exec (.watchTimerExpiry id) s = .next s

/-- The train enters a route, passes its sections and clears them (R68, R69, R106 to R112, R114). First: the cursor
section of a route in SEQUENTIAL mode, before its last, is released exactly when it becomes CLEAR, is marked and the
next one is OCCUPIED, with its holder, the holds of the route points in it and the claims that guard it, and the drops
are handed on, in some order (R22, R85, R95); after a GAP it is not released by any later occupation (log 35), and a
cursor section that cleared unmarked is tested again once it is marked (log 45). Then: the last section clear in
SEQUENTIAL mode, all of them clear in WHOLE mode, and the train received at the boundary release the whole route, and
so do its approach sections in APPROACH_HELD. S1 OCCUPIED makes a route with an authority ENTERED: permission ends
with cause ENTERED, the entry-of is dropped, and the release timer stops with its time discarded, T 0 and its flag
clear (log 33); S1 and each section after it that is OCCUPIED without a gap is marked, the others reported AHEAD in
SEQUENTIAL mode, and the overlap timer starts when Sn is marked; in EMERGENCY_TIMING the state does not change; in
CALLING, and in LOCKED with no authority before, nothing does. A section OCCUPIED after entry is marked, or reported
AHEAD or GAP, a GAP also where it was marked before (log 35). ROUTE_STATE, then the AHEADs in section order, then the
SLOT_STATE of the exit slot is the model's order at entry (log 46). Each route takes the change, in some order. -/
def Obligations.SectionReleasesBehindTrain : Prop :=
  (∀ (id : Nat) (s : State) (a : ActiveRoute), s.route? a.id = some a →
    let d := s.defOf a.id
    d.mode = .sequential → hasEntered a = true → a.cursor < d.secs.length → 1 ≤ a.cursor →
    ∀ next, d.secs[a.cursor]? = some next →
    if d.secs[a.cursor - 1]? = some id ∧ a.gapped = false ∧ a.marks[a.cursor - 1]? = some true ∧ secStatusIs s next .occupied = true then
      let freed : State := { s with
        sections := s.sections.map (fun x => if x.id = id ∧ x.holder = .route a.id then { x with holder := .none } else x)
        points := s.points.map (fun x =>
          let kept := x.claims.filter (fun c => !guardClaims a (.sec a.cursor) c)
          { x with hold := (match x.hold with
                     | .route q p => if q = a.id ∧ x.sec = id then .none else .route q p
                     | .overlap q p => .overlap q p
                     | .none => .none)
                   claims := kept, claimPos := if kept = [] then none else x.claimPos })
        signals := s.signals.map (fun x =>
          { x with claims := x.claims.filter (fun c => !guardClaims a (.sec a.cursor) c) })
        routes := s.routes.map (fun y => if y.id = a.id then
          { y with released := y.released.set (a.cursor - 1) true, cursor := a.cursor + 1
                   flanks := y.flanks.map (fun g =>
                     if g.guard = .sec a.cursor then { g with standing := false, satisfied := false } else g) } else y) }
      Reacts freed (routeSectionClear id a.id s)
        ∧ InSomeOrder [retestOver id, permOn (.signals ((s.signals.filter
            (fun x => x.claims.any (guardClaims a (.sec a.cursor)))).map (·.id)))] freed (routeSectionClear id a.id s)
    else routeSectionClear id a.id s = s)
  ∧ (∀ (s : State) (a : ActiveRoute), s.route? a.id = some a →
    let d := s.defOf a.id
    let n := d.secs.length
    let clear (i : Nat) : Prop := secStatusIs s i .clear = true
    let gone := hasEntered a = true ∧ a.marks[n - 1]? = some true ∧ (a.exitSlot = none ∨ a.received = true)
      ∧ (match d.mode with
        | .sequential => a.cursor = n ∧ ∃ i, d.secs[n - 1]? = some i ∧ clear i
        | .whole => ∀ i ∈ d.secs, clear i)
    (gone → Removes a .released .trainCleared 0 .complete s (testCleared a.id s))
    ∧ (¬ gone → testCleared a.id s = s)
    ∧ (∀ id, hasEntered a = false → routeSectionClear id a.id s = s)
    ∧ (∀ id, hasEntered a = true → d.mode = .sequential → 1 ≤ n → a.cursor = n → routeSectionClear id a.id s =
      if d.secs[n - 1]? = some id then testCleared a.id s else s)
    ∧ (∀ id, hasEntered a = true → d.mode = .whole → routeSectionClear id a.id s =
      if id ∈ d.secs then testCleared a.id s else s)
    ∧ ∀ id,
      let approached := a.state = .approachHeld ∧ id ∈ d.approach ∧ ∀ i ∈ d.approach, clear i
      (approached → Removes a .released .approachClear 0 .complete s (routeApproachClear id a.id s))
      ∧ (¬ approached → routeApproachClear id a.id s = s))
  ∧ (∀ (id : Nat) (s : State) (a : ActiveRoute), s.route? a.id = some a → (s.routes.map (·.id)).Nodup →
    let d := s.defOf a.id
    let n := d.secs.length
    let occupied (i : Nat) : Bool := secStatusIs s i .occupied
    d.secs.head? = some id → occupied id = true → a.marks = List.replicate n false → a.released = List.replicate n false →
    a.cursor = 1 →
    let passed := (d.secs.tail.takeWhile occupied).length + 1
    let marked (u : State) : State := emitAll
      (if d.mode = .sequential then
        ((d.secs.drop passed).filter occupied).map (fun i => Event.sequenceAnomaly a.id i .ahead) else [])
      (u.mapRoute a.id (fun y => { y with
        marks := (List.range n).map (fun j => Decidable.decide (j < passed))
        overlapTimer := if passed = n ∧ y.overlap = .held then ⟨.running, param 10 s⟩ else y.overlapTimer }))
    let handed (u : State) : State := match a.exitSlot with
      | some ref => testTransit ref u
      | none => u
    let open' (u : State) : State := { u with signals := u.signals.map (fun x =>
      if x.entryOf = some a.id then { x with entryOf := none } else x) }
    let w := routeSectionOccupied id a.id s
    match a.state with
    | .calling => w = s
    | .entered => True
    | .emergencyTiming => w = handed (marked (open' s))
    | .permitted | .approachHeld | .locked =>
      if a.state = .locked ∧ a.permittedBefore = false then w = s
      else w = handed (marked (emit (.routeState a.id (.state .entered) .trainEntered 0)
        ((open' (s.unpermitted d.entry a.id .entered)).mapRoute a.id (fun y =>
          { y with state := .entered, release := ⟨.stopped, 0⟩, releaseT := 0, saturated := false })))))
  ∧ (∀ (id j : Nat) (s : State) (a : ActiveRoute), s.route? a.id = some a → hasEntered a = true →
    let d := s.defOf a.id
    d.secs.findIdx? (fun i => i == id) = some j → secStatusIs s id .occupied = true → a.marks.length = d.secs.length →
    a.released.length = d.secs.length →
    let gap := d.mode = .sequential ∧ a.cursor = j ∧ 1 ≤ j ∧ a.marks[j - 1]? = some true
      ∧ ∃ i, d.secs[j - 1]? = some i ∧ secStatusIs s i .clear = true
    let t := if gap then (emit (.sequenceAnomaly a.id id .gap) s).mapRoute a.id (fun y => { y with gapped := true }) else s
    routeSectionOccupied id a.id s =
      if a.released[j]? = some true then s
      else if a.marks[j]? = some true then t
      else if ∀ k, a.cursor - 1 ≤ k → k < j → a.marks[k]? = some true then
        t.mapRoute a.id (fun y => { y with
          marks := y.marks.set j true
          overlapTimer := if j + 1 = d.secs.length ∧ a.overlap = .held then ⟨.running, param 10 s⟩ else y.overlapTimer })
      else if d.mode = .sequential then emit (.sequenceAnomaly a.id id .ahead) t
      else t)
  ∧ (∀ (id : Nat) (old : SecStatus) (s : State),
    (s.dev.state = .safeHalt → routesOnSection id old s = s)
    ∧ (s.dev.state ≠ .safeHalt →
      (secStatusIs s id .occupied = true → old ≠ .occupied →
        InSomeOrder (s.routes.map (fun a => routeSectionOccupied id a.id)) s (routesOnSection id old s))
      ∧ (secStatusIs s id .clear = true → old ≠ .clear →
        InSomeOrder (s.routes.map (fun a => fun t => routeSectionClear id a.id (routeApproachClear id a.id t))) s
          (routesOnSection id old s))
      ∧ (secStatusIs s id .occupied = false → secStatusIs s id .clear = false → routesOnSection id old s = s)))

/-! ## Links -/

/-- The timers of a link that runs them (R125, R129, R131 to R133): TRAINING ends in DOWN, UP in DOWN with cause
TIMEOUT, a master's test INCOMPLETE in TRAINING, a slave's test in TRAINING. The expiry is taken whenever the timer
runs and changes nothing when it does not (log 3, 25). That such an entry to TRAINING leaves no last TRAIN and a count
of 0 is log 36's, and that an entry to DOWN clears the last TRAIN is log 30's. The slots of a link that was UP take
its loss in position order, which no rule gives (log 31), and the test record beside its role is log 47's. A timer
stopped before its expiry shows 0 (log 49). -/
def Obligations.LinkTimersExpire : Prop :=
  ∀ (l : Nat) (s : State) (x : Link), s.link? l = some x →
    let incomplete : TestOutcome := ⟨.incomplete, x.test.sent, x.test.matched⟩
    (if x.training.mode = .running ∧ x.state = .training then
      ∃ t, exec (.trainingTimerExpiry l) s = .next t ∧ EntersDown x .trainingTimeout s t
     else exec (.trainingTimerExpiry l) s = .next s)
    ∧ (if x.supervision.mode = .running ∧ x.state = .up then
      ∃ t, exec (.linkSupervisionExpiry l) s = .next t ∧ EntersDown x .timeout s t
     else exec (.linkSupervisionExpiry l) s = .next s)
    ∧ (if x.answer.mode = .running ∧ x.state = .loopback then
      ∃ t, exec (.answerTimerExpiry l) s = .next t ∧ EndsTest x incomplete .testEnd none s t
     else exec (.answerTimerExpiry l) s = .next s)
    ∧ (if x.echo.mode = .running ∧ x.state = .loopback then
      ∃ t, exec (.echoTimerExpiry l) s = .next t
        ∧ (if x.test.role = .master then EndsTest x incomplete .testEnd none s t else EntersTraining x .testEnd none s t)
     else exec (.echoTimerExpiry l) s = .next s)

/-- What a link sends when its send timer expires, by its state (R124, R125, R127, R131, R133): the frame on the
line, the timer, and the counters; nothing else changes. The expiry is taken whenever the timer runs and changes
nothing when it does not (log 3, 25). A CYCLIC carries eight positions: what a configured slot publishes stands in R136's
table, line by line, and a position that is not configured publishes NOT_HOLD, NONE and NONE (R127). -/
def Obligations.LinkSendsByState : Prop :=
  (∀ (s : State) (l : Nat), (publishedFields s l).length = 8 ∧ ∀ i, i < 8 → (publishedFields s l)[i]? =
    some (match s.slot? ⟨l, i⟩ with
      | some x => published x
      | none => ⟨.notHold, .none, .none⟩))
  ∧ (∀ x : Slot, published x =
    { permit := (match x.permit with
        | .heldHere => if x.refusing = true then .refuse else .hold
        | .heldThere => if x.yielded = true then .yielded else .notHold
        | .taking => .request
        | .giving => .release
        | .fault => .fault
        | .unknown => .notHold)
      outb := (match x.outb with
        | .none => .none
        | .offered | .accepted => .offer
        | .transit => .transit
        | .withdrawing => .withdraw)
      inb := (match x.inb with
        | .none => .none
        | .declining => .decline
        | .accepted | .acceptedIsolated => .accept
        | .receiving => .received) })
  ∧ ∀ (l : Nat) (s : State) (x : Link), s.link? l = some x →
    let sends (frame : LinkFrame) (g : Link → Link) : Prop :=
      exec (.linkSendTimerExpiry l) s = .next { s.mapLink l g with tx := s.tx ++ [⟨l, frame⟩] }
    let idles := exec (.linkSendTimerExpiry l) s = .next s
    if x.sendTimer.mode = .running then
      match x.state with
      | .disabled => idles
      | .down => sends (.train ⟨s.dev.area, peerArea x, x.offer, false, false⟩)
          (fun y => { y with sendTimer := ⟨.running, 200⟩ })
      | .training => sends (.train ⟨s.dev.area, peerArea x, x.offer, true, false⟩)
          (fun y => { y with sentHeard := true, sendTimer := ⟨.running, 200⟩ })
      | .up => sends (.cyclic s.dev.area (peerArea x) x.sendCounter (publishedFields s l))
          (fun y => { y with sendCounter := y.sendCounter + 1, sendTimer := ⟨.running, periodOf x⟩ })
      | .loopback => match x.test.phase with
        | .asking => sends (.train ⟨s.dev.area, peerArea x, x.offer, false, true⟩)
            (fun y => { y with sendTimer := ⟨.stopped, 0⟩ })
        | .running =>
          if x.test.sent < x.test.count then sends (.loop (BitVec.ofNat 8 x.test.sent) x.test.pattern) (fun y =>
            { y with test := { y.test with sent := x.test.sent + 1 }
                     sendTimer := if x.test.sent + 1 < x.test.count then ⟨.running, periodOf x⟩ else ⟨.stopped, 0⟩ })
          else idles
        | .none => idles
    else idles

/-- A TRAIN with the right areas on a listening link, outside LOOPBACK (R123 to R128, R132): the count of bad frames
begins again, and the state of the link decides what the frame does. Each frame put on the line is logged in `tx` (log
18). That a refused request leaves no last TRAIN and a count of 0 is log 36's. The slots of a link that was UP take
its loss in position order, which no rule gives (log 31), and the test record beside its role, a slave's among them,
is log 47's. A timer stopped before its expiry shows 0 (log 49). -/
def Obligations.TrainFramesByState : Prop :=
  ∀ (l : Nat) (sender receiver offer : Half) (flags : Byte) (s : State) (x : Link), s.link? l = some x →
    x.conf ≠ none → x.halted = false → sender.toNat = peerArea x → receiver.toNat = s.dev.area →
    50 ≤ offer.toNat → offer.toNat ≤ 1000 →
    let heard := flags.toNat % 2 = 1
    let loopback := flags.toNat / 2 % 2 = 1
    let c : TrainContent := ⟨sender.toNat, receiver.toNat, offer.toNat, Decidable.decide heard, Decidable.decide loopback⟩
    let y : Link := { x with badRun := 0, mismatch := false }
    let u := s.mapLink l (fun z => { z with badRun := 0, mismatch := false })
    let takes (e : State → Prop) : Prop :=
      ∃ t, exec (.linkTrainFrame l sender receiver offer flags) s = .next t ∧ e t
    match x.state with
    | .disabled => takes (fun t => t = s)
    | .down => if loopback then takes (fun t => t = u) else takes (EntersTraining y .peerHeard (some c) u)
    | .training =>
      if loopback then takes (fun t => t = u)
      else
        let count (z : Link) : Nat := if z.lastTrain = some c then min 2 (z.trainCount + 1) else 1
        let counted (z : Link) : Link :=
          { z with lastTrain := some c, trainCount := count z, training := ⟨.running, 2000⟩ }
        if count x = 2 ∧ heard ∧ x.sentHeard = true then
          takes (fun t => t = (u.mapLink l counted).withLinkUp (counted y) (max x.offer offer.toNat))
        else takes (fun t => t = u.mapLink l counted)
    | .up =>
      if loopback then
        if heard then takes (fun t => t = u)
        else if s.dev.state = .inService ∧ ∀ z ∈ s.slots, z.ref.link = l → z.idle = true then
          takes (fun t =>
            let v := emit (.linkState l .loopback .peerTest) (u.mapLink l (fun z =>
              { z with state := .loopback, cause := .peerTest, supervision := ⟨.stopped, 0⟩, sendTimer := ⟨.stopped, 0⟩
                       test := { TestRec.idle with role := .slave }, echo := ⟨.running, param 14 s * periodOf x⟩ }))
            t = { v with tx := v.tx ++ [⟨l, .train ⟨s.dev.area, peerArea x, x.offer, true, true⟩⟩] })
        else takes (EntersTraining y .testRefused none u)
      else takes (EntersTraining y .peerRestart (some c) u)
    | .loopback => True

/-- A TRAIN with the right areas in LOOPBACK (R131 to R133): a slave answers a repeated request and leaves on any
other TRAIN; a master in ASKING begins to run on consent and ends REFUSED else; in RUNNING a plain TRAIN ends it
INCOMPLETE, and any other TRAIN is discarded, which for one with LOOPBACK set and HEARD clear is log 37's. The test
record beside its role, once the test has ended, is log 47's. A timer stopped before its expiry shows 0 (log 49). -/
def Obligations.TrainFramesInTest : Prop :=
  ∀ (l : Nat) (sender receiver offer : Half) (flags : Byte) (s : State) (x : Link), s.link? l = some x →
    x.conf ≠ none → x.halted = false → sender.toNat = peerArea x → receiver.toNat = s.dev.area →
    50 ≤ offer.toNat → offer.toNat ≤ 1000 → x.state = .loopback →
    let heard := flags.toNat % 2 = 1
    let loopback := flags.toNat / 2 % 2 = 1
    let c : TrainContent := ⟨sender.toNat, receiver.toNat, offer.toNat, Decidable.decide heard, Decidable.decide loopback⟩
    let y : Link := { x with badRun := 0, mismatch := false }
    let u := s.mapLink l (fun z => { z with badRun := 0, mismatch := false })
    let echo : Timer := ⟨.running, param 14 s * periodOf x⟩
    let takes (e : State → Prop) : Prop :=
      ∃ t, exec (.linkTrainFrame l sender receiver offer flags) s = .next t ∧ e t
    match x.test.role with
    | .slave =>
      if loopback then takes (fun t => t = { u.mapLink l (fun z => { z with echo := echo }) with
        tx := u.tx ++ [⟨l, .train ⟨s.dev.area, peerArea x, x.offer, true, true⟩⟩] })
      else takes (EntersTraining y .testEnd (some c) u)
    | .master => match x.test.phase with
      | .asking =>
        if loopback ∧ heard then takes (fun t => t = { u.mapLink l (fun z =>
            { z with test := { z.test with phase := .running, sent := x.test.sent + 1 }, answer := ⟨.stopped, 0⟩
                     echo := echo
                     sendTimer := if x.test.sent + 1 < x.test.count then ⟨.running, periodOf x⟩ else ⟨.stopped, 0⟩ }) with
          tx := u.tx ++ [⟨l, .loop (BitVec.ofNat 8 x.test.sent) x.test.pattern⟩] })
        else takes (EndsTest y ⟨.refused, 0, 0⟩ .testEnd (if loopback then none else some c) u)
      | .running =>
        if loopback then takes (fun t => t = u)
        else takes (EndsTest y ⟨.incomplete, x.test.sent, x.test.matched⟩ .testEnd (some c) u)
      | .none => takes (fun t => t = u)
    | .none => takes (fun t => t = u)

/-- A CYCLIC with the right areas on a listening link (R123, R125, R128): in UP a new counter is accepted and a
repeated one ignored; in TRAINING it completes a training that has heard and been heard, and is then accepted;
elsewhere it is ignored, in LOOPBACK by log 37. What an accepted one does is `AcceptsCyclic`: each slot of the link
takes its part of the delivery, in position order. A timer stopped before its expiry shows 0 (log 49). -/
def Obligations.CyclicFramesByState : Prop :=
  ∀ (l : Nat) (sender receiver : Half) (counter : Byte) (fields : List Byte) (ps : List PubFields) (s : State) (x : Link),
    s.link? l = some x → x.conf ≠ none → x.halted = false → sender.toNat = peerArea x → receiver.toNat = s.dev.area →
    fields.length = 24 → parseFields fields = some ps →
    let y : Link := { x with badRun := 0, mismatch := false }
    let u := s.mapLink l (fun z => { z with badRun := 0, mismatch := false })
    let takes (e : State → Prop) : Prop :=
      ∃ t, exec (.linkCyclicFrame l sender receiver counter fields) s = .next t ∧ e t
    match x.state with
    | .disabled => takes (fun t => t = s)
    | .down => takes (fun t => t = u)
    | .training =>
      match x.lastTrain with
      | some c =>
        if c.heard = true ∧ x.sentHeard = true then
          let p := max x.offer c.offer
          takes (AcceptsCyclic { y with state := .up, period := some p } counter ps (u.withLinkUp y p))
        else takes (fun t => t = u)
      | none => takes (fun t => t = u)
    | .up => if x.lastCounter = some counter then takes (fun t => t = u) else takes (AcceptsCyclic y counter ps u)
    | .loopback => takes (fun t => t = u)

/-- A LOOP of 16 pattern bytes on a listening link (R123, R132, R133): a slave sends it back; a master in RUNNING
counts the first echo of each index it has sent, and the echo that completes the count ends the test COMPLETE, which
leaves no last TRAIN (log 36), and a test record with role NONE (log 47). A timer stopped before its expiry shows 0
(log 49). -/
def Obligations.LoopFramesByRole : Prop :=
  ∀ (l : Nat) (index : Byte) (pattern : List Byte) (s : State) (x : Link), s.link? l = some x → x.conf ≠ none →
    x.halted = false → x.state ≠ .disabled → pattern.length = 16 →
    let y : Link := { x with badRun := 0, mismatch := false }
    let u := s.mapLink l (fun z => { z with badRun := 0, mismatch := false })
    let echo : Timer := ⟨.running, param 14 s * periodOf x⟩
    let takes (e : State → Prop) : Prop := ∃ t, exec (.linkLoopFrame l index pattern) s = .next t ∧ e t
    if x.state = .loopback ∧ x.test.role = .slave then
      takes (fun t => t = { u.mapLink l (fun z => { z with echo := echo }) with
        tx := u.tx ++ [⟨l, .loop index pattern⟩] })
    else if x.state = .loopback ∧ x.test.role = .master ∧ x.test.phase = .running then
      if index.toNat < x.test.sent ∧ index.toNat ∉ x.test.echoed then
        let hit := if pattern = x.test.pattern then 1 else 0
        let test : TestRec := { x.test with
          echoes := x.test.echoes + 1, matched := x.test.matched + hit, echoed := x.test.echoed ++ [index.toNat] }
        let v := u.mapLink l (fun z => { z with test := test, echo := echo })
        if x.test.echoes + 1 = x.test.count then
          takes (EndsTest { y with test := test, echo := echo } ⟨.complete, x.test.sent, x.test.matched + hit⟩
            .testEnd none v)
        else takes (fun t => t = v)
      else takes (fun t => t = u.mapLink l (fun z => { z with echo := echo }))
    else takes (fun t => t = u)

/-- Bad, unknown and mismatched runs on a listening link (R121, R123, R129, R133): the counts, the fourth bad run in a
row, and one LINK_MISMATCH for a series of mismatched frames. A link that does not listen takes none of them. The run
is an operand, classified here (log 9). That ERRORS leaves no last TRAIN in TRAINING is log 36's, and in DOWN log
30's. The slots of a link that was UP take its loss in position order, which no rule gives (log 31), and the test
record beside its role is log 47's. A timer stopped before its expiry shows 0 (log 49). -/
def Obligations.RunsThatCarryNothing : Prop :=
  ∀ (l : Nat) (run : List Byte) (s : State) (x : Link), s.link? l = some x →
    let forget (z : Link) : Link :=
      { z with trainCount := if z.state = .down ∨ z.state = .training then 0 else z.trainCount
               lastTrain := if z.state = .training then none else z.lastTrain }
    let commands (t : State → Prop) : Prop := ∀ c, c = .linkBadFrame l run ∨ c = .linkUnknownFrame l run
      ∨ c = .linkMismatchedFrame l run → ∃ w, exec c s = .next w ∧ t w
    if x.conf = none ∨ x.state = .disabled ∨ x.halted = true then commands (fun t => t = s)
    else
      (classifyRun run = .bad →
        let bad (z : Link) : Link :=
          forget { z with badTotal := min 65535 (z.badTotal + 1), badRun := min 4 (z.badRun + 1) }
        let u := s.mapLink l bad
        if 3 ≤ x.badRun ∧ x.state = .up then commands (EntersDown (bad x) .errors u)
        else if 3 ≤ x.badRun ∧ x.state = .loopback ∧ x.test.role = .master then
          commands (EndsTest (bad x) ⟨.incomplete, x.test.sent, x.test.matched⟩ .errors none u)
        else if 3 ≤ x.badRun ∧ x.state = .loopback then commands (EntersTraining (bad x) .errors none u)
        else commands (fun t => t = u))
      ∧ (classifyRun run = .unknown → commands (fun t => t = s.mapLink l (fun z => { z with badRun := 0 })))
      ∧ (∀ f a b, classifyRun run = .known f → areasOf f = some (a, b) → ¬ (a = peerArea x ∧ b = s.dev.area) →
        let u := s.mapLink l (fun z => { forget { z with badRun := 0 } with mismatch := true })
        commands (fun t => t = if x.mismatch = true then u else emit (.linkMismatch l a b) u))

/-- LINK TEST by the table of R131: an unconfigured link, a count of 0, a link not in UP and a slot that is not idle
refuse it, and of several such slots the first in position order is named (log 14); else the link enters LOOPBACK as
master in ASKING, and the asking TRAIN goes out after LINK_STATE. The command is the request's whole transfer up to
its decision (log 1). A timer stopped before its expiry shows 0 (log 49). -/
def Obligations.LinkTestTable : Prop :=
  ∀ (ch : Channel) (tag l : Byte) (pattern : List Byte) (count : Byte) (s : State) (x : Link), pattern.length = 16 →
    let c : Instr := .linkTest ch tag l pattern count
    let f : RequestFrame := ⟨ch, .linkTest, tag, l :: (pattern ++ [count])⟩
    Completes f s → s.link? l.toNat = some x →
    if x.conf = none then Refuses c f s .notConfigured l.toNat
    else if count.toNat = 0 then Refuses c f s .badValue 0
    else if x.state ≠ .up then Refuses c f s .wrongState l.toNat
    else
      let busy (i : Nat) : Prop := ∃ z, s.slot? ⟨l.toNat, i⟩ = some z ∧
        ¬ ((z.permit = .heldHere ∨ z.permit = .heldThere) ∧ z.outb = .none ∧ z.inb = .none)
      (∀ i, i < 8 → busy i → (∀ j, j < i → ¬ busy j) → Refuses c f s .wrongState (l.toNat * 256 + i))
      ∧ ((∀ i, i < 8 → ¬ busy i) → Concurs c f s .done 0 (fun u w =>
        let time := param 14 s * periodOf x
        let v := emit (.linkState l.toNat .loopback .test) (u.mapLink l.toNat (fun z =>
          { z with state := .loopback, cause := .test, supervision := ⟨.stopped, 0⟩, sendTimer := ⟨.running, periodOf x⟩
                   answer := ⟨.running, time⟩
                   test := { TestRec.idle with role := .master, phase := .asking, pattern := pattern
                                               count := count.toNat } }))
        w = { v with tx := v.tx ++ [⟨l.toNat, .train ⟨s.dev.area, peerArea x, x.offer, false, true⟩⟩] }))

/-! ## Slots -/

/-- REQUEST PERMIT by the table of R138: the first line that applies; DONE brings the slot to TAKING with its
transfer timer. The command is the request's whole transfer up to its decision (log 1). -/
def Obligations.PermitRequestTable : Prop :=
  ∀ (ch : Channel) (tag l i : Byte) (s : State),
    let ref : SlotRef := ⟨l.toNat, i.toNat⟩
    let c : Instr := .requestPermit ch tag l i
    let f : RequestFrame := ⟨ch, .requestPermit, tag, [l, i]⟩
    Completes f s →
    match s.slot? ref with
    | none => Refuses c f s .notConfigured 0
    | some x =>
      if x.block = true then Refuses c f s .blocked 0
      else if x.cap = .inward then Refuses c f s .notCapable 0
      else if (∀ y, s.link? l.toNat = some y → y.state ≠ .up) ∨ x.reconciled = false ∨ x.permit ≠ .heldThere
          ∨ x.yielded = true ∨ x.inb ≠ .none then Refuses c f s .wrongState 0
      else Concurs c f s .done 0 (fun u w => w = emit (.permitState ref .taking .requested) (u.mapSlot ref (fun y =>
        { y with permit := .taking, transfer := ⟨.running, param 12 s⟩ })))

/-- BLOCK SLOT and UNBLOCK SLOT change the block of a configured slot and no other, and clearing it lets waiting work
go on (R142). RESTORE SLOT is taken in FAULT alone: YIELD brings HELD_THERE with Yielded, TAKE brings HELD_HERE where
the link is UP and the peer has yielded (R140); a yielded slot in DECLINING tests again, and a slot in HELD_HERE may
begin an offer (R143, R146). The command is the request's whole transfer up to its decision (log 1). A timer stopped
before its expiry shows 0 (log 49). -/
def Obligations.SlotBlocksAndRestores : Prop :=
  (∀ (ch : Channel) (tag l i : Byte) (on : Bool) (s : State),
      let ref : SlotRef := ⟨l.toNat, i.toNat⟩
      let c : Instr := if on then .blockSlot ch tag l i else .unblockSlot ch tag l i
      let f : RequestFrame := ⟨ch, if on then .blockSlot else .unblockSlot, tag, [l, i]⟩
      Completes f s →
      if s.slot? ref = none then Refuses c f s .notConfigured 0
      else Concurs c f s .done 0 (fun u w =>
        let t := u.mapSlot ref (fun y => { y with block := on })
        if on = true then w = t else Reacts t w ∧ w = tryOffer ref (retest ref t)))
  ∧ (∀ (ch : Channel) (tag l i m : Byte) (s : State),
      let ref : SlotRef := ⟨l.toNat, i.toNat⟩
      let c : Instr := .restoreSlot ch tag l i m
      let f : RequestFrame := ⟨ch, .restoreSlot, tag, [l, i, m]⟩
      Completes f s →
      match s.slot? ref with
      | none => Refuses c f s .notConfigured 0
      | some x =>
        if x.permit ≠ .fault then Refuses c f s .wrongState 0
        else if m.toNat = 1 then Concurs c f s .done 0 (fun u w =>
          Reacts (emit (.permitState ref .heldThere .yielded) u) w
            ∧ w = retest ref (emit (.permitState ref .heldThere .yielded) (u.mapSlot ref (fun y =>
              { y with permit := .heldThere, yielded := true, reconciled := true, recon := ⟨.stopped, 0⟩ })))
            ∧ ∃ y, w.slot? ref = some y ∧ y.permit = .heldThere ∧ y.yielded = true ∧ y.reconciled = true
              ∧ y.recon = ⟨.stopped, 0⟩)
        else if (∃ y, s.link? l.toNat = some y ∧ y.state = .up) ∧ x.peer.map (·.permit) = some .yielded then
          Concurs c f s .done 0 (fun u w =>
            Reacts (emit (.permitState ref .heldHere .restored) u) w
              ∧ w = tryOffer ref (emit (.permitState ref .heldHere .restored) (u.mapSlot ref (fun y =>
                { y with permit := .heldHere, reconciled := true, recon := ⟨.stopped, 0⟩ })))
              ∧ ∃ y, w.slot? ref = some y ∧ y.permit = .heldHere ∧ y.reconciled = true ∧ y.recon = ⟨.stopped, 0⟩)
        else Refuses c f s .notYielded 0)

/-- RELEASE RESERVATION and the expiry of its timer (R148): DONE starts the timer in ACCEPTED_ISOLATED, or in
ACCEPTED with the peer gone, while none runs; its expiry drops ENTRY, the inbound state becomes NONE, and the drop is
handed to the slots over the section (R22, R146). The expiry is taken whenever the timer runs and changes nothing when it
does not (log 3, 25). The command is the request's whole transfer up to its decision (log 1). -/
def Obligations.ReservationReleases : Prop :=
  (∀ (ch : Channel) (tag l i : Byte) (s : State),
    let ref : SlotRef := ⟨l.toNat, i.toNat⟩
    let c : Instr := .releaseReservation ch tag l i
    let f : RequestFrame := ⟨ch, .releaseReservation, tag, [l, i]⟩
    Completes f s →
    match s.slot? ref with
    | none => Refuses c f s .notConfigured 0
    | some x =>
      if (x.inb = .acceptedIsolated
          ∨ (x.inb = .accepted ∧ ∃ p, x.peer = some p ∧ (p.outb = .none ∨ p.outb = .withdraw)))
          ∧ x.reserve.mode ≠ .running then
        Concurs c f s .done 0 (fun u w => w = emit (.slotIn ref x.inb .releaseTiming)
          (u.mapSlot ref (fun y => { y with reserve := ⟨.running, x.relTime⟩ })))
      else Refuses c f s .wrongState 0)
  ∧ ∀ (l i : Nat) (s : State) (x : Slot), s.slot? ⟨l, i⟩ = some x →
    if x.reserve.mode = .running ∧ (x.inb = .accepted ∨ x.inb = .acceptedIsolated) then
      ∃ t, exec (.reservationReleaseExpiry l i) s = .next t
        ∧ t = retestOver x.bsec (emit (.slotIn ⟨l, i⟩ .none .reservationReleased) ((s.mapSection x.bsec (fun y =>
            if y.holder = .entry l i then { y with holder := .none } else y)).mapSlot ⟨l, i⟩ (fun y =>
              { y with inb := .none, transitSeen := false, transitEnded := false, reserve := ⟨.stopped, 0⟩ })))
        ∧ Reacts (emit (.slotIn ⟨l, i⟩ .none .reservationReleased) (s.mapSection x.bsec (fun y =>
            if y.holder = .entry l i then { y with holder := .none } else y))) t
        ∧ ∃ y, t.slot? ⟨l, i⟩ = some y ∧ y.inb = .none ∧ y.transitSeen = false ∧ y.reserve = ⟨.stopped, 0⟩
    else exec (.reservationReleaseExpiry l i) s = .next s

/-- The timers of a slot that runs them (R137 to R139, R143, R144): the reconciliation timer ends in FAULT, with the
outbound work of a permit HELD_HERE (R145), the transfer timer in HELD_THERE from TAKING, where a waiting offer is
tested again (R146), and in FAULT from GIVING; the acceptance timer gives NO_ANSWER in OFFERED, and the transit timer
TRANSIT_OVERDUE with the exit route, and nothing else changes. The expiry is taken whenever the timer runs and changes
nothing when it does not (log 3, 25); an acceptance timer that still runs outside OFFERED queues nothing at its expiry
(log 23). -/
def Obligations.SlotTimersExpire : Prop :=
  (∀ (l i : Nat) (s : State) (x : Slot), s.slot? ⟨l, i⟩ = some x →
      (if x.recon.mode = .running then ∃ t, exec (.reconciliationTimerExpiry l i) s = .next t
          ∧ Reacts (emit (.permitState ⟨l, i⟩ .fault .noHolder) s) t
          ∧ (let u := emit (.permitState ⟨l, i⟩ .fault .noHolder) (s.mapSlot ⟨l, i⟩ (fun y =>
              { y with permit := .fault, reconciled := true, recon := ⟨.stopped, 0⟩ }))
            t = if x.permit = .heldHere then endOutbound ⟨l, i⟩ u else u)
          ∧ ∃ y, t.slot? ⟨l, i⟩ = some y ∧ y.permit = .fault ∧ y.reconciled = true ∧ y.recon = ⟨.stopped, 0⟩
       else exec (.reconciliationTimerExpiry l i) s = .next s)
      ∧ (if x.transfer.mode = .running ∧ x.permit = .taking then
          ∃ t, exec (.permitTransferExpiry l i) s = .next t
            ∧ Reacts (emit (.permitState ⟨l, i⟩ .heldThere .timeout) s) t
            ∧ t = retest ⟨l, i⟩ (emit (.permitState ⟨l, i⟩ .heldThere .timeout) (s.mapSlot ⟨l, i⟩ (fun y =>
                { y with permit := .heldThere, transfer := ⟨.stopped, 0⟩ })))
            ∧ ∃ y, t.slot? ⟨l, i⟩ = some y ∧ y.permit = .heldThere ∧ y.transfer = ⟨.stopped, 0⟩
         else if x.transfer.mode = .running ∧ x.permit = .giving then
          exec (.permitTransferExpiry l i) s = .next (emit (.permitState ⟨l, i⟩ .fault .timeout)
            (s.mapSlot ⟨l, i⟩ (fun y => { y with permit := .fault, transfer := ⟨.stopped, 0⟩ })))
         else exec (.permitTransferExpiry l i) s = .next s))
  ∧ (∀ (l i : Nat) (s : State) (x : Slot), s.slot? ⟨l, i⟩ = some x →
      (if x.accept.mode = .running then
        let t := s.mapSlot ⟨l, i⟩ (fun y => { y with accept := ⟨.stopped, 0⟩ })
        exec (.acceptanceTimerExpiry l i) s = .next
          (if x.outb = .offered then emit (.slotOut ⟨l, i⟩ .offered .noAnswer) t else t)
       else exec (.acceptanceTimerExpiry l i) s = .next s)
      ∧ (if x.transit.mode = .running then
        let t := s.mapSlot ⟨l, i⟩ (fun y => { y with transit := ⟨.stopped, 0⟩ })
        exec (.transitTimerExpiry l i) s = .next
          (match s.routes.find? (fun a => a.exitSlot == some ⟨l, i⟩) with
          | some a => emit (.transitOverdue ⟨l, i⟩ a.id) t
          | none => t)
       else exec (.transitTimerExpiry l i) s = .next s))

/-- One slot's part of a delivery (R136), and the permit in it. The comparison of permits after a link has come UP,
for every permit of either side (R137): a permit HELD_HERE, kept or gained, may begin its offer (R143), and one lost
to FAULT ends the outbound work (R145); from TAKING and GIVING, which the comparison cannot meet, the permit stands
(log 29), a timer that already waits for the peer runs on (log 39), and PERMIT_STATE (FAULT) stands before the end of
outbound work (log 38). A delivery stores the peer's fields, a HOLD ending Yielded (R140) and a delivery without
REQUEST Refusing (R139); then an unreconciled slot makes the comparison, for the permit nothing else and the fields
acting on the record it left (log 20), and a reconciled one takes the peer's permit by its own (R137 to R139); then
the peer's inbound field acts on the outbound state of a slot that is reconciled, and its outbound field on the
inbound state. A timer stopped before its expiry shows 0 (log 49). -/
def Obligations.PermitComparison : Prop :=
  (∀ (ref : SlotRef) (s : State) (x : Slot) (p : PubPermit), s.slot? ref = some x →
    let claims := p = .hold ∨ p = .release ∨ p = .refuse
    let t := reconcile x p s
    let settles (y : Slot) : Slot := { y with reconciled := true, recon := ⟨.stopped, 0⟩ }
    let here (q : Permit) (u : State) : State := if q = .heldHere then tryOffer ref u else u
    let stands : Prop := Reacts s t ∧ t = here x.permit (s.mapSlot ref settles)
      ∧ ∃ y, t.slot? ref = some y ∧ y.permit = x.permit ∧ y.reconciled = true ∧ y.recon = ⟨.stopped, 0⟩
    let becomes (q : Permit) (es : List Event) : Prop :=
      let u := emitAll es (s.mapSlot ref (fun y => { settles y with permit := q }))
      Reacts (emitAll es s) t ∧ t = (if q = .fault ∧ x.permit = .heldHere then endOutbound ref u else here q u)
      ∧ ∃ y, t.slot? ref = some y ∧ y.permit = q ∧ y.reconciled = true ∧ y.recon = ⟨.stopped, 0⟩
    let waits : Prop := t = if x.recon.mode = .running then s
      else s.mapSlot ref (fun y => { y with recon := ⟨.running, param 12 s⟩ })
    let toFault : Prop := becomes .fault [.permitState ref .fault .noHolder]
    match x.permit with
    | .heldHere =>
      if claims then becomes .fault [.bothHeld ref, .permitState ref .fault .bothHeld] else stands
    | .heldThere =>
      if claims ∨ (x.yielded = true ∧ p = .fault) then stands else if p = .notHold then waits else toFault
    | .fault => if claims then becomes .heldThere [.permitState ref .heldThere .reconciled] else stands
    | .unknown =>
      if claims then becomes .heldThere [.permitState ref .heldThere .reconciled]
      else if p = .notHold then
        if x.initHere = true then becomes .heldHere [.permitState ref .heldHere .reconciled] else waits
      else toFault
    | .taking => stands
    | .giving => stands)
  ∧ (∀ (ref : SlotRef) (p : PubFields) (s : State) (old : Slot), s.slot? ref = some old →
    let stores (y : Slot) : Slot := { y with
      peer := some p, yielded := y.yielded && p.permit != .hold, refusing := y.refusing && p.permit == .request }
    let t := s.mapSlot ref stores
    let u := if old.reconciled = true then permitStep (stores old) (old.peer.map (·.permit)) p.permit t
      else reconcile (stores old) p.permit t
    ∃ y z, u.slot? ref = some y
      ∧ (let v := if y.reconciled = true then outboundStep y (old.peer.map (·.inb)) p.inb u else u
        v.slot? ref = some z ∧ deliverSlot ref p s = inboundStep old.reconciled z p.outb v))
  ∧ (∀ (x : Slot) (prev : Option PubPermit) (p : PubPermit) (s : State), s.slot? x.ref = some x →
    let sets (q : Permit) (cause : PermitCause) (f : Slot → Slot) (u : State) : State :=
      emit (.permitState x.ref q cause) (u.mapSlot x.ref (fun y => { f y with permit := q }))
    let stops (y : Slot) : Slot := { y with transfer := ⟨.stopped, 0⟩ }
    let starts (y : Slot) : Slot := { y with transfer := ⟨.running, param 12 s⟩ }
    let gives := x.block = false ∧ (x.cap = .inward ∨ x.cap = .both) ∧ x.outb = .none
      ∧ (∀ b, s.section? x.bsec = some b → ∀ r, b.holder ≠ .route r ∧ b.holder ≠ .overlap r)
      ∧ ∀ a ∈ s.routes, a.exitSlot ≠ some x.ref
    let t := permitStep x prev p s
    match x.permit with
    | .heldHere => match p with
      | .hold => t = endOutbound x.ref
          (sets .fault .bothHeld id (emit (.bothHeld x.ref) s))
      | .request =>
        (prev = some .request → t = s)
        ∧ (prev ≠ some .request → gives → t = sets .giving .requested starts s)
        ∧ (prev ≠ some .request → ¬ gives → t = sets .heldHere .refusing (fun y => { y with refusing := true }) s)
      | .notHold | .release | .refuse | .yielded | .fault => t = s
    | .heldThere =>
      t = if x.yielded = true ∧ (p = .notHold ∨ p = .yielded) then sets .fault .noHolder id s else s
    | .taking => match p with
      | .release => t = tryOffer x.ref (sets .heldHere .taken stops s)
      | .refuse => t = sets .heldThere .refused stops s
      | .hold | .notHold | .request | .yielded | .fault => t = s
    | .giving => match p with
      | .hold => t = sets .heldThere .given stops s
      | .notHold => t = tryOffer x.ref (sets .heldHere .notTaken stops s)
      | .request => t = s
      | .release | .refuse | .yielded | .fault => t = sets .fault .noHolder stops s
    | .fault => t = s
    | .unknown => t = s)

/-- The inbound side of a slot. The test of a standing offer (R146): with every condition holding the slot takes ENTRY
on its boundary section and enters ACCEPTED; else it is in DECLINING, whose entry names the first condition that fails
in the order of the list; in DECLINING it tests again at a handed change. A delivery (R146 to R148): NONE tests,
DECLINING ends with the offer, ACCEPTED sees transit, drops ENTRY at a withdrawal and stands once transit was seen,
and RECEIVING changes nothing; an isolated acceptance waits for a delivery after the one that reconciles (log 20), and
then returns to ACCEPTED with its event (log 21). B agreed OCCUPIED brings the train in, and B agreed CLEAR ends its
arrival (R147, R148). Several slots that one change of a section, of a channel or of the device concerns (R38, R146)
act in image order, which is log 31's choice. A timer stopped before its expiry shows 0 (log 49). -/
def Obligations.AcceptanceTest : Prop :=
  (∀ (ref : SlotRef) (s : State) (x : Slot) (p : PubFields), s.slot? ref = some x → x.inb = .none ∨ x.inb = .declining →
    x.peer = some p → p.outb = .offer ∨ p.outb = .transit →
    let conditions : List Prop := [
      x.cap = .inward ∨ x.cap = .both,
      x.block = false,
      ∃ y, s.section? x.bsec = some y ∧ y.status = .clear ∧ y.holder = .none ∧ y.faulted = false ∧ y.block = false,
      x.permit = .heldThere ∧ x.reconciled = true,
      ∃ y, s.link? ref.link = some y ∧ y.state = .up,
      s.dev.state = .inService,
      ∀ ch, (s.chan ch).state = .active ∨ (s.chan ch).state = .paused]
    ((∀ q ∈ conditions, q) → testAcceptance ref s = emit (.slotIn ref .accepted .none)
      ((s.mapSection x.bsec (fun y => { y with holder := .entry ref.link ref.idx })).mapSlot ref (fun y =>
        { y with inb := .accepted, transitSeen := Decidable.decide (p.outb = .transit), transitEnded := false })))
    ∧ ∀ before q after, conditions = before ++ q :: after → (∀ q' ∈ before, q') → ¬ q →
      testAcceptance ref s = if x.inb = .declining then s
        else emit (.slotIn ref .declining (.condition (before.length + 1)))
          (s.mapSlot ref (fun y => { y with inb := .declining })))
  ∧ (∀ (ref : SlotRef) (s : State) (x : Slot), s.slot? ref = some x →
    ((x.inb ≠ .none ∧ x.inb ≠ .declining) ∨ (∀ p, x.peer = some p → p.outb ≠ .offer ∧ p.outb ≠ .transit) →
      testAcceptance ref s = s)
    ∧ retest ref s = (if x.inb = .declining ∧ s.dev.state ≠ .safeHalt then testAcceptance ref s else s))
  ∧ (∀ (b : Nat) (s : State), retestOver b s = (s.slots.filter (fun x => x.bsec == b)).foldl (fun u x => retest x.ref u) s)
  ∧ (∀ s : State, retestAll s = s.slots.foldl (fun u x => retest x.ref u) s)
  ∧ (∀ (was : Bool) (x : Slot) (o : PubOut) (s : State),
    let turns (i : Inbound) (cause : SlotCause) (f : Slot → Slot) : State :=
      emit (.slotIn x.ref i cause) (s.mapSlot x.ref (fun y => { f y with inb := i }))
    let drops (cause : SlotCause) : State := retestOver x.bsec (emit (.slotIn x.ref .none cause)
      ((s.mapSection x.bsec (fun y => if y.holder = .entry x.ref.link x.ref.idx then { y with holder := .none } else y)).mapSlot
        x.ref (fun y => { y with inb := .none, transitSeen := false, transitEnded := false, reserve := ⟨.stopped, 0⟩ })))
    let gone := o = .none ∨ o = .withdraw
    let t := inboundStep was x o s
    match x.inb with
    | .none => t = testAcceptance x.ref s
    | .declining =>
      t = if gone then turns .none .offerEnded (fun y => { y with transitSeen := false, transitEnded := false })
        else testAcceptance x.ref s
    | .accepted =>
      t = if o = .offer then s
        else if o = .transit then s.mapSlot x.ref (fun y => { y with inb := .accepted, transitSeen := true })
        else if x.transitSeen = false then drops .withdrawn
        else if x.transitEnded = true then s
        else turns .accepted .transitEnded (fun y => { y with transitEnded := true })
    | .acceptedIsolated =>
      t = if was = false then s
        else if o = .offer then turns .accepted .none id
        else if o = .transit then turns .accepted .none (fun y => { y with transitSeen := true })
        else if x.transitSeen = false then drops .withdrawn
        else if x.transitEnded = true then turns .accepted .none id
        else turns .accepted .transitEnded (fun y => { y with transitEnded := true })
    | .receiving => t = s)
  ∧ (∀ (old : SecStatus) (ref : SlotRef) (s : State) (x : Slot), s.slot? ref = some x →
    slotOnSection x.bsec old ref s =
      if (x.inb = .accepted ∨ x.inb = .acceptedIsolated) ∧ old ≠ .occupied ∧ secStatusIs s x.bsec .occupied = true then
        emit (.slotIn ref .receiving .none) (s.mapSlot ref (fun y => { y with inb := .receiving, reserve := ⟨.stopped, 0⟩ }))
      else if x.inb = .receiving ∧ old ≠ .clear ∧ secStatusIs s x.bsec .clear = true then
        retestOver x.bsec (emit (.slotIn ref .none .arrived)
          ((s.mapSection x.bsec (fun y => if y.holder = .entry ref.link ref.idx then { y with holder := .none } else y)).mapSlot
            ref (fun y => { y with inb := .none, transitSeen := false, transitEnded := false, reserve := ⟨.stopped, 0⟩ })))
      else retest ref s)
  ∧ ∀ (b : Nat) (old : SecStatus) (s : State), slotsOnSection b old s =
      if s.dev.state = .safeHalt then s
      else (s.slots.filter (fun x => x.bsec == b)).foldl
        (fun u x => testTransit x.ref (slotOnSection b old x.ref u)) s

/-- What the loss of a link does to one of its slots (R141): the table of the rule, line by line, with the event of
each change in the order permit, outbound, inbound (log 38), for a slot that was Refusing too (log 22); no holder of a
section changes, so an entry reservation is kept. And the outbound state of a slot otherwise: an offer begins exactly
where every condition of R143 holds; the peer's inbound field acts on it (R143 to R145); TRANSIT is entered where B is
OCCUPIED and the exit route has been entered, a RECEIVED already stored is reported then, and it is reported once
(R144); the exit route leaving the list, and the permit leaving HELD_HERE for FAULT, end it (R144, R145), and a route
that has lost its transit so receives no RECEIVED (R145; log 43). That the entry to TRANSIT keeps the acceptance timer
is log 23's, and that ACCEPTANCE_LOST starts none log 30's. A timer stopped before its expiry shows 0 (log 49). -/
def Obligations.LinkLossTable : Prop :=
  (∀ (ref : SlotRef) (s : State) (x : Slot), s.slot? ref = some x →
    let sets (q : Permit) (f : Slot → Slot) (u : State) : State :=
      emit (.permitState ref q .linkLoss) (u.mapSlot ref (fun y => { f y with permit := q }))
    let stops (y : Slot) : Slot := { y with transfer := ⟨.stopped, 0⟩ }
    let unreconciled := s.mapSlot ref (fun y => { y with reconciled := false, recon := ⟨.stopped, 0⟩ })
    let permit := match x.permit with
      | .taking => sets .heldThere stops unreconciled
      | .giving => sets .fault stops unreconciled
      | .heldHere => if x.refusing = true then sets .heldHere (fun y => { y with refusing := false }) unreconciled
        else unreconciled
      | .heldThere => unreconciled
      | .fault => unreconciled
      | .unknown => unreconciled
    let outbound := if x.outb = .offered ∨ x.outb = .accepted ∨ x.outb = .withdrawing then
        permOn (.slot ref) (emit (.slotOut ref .none .linkLoss)
          (permit.mapSlot ref (fun y => { y with accept := ⟨.stopped, 0⟩, outb := .none })))
      else permit
    loseSlot ref s = (match x.inb with
      | .accepted => emit (.slotIn ref .acceptedIsolated .linkLoss)
          (outbound.mapSlot ref (fun y => { y with inb := .acceptedIsolated }))
      | .declining => emit (.slotIn ref .none .linkLoss)
          (outbound.mapSlot ref (fun y => { y with inb := .none, transitSeen := false, transitEnded := false }))
      | .receiving => outbound
      | .acceptedIsolated => outbound
      | .none => outbound)
    ∧ (loseSlot ref s).sections = s.sections
    ∧ Reacts s (loseSlot ref s) ∧ ∃ y, (loseSlot ref s).slot? ref = some y
      ∧ y.reconciled = false ∧ y.recon = ⟨.stopped, 0⟩
      ∧ y.permit = (match x.permit with
          | .taking => .heldThere
          | .giving => .fault
          | .heldHere => .heldHere
          | .heldThere => .heldThere
          | .fault => .fault
          | .unknown => .unknown)
      ∧ y.transfer = (if x.permit = .taking ∨ x.permit = .giving then ⟨.stopped, 0⟩ else x.transfer)
      ∧ y.refusing = (if x.permit = .heldHere then false else x.refusing)
      ∧ y.outb = (if x.outb = .transit then .transit else .none)
      ∧ y.accept = (if x.outb = .offered ∨ x.outb = .accepted ∨ x.outb = .withdrawing then ⟨.stopped, 0⟩ else x.accept)
      ∧ y.transit = x.transit
      ∧ y.inb = (match x.inb with
          | .accepted => .acceptedIsolated
          | .declining => .none
          | .receiving => .receiving
          | .acceptedIsolated => .acceptedIsolated
          | .none => .none))
  ∧ (∀ (ref : SlotRef) (s : State) (x : Slot), s.slot? ref = some x →
    let goes (o : Outbound) (cause : SlotCause) (f : Slot → Slot) : State :=
      permOn (.slot ref) (emit (.slotOut ref o cause) (s.mapSlot ref (fun y => { f y with outb := o })))
    let unasked (y : Slot) : Slot := { y with accept := ⟨.stopped, 0⟩ }
    let ended (y : Slot) : Slot := { y with transit := ⟨.stopped, 0⟩, receivedReported := false }
    let offers := x.outb = .none ∧ (∃ a ∈ s.routes, a.state = .locked ∧ a.exitSlot = some ref) ∧ x.permit = .heldHere
      ∧ (∃ y, s.link? ref.link = some y ∧ y.state = .up) ∧ x.reconciled = true ∧ x.block = false
      ∧ (x.cap = .out ∨ x.cap = .both) ∧ s.dev.state = .inService
    (offers → tryOffer ref s = goes .offered .none (fun y => { y with accept := ⟨.running, param 12 s⟩ }))
    ∧ (¬ offers → tryOffer ref s = s)
    ∧ (∀ prev i, outboundStep x prev i s = match x.outb with
      | .offered => match i with
        | .accept => goes .accepted .none unasked
        | .decline => if prev = some .decline then s.mapSlot ref unasked
          else emit (.slotOut ref .offered .declined) (s.mapSlot ref unasked)
        | .none => s
        | .received => s
      | .accepted => match i with
        | .accept => s
        | .received => s
        | .none => goes .offered .acceptanceLost id
        | .decline => goes .offered .acceptanceLost id
      | .transit => if i = .received then reportReceived ref s else s
      | .withdrawing => if i = .none then tryOffer ref (goes .none .withdrawn id) else s
      | .none => s)
    ∧ (let told := s.mapSlot ref (fun y => { y with receivedReported := true })
      reportReceived ref s = if x.outb = .transit ∧ x.receivedReported = false then
        (match s.routes.find? (fun a => a.exitSlot == some ref && hasEntered a && !a.transitLost) with
          | some a => testCleared a.id (told.mapRoute a.id (fun y => { y with received := true }))
          | none => told)
        else s)
    ∧ (let entered := s.dev.state ≠ .safeHalt ∧ secStatusIs s x.bsec .occupied = true ∧ x.permit = .heldHere
        ∧ (x.outb = .none ∨ x.outb = .offered ∨ x.outb = .accepted)
        ∧ ∃ a ∈ s.routes, a.exitSlot = some ref ∧ hasEntered a = true
      let t := goes .transit (if x.outb = .accepted then .accepted else .unaccepted)
        (fun y => { y with transit := ⟨.running, param 16 s⟩ })
      (entered → testTransit ref s = if x.peer.map (·.inb) = some .received then reportReceived ref t else t)
      ∧ (¬ entered → testTransit ref s = s))
    ∧ (∀ cause, slotRouteGone cause ref s =
      if s.dev.state = .safeHalt then s
      else match x.outb with
        | .transit => tryOffer ref (goes .none cause ended)
        | .offered => goes .withdrawing .none unasked
        | .accepted => goes .withdrawing .none unasked
        | .none => s
        | .withdrawing => s)
    ∧ endOutbound ref s = match x.outb with
      | .offered => goes .withdrawing .none unasked
      | .accepted => goes .withdrawing .none unasked
      | .transit =>
        let t := goes .none .permitFault ended
        { t with routes := t.routes.map (fun a =>
            if a.exitSlot = some ref ∧ hasEntered a = true then { a with transitLost := true } else a) }
      | .none => s
      | .withdrawing => s)

/-! ## Configuration, image and reset -/

/-- SET PARAMETER (R168): an id outside 1 to 16 is BAD_VALUE; else the value, brought into the range of its
parameter, stands in the pending copy alone, and CLAMPED carries a value that was brought in. APPLY PARAMETERS
(R169): the pending values become the active ones, PARAMETERS_APPLIED carries how many of them changed, and every
timer keeps what it runs with. The command is the request's whole transfer up to its decision (log 1). -/
def Obligations.ParametersWrittenAndApplied : Prop :=
  (∀ (ch : Channel) (tag id : Byte) (v : Half) (s : State),
      let c : Instr := .setParameter ch tag id v
      let f : RequestFrame := ⟨ch, .setParameter, tag, id :: b2 v.toNat⟩
      Completes f s →
      if id.toNat = 0 ∨ 16 < id.toNat then Refuses c f s .badValue 0
      else ∃ lo hi, [(20, 500), (100, 1000), (100, 2000), (0, 100), (5, 100), (5, 100), (5, 50), (0, 100), (0, 1200),
          (50, 1200), (50, 600), (20, 600), (50, 1000), (3, 10), (50, 95), (50, 3000)][id.toNat - 1]? = some (lo, hi) ∧
        let n := if v.toNat < lo then lo else if hi < v.toNat then hi else v.toNat
        Concurs c f s (if n = v.toNat then .done else .clamped) (if n = v.toNat then 0 else n) (fun u w =>
          w = { u with dev := { u.dev with pendingParams := u.dev.pendingParams.set (id.toNat - 1) n } }))
  ∧ (∀ (ch : Channel) (tag : Byte) (s : State),
      let f : RequestFrame := ⟨ch, .applyParameters, tag, []⟩
      Completes f s → s.dev.active.length = s.dev.pendingParams.length →
      Concurs (.applyParameters ch tag) f s .done 0 (fun u w =>
        w = emit (.parametersApplied ((List.range s.dev.active.length).countP (fun i =>
            Decidable.decide (s.dev.active[i]? ≠ s.dev.pendingParams[i]?))))
          { u with dev := { u.dev with active := u.dev.pendingParams } }))

/-- ACCEPT CONFIGURATION (R164): WRONG_STATE in IN_SERVICE; in AWAITING_ACCEPTANCE the digest of the internal copy
brings the device into service, which is handed to the Permission Unit and to the slots in DECLINING, in some order (R146,
R165), and any other digest is DIGEST_MISMATCH. The command is the request's whole
transfer up to its decision (log 1). -/
def Obligations.ConfigurationIsAccepted : Prop :=
  ∀ (ch : Channel) (tag : Byte) (digest : Word) (s : State),
    let c : Instr := .acceptConfiguration ch tag digest
    let f : RequestFrame := ⟨ch, .acceptConfiguration, tag, b4 digest.toNat⟩
    Completes f s →
    if s.dev.state = .inService then Refuses c f s .wrongState 0
    else if imageCrc s.dev.copy = digest then Concurs c f s .done 0 (fun u w =>
      let t := emit (.deviceState .inService .accepted none) { u with dev := { u.dev with state := .inService } }
      Reacts t w ∧ InSomeOrder [permOn .device, retestAll] t w)
    else Refuses c f s .digestMismatch 0

/-- DEVICE RESET (R2, R40, R55, R121, R134, R135, R170): everything it clears and everything it keeps. With the copy
intact the device awaits acceptance again; else it is in SAFE_HALT: each emptied queue holds DEVICE_STATE and after it
the LINK_STATE of each configured link, which is DOWN with cause HALT, halted, its record cleared and every timer of
it stopped; the order of the links is free (log 4), and no TRAIN is sent (log 30). A slot keeps its block alone beside
what the image gives it. A test record with role NONE is log 47's. The record of an unconfigured link is log 19's. The
command is the request's whole transfer up to its decision (log 1). A timer stopped before its expiry shows 0 (log
49). -/
def Obligations.DeviceResetClears : Prop :=
  ∀ (ch : Channel) (tag : Byte) (s : State),
    let f : RequestFrame := ⟨ch, .deviceReset, tag, []⟩
    Completes f s → s.links.map (·.id) = [0, 1, 2, 3] →
    Concurs (.deviceReset ch tag) f s .done 0 (fun u w =>
      let cleared (q : EventQueue) (d : Device) (tx : List TxFrame) (links : List Link) : State := { u with
        sections := u.sections.map (fun x => { newSection x.id with block := x.block, mask := x.mask })
        points := u.points.map (fun x => { newPoint x.id x.sec x.supTime with block := x.block, mask := x.mask })
        signals := u.signals.map (fun x => { newSignal x.id x.protSec with
          block := x.block, mask := x.mask, status := if x.mask = true then .danger else .unproven })
        routes := [], table := [], disagreements := 0
        slots := u.slots.map (fun x => { x with
          permit := .unknown, reconciled := false, refusing := false, yielded := false, outb := .none
          receivedReported := false, inb := .none, transitSeen := false, transitEnded := false, peer := none
          transfer := ⟨.stopped, 0⟩, recon := ⟨.stopped, 0⟩, accept := ⟨.stopped, 0⟩, transit := ⟨.stopped, 0⟩
          reserve := ⟨.stopped, 0⟩ })
        chanA := .initial u.chanA.crst, chanB := .initial u.chanB.crst
        portA := if ch = .A then { u.portA with badFrames := 0, taken := 0, resetOnEnd := true } else .initial
        portB := if ch = .B then { u.portB with badFrames := 0, taken := 0, resetOnEnd := true } else .initial
        queueA := q, queueB := q, dev := d, tx := tx, links := links }
      if some (imageCrc s.dev.copy) = s.dev.digest then
        w = cleared ⟨[], 0⟩ { u.dev with state := .awaiting, checkTimer := ⟨.running, 100⟩ }
          (u.tx ++ s.links.filterMap (fun x =>
            if x.conf = none then none
            else some ⟨x.id, .train ⟨s.dev.area, peerArea x, param 13 s, false, false⟩⟩))
          (u.links.map (fun x => if x.conf = none then { Link.initial x.id none with cause := .reset }
            else { Link.initial x.id x.conf with
              state := .down, cause := .reset, offer := param 13 s, sendTimer := ⟨.running, 200⟩ }))
      else
        let halted (order : List Nat) : EventQueue := ⟨⟨.deviceState .safeHalt .imageCheck none, s.dev.time⟩ ::
          order.map (fun l => ⟨.linkState l .down .halt, s.dev.time⟩), 0⟩
        ∃ order c d, order.Perm ((s.links.filter (fun x => x.conf.isSome)).map (·.id))
          ∧ w = { cleared (halted order) { u.dev with
                state := .safeHalt, haltCause := some .imageCheck, failItem := none, failIndex := 0
                checkTimer := ⟨.stopped, 0⟩, health := false } u.tx
              (u.links.map (fun x => if x.conf = none then { Link.initial x.id none with cause := .reset }
                else { Link.initial x.id x.conf with
                  state := .down, cause := .halt, halted := true, offer := param 13 s })) with
            choices := c, drawn := d })

/-- The end of the image read (R1, R2, R41, R121, R122, R135, R162 to R165): an image that passes every check brings the
device to AWAITING_ACCEPTANCE with every block filled from it, record by record, DEVICE_STATE queued first and then, link
by link, each configured link in DOWN with its LINK_STATE and its first TRAIN; one that fails brings it to SAFE_HALT with the
failing item, and where no route is set, no half waits and no link or slot is configured, as in LOADING after reset, nothing
else changes. Outside LOADING, or with DRST asserted, it is ignored (log 25). The record of an unconfigured link, cause
START and offer 0, is log 19's. In every case the command ends in a next state. The
bytes read are an operand of the command (log 17). Which record a failing check names is logs 16's and 41's. And an image
passes exactly where it is sound (R163): all its bytes come, its CRC-32 is the header's, and its parts are what checks 3 to
12 ask: ids in range and described once, every element named configured and of its kind, routes as R42 to R45 have them,
guarded parts, slots, links, times, rates and parameter defaults in range (`Image.Sound`; which check takes a code is log
16's). -/
def Obligations.ImageFillsOrHalts : Prop :=
  (∀ bs : List Byte, validate bs = none ↔ 20 ≤ bs.length ∧ (headerOf bs).length ≤ bs.length
    ∧ (imageCrc (imageBytes bs)).toNat = (headerOf bs).crc ∧ (imageOf (imageBytes bs)).Sound)
  ∧ ∀ (bs : List Byte) (s : State),
    if s.dev.state = .loading ∧ s.dev.drst = false then
      match validate bs with
      | none =>
        let m := imageOf (imageBytes bs)
        let freshSec (x : ImgElem) : SectionRec :=
          { id := x.id, viewA := .unknown, viewB := .unknown, status := .occupied, clearance := ⟨.stopped, 0⟩
            disc := ⟨.stopped, 0⟩, faulted := false, block := false, mask := false, holder := .none }
        let point (x : ImgElem) : PointRec :=
          { id := x.id, sec := x.ref, supTime := x.time, viewA := .unknown, viewB := .unknown, status := .undetected
            disc := ⟨.stopped, 0⟩, move := none, moveTimer := ⟨.stopped, 0⟩, lastMove := 0, faulted := false, block := false
            mask := false, hold := .none, claims := [], claimPos := none }
        let signal (x : ImgElem) : SignalRec :=
          { id := x.id, protSec := x.ref, viewA := .unknown, viewB := .unknown, status := .unproven, disc := ⟨.stopped, 0⟩
            faulted := false, block := false, mask := false, entryOf := none, claims := [], perm := none
            watch := ⟨.stopped, 0⟩ }
        let slot (x : ImgSlot) : Slot :=
          { ref := x.ref, bsec := x.bsec, cap := if x.cap = 1 then .out else if x.cap = 2 then .inward else .both
            initHere := x.holder == 1, relTime := x.time, permit := .unknown, reconciled := false, refusing := false
            yielded := false, outb := .none, receivedReported := false, inb := .none, transitSeen := false
            transitEnded := false, block := false, peer := none, transfer := ⟨.stopped, 0⟩, recon := ⟨.stopped, 0⟩
            accept := ⟨.stopped, 0⟩, transit := ⟨.stopped, 0⟩, reserve := ⟨.stopped, 0⟩ }
        let rate (n : Nat) : Nat := if n = 1 then 19200 else if n = 2 then 38400 else if n = 3 then 57600 else 115200
        let position (n : Nat) : Pos := if n = 2 then .reverse else .normal
        let requirement (q : ImgPoint) : PointReq := ⟨q.1, position q.2⟩
        let route (x : ImgRoute) : RouteDef :=
          { id := x.id, entry := x.entry
            exit := if x.exitKind = 1 then .signal x.exitId else .boundary ⟨x.exitId / 256, x.exitId % 256⟩
            secs := x.secs, points := x.points.map requirement
            variants := x.variants.map (fun v => ⟨v.secs, v.points.map requirement⟩)
            flanks := (List.range 12).filterMap (fun k =>
              (m.flanks.find? (fun f => f.route == x.id && f.index == k + 1)).map (fun f =>
                ⟨f.index, if f.guard = 0 then .overlap else .sec f.guard, f.options.map (fun o =>
                  if o.kind = 1 then .point o.id (position o.pos) else .signal o.id)⟩))
            approach := x.approach, length := x.length, speed := x.speed, brake := x.brake
            mode := if x.mode = 1 then .sequential else .whole }
        let offer := (m.params[12]?).getD (Config.unsetParameter 13)
        let conf (l : Nat) : Option LinkDef :=
          (m.links.find? (fun x => x.id == l)).map (fun x => ⟨rate x.rate, x.peer⟩)
        let up := (List.range 4).filterMap (fun l => (conf l).map (fun c => (l, c)))
        exec (.imageReadComplete bs) s = .next
          (emitAll (.deviceState .awaiting .loaded none :: up.map (fun p => Event.linkState p.1 .down .start))
            { s with
              sections := (m.elems.filter (fun x => x.kind == 1)).map freshSec
              points := (m.elems.filter (fun x => x.kind == 2)).map point
              signals := (m.elems.filter (fun x => x.kind == 3)).map signal
              store := m.routes.map route, slots := m.slots.map slot
              links := (List.range 4).map (fun l => match conf l with
                | none => Link.initial l none
                | some c => { Link.initial l (some c) with
                    state := .down, cause := .start, offer := offer, sendTimer := ⟨.running, 200⟩ })
              tx := s.tx ++ up.map (fun p => ⟨p.1, .train ⟨m.header.area, p.2.peer, offer, false, false⟩⟩)
              dev := { s.dev with
                state := .awaiting, copy := imageBytes bs, digest := some (imageCrc (imageBytes bs))
                area := m.header.area, brakes := m.rates, active := m.params, pendingParams := m.params
                checkTimer := ⟨.running, 100⟩ } })
      | some (item, index) =>
        let halted := emit (.deviceState .safeHalt .config (some item)) { s with dev := { s.dev with
          state := .safeHalt, haltCause := some .config, failItem := some item, failIndex := index
          checkTimer := ⟨.stopped, 0⟩, health := false } }
        ∃ t, exec (.imageReadComplete bs) s = .next t
          ∧ t.dev = halted.dev ∧ t.sections = s.sections ∧ t.points = s.points ∧ t.store = s.store ∧ t.table = []
          ∧ (∀ ch, (halted.queue ch).records <+: (t.queue ch).records)
          ∧ (s.routes = [] → s.table = [] → s.slots = [] → (∀ x ∈ s.links, x.conf = none) →
            ∃ c d, t = { halted with choices := c, drawn := d })
    else exec (.imageReadComplete bs) s = .next s

/-- The periodic image check (R166): an intact copy starts the timer again and nothing else happens; any other halts
the device with cause IMAGE_CHECK and HEALTH low. On that halt, whatever routes, slots and halves there are (R167):
DEVICE_STATE is queued first, then the units act in some order (log 24). Every half is withdrawn with its event,
oldest first (R32); every permission with cause DEVICE_STATE, in list order, each route to LOCKED with grant_allowed
false (R99); every route timer stops where it stands, its time kept (R73); every configured link goes to DOWN, halted,
a master's test ended INCOMPLETE before it (R134), the loss taken at the slots of a link that was UP (R141), in
position order (log 31), and then every slot timer stops. That a halted link keeps no last TRAIN is log 30's, its test
record beside the role log 47's. Holders, holds, claims, blocks, masks, FAULTED, views, moves in flight and every
record of the Active Route List stay (R12, R73, R89). The expiry is taken whenever the timer runs and changes nothing
when it does not (log 3, 25). The timers of a link, which the halt stops with no word on their time, show 0 (log 49).
-/
def Obligations.ImageCheckHalts : Prop :=
  let stop (x : Timer) : Timer := if x.mode = .running then ⟨.stopped, x.left⟩ else x
  let still (a : ActiveRoute) : ActiveRoute :=
    { a with setting := stop a.setting, overlapTimer := stop a.overlapTimer, release := stop a.release }
  let stilled (x : Slot) : Slot :=
    { x with transfer := stop x.transfer, recon := stop x.recon, accept := stop x.accept, transit := stop x.transit
             reserve := stop x.reserve }
  (∀ s : State,
    if s.dev.checkTimer.mode = .running ∧ (s.dev.state = .awaiting ∨ s.dev.state = .inService) then
      if some (imageCrc s.dev.copy) = s.dev.digest then
        exec .imageCheckTimerExpiry s = .next { s with dev := { s.dev with checkTimer := ⟨.running, 100⟩ } }
      else
        let halted := emit (.deviceState .safeHalt .imageCheck none) { s with dev := { s.dev with
          state := .safeHalt, haltCause := some .imageCheck, failItem := none, failIndex := 0
          checkTimer := ⟨.stopped, 0⟩, health := false } }
        ∃ t, exec .imageCheckTimerExpiry s = .next t
          ∧ t.dev = halted.dev ∧ t.table = [] ∧ (∀ a ∈ t.routes, a.state ≠ .permitted)
          ∧ ((s.routes.map (·.id)).Nodup → t.routes = s.routes.map (fun a =>
            if a.state = .permitted then { still a with state := .locked, grantAllowed := false } else still a))
          ∧ (∀ a ∈ s.routes, a.state = .permitted →
            ∀ x, t.signal? (s.defOf a.id).entry = some x → x.perm = none)
          ∧ t.sections = s.sections ∧ t.points = s.points
          ∧ t.signals.map (fun x => { x with perm := none, watch := .off }) =
            s.signals.map (fun x => { x with perm := none, watch := .off })
          ∧ t.store = s.store ∧ t.speeds = s.speeds ∧ t.disagreements = s.disagreements ∧ t.tx = s.tx
          ∧ (∀ ch, t.chan ch = s.chan ch ∧ t.port ch = s.port ch)
          ∧ t.slots.map (fun x => (x.ref, x.block, x.peer, x.yielded)) = s.slots.map (fun x => (x.ref, x.block, x.peer, x.yielded))
          ∧ (∀ x ∈ t.slots, stilled x = x)
          ∧ (s.links.map (·.id) = [0, 1, 2, 3] → ∀ x ∈ t.links, x.conf ≠ none → x.state = .down ∧ x.halted = true)
          ∧ (∀ ch, (halted.queue ch).records <+: (t.queue ch).records)
          ∧ InSomeOrder [withdrawTable, withdrawAll, freezeRoutes, haltLinks] halted t
    else exec .imageCheckTimerExpiry s = .next s)
  ∧ ∀ u : State,
    withdrawTable u = { emitAll (u.table.map (fun h => .requestDone h.tag h.kind .withdrawn 0)) u with table := [] }
    ∧ withdrawAll u = (u.routes.filter (fun a => a.state == .permitted)).foldl (fun v a => v.withdrawn a .deviceState) u
    ∧ freezeRoutes u = { u with routes := u.routes.map still }
    ∧ (∃ v, InSomeOrder ((List.range 4).map haltLink) u v ∧ haltLinks u = { v with slots := v.slots.map stilled })
    ∧ ∀ (l : Nat) (x : Link), u.link? l = some x →
      let result : TestOutcome := ⟨.incomplete, x.test.sent, x.test.matched⟩
      let ended := if x.state = .loopback ∧ x.test.role = .master then
        emit (.linkTestResult l result) (u.mapLink l (fun y => { y with lastResult := some result })) else u
      haltLink l u = if x.conf = none then u
        else (emit (.linkState l .down .halt) (ended.mapLink l (fun y => { y with
          state := .down, cause := .halt, halted := true, offer := param 13 u, trainCount := 0, lastTrain := none
          sentHeard := false, period := none, test := .idle, sendTimer := ⟨.stopped, 0⟩, training := ⟨.stopped, 0⟩
          supervision := ⟨.stopped, 0⟩, answer := ⟨.stopped, 0⟩, echo := ⟨.stopped, 0⟩ }))).lossTaken x

/-- HEALTH and device time (R162, R165): HEALTH changes level in AWAITING_ACCEPTANCE and IN_SERVICE alone. A
decisecond counts device time on, modulo 2³², and takes one decisecond from every running timer and from no other
(the unit of the passing of time is the model's, log 3); while DRST is asserted it does nothing. -/
def Obligations.ClockAndHealth : Prop :=
  ∀ s : State,
    (exec .healthToggle s = .next (if s.dev.state = .awaiting ∨ s.dev.state = .inService then
      { s with dev := { s.dev with health := !s.dev.health } } else s))
    ∧ (s.dev.drst = true → exec .deviceTimeTick s = .next s)
    ∧ (s.dev.drst = false → ∃ t, exec .deviceTimeTick s = .next t
      ∧ let ds (x : Timer) : Timer := if x.mode = .running then ⟨.running, x.left - 1⟩ else x
        let ms (x : Timer) : Timer := if x.mode = .running then ⟨.running, x.left - 100⟩ else x
        let chan (x : ChannelRec) : ChannelRec := { x with supervision := ms x.supervision, pauseLimit := ms x.pauseLimit }
        t = { s with
          dev := { s.dev with time := s.dev.time + 1, checkTimer := ds s.dev.checkTimer }
          sections := s.sections.map (fun x => { x with clearance := ds x.clearance, disc := ds x.disc })
          points := s.points.map (fun x => { x with disc := ds x.disc, moveTimer := ds x.moveTimer })
          signals := s.signals.map (fun x => { x with disc := ds x.disc, watch := ds x.watch })
          routes := s.routes.map (fun x =>
            { x with setting := ds x.setting, overlapTimer := ds x.overlapTimer, release := ds x.release })
          slots := s.slots.map (fun x =>
            { x with transfer := ds x.transfer, recon := ds x.recon, accept := ds x.accept, transit := ds x.transit
                     reserve := ds x.reserve })
          links := s.links.map (fun x =>
            { x with sendTimer := ms x.sendTimer, training := ms x.training, supervision := ms x.supervision
                     answer := ms x.answer, echo := ms x.echo })
          table := s.table.map (fun x => { x with window := ms x.window })
          chanA := chan s.chanA, chanB := chan s.chanB })

/-- DRST (R2, R33, R40, R41, R55, R121, R135, R161, R162, R168): asserted, every block is empty and the device in
LOADING with its time at 0, whatever stood before, but for the levels of the reset lines and what is not the block's;
each channel is ABSENT with its timers stopped and no cause of a last change, and each link is DISABLED with cause
START and the rest of its record as after DRST; released, the image read may begin and nothing else changes. The
levels of the lines are log 5's, the offer of 0 log 19's, the test record beside its role log 47's, the time of 0 that
a stopped timer shows log 49's. -/
def Obligations.DeviceResetLine : Prop :=
  ∀ s : State,
    (∃ t, exec .drstAsserted s = .next t
      ∧ t.dev = { Device.loading true with drst := true } ∧ t.dev.state = .loading ∧ t.dev.time = 0 ∧ t.dev.active = []
      ∧ t.dev.pendingParams = [] ∧ t.dev.health = false
      ∧ t.sections = [] ∧ t.points = [] ∧ t.signals = [] ∧ t.store = [] ∧ t.routes = [] ∧ t.speeds = [] ∧ t.slots = []
      ∧ t.table = [] ∧ t.disagreements = 0
      ∧ (∀ ch, t.chan ch = { state := .absent, cause := none, supervision := ⟨.stopped, 0⟩, pauseLimit := ⟨.stopped, 0⟩
                             crst := (s.chan ch).crst, resetMark := none }
        ∧ t.port ch = { phase := .idle, bytes := [], response := none, taken := 0, resetOnEnd := false, badFrames := 0 }
        ∧ (t.queue ch).records = [] ∧ (t.queue ch).lost = 0 ∧ t.atn ch = false)
      ∧ t.links = (List.range 4).map (fun l => {
          id := l, conf := none, state := .disabled, cause := .start, halted := false, offer := 0, trainCount := 0
          lastTrain := none, sentHeard := false, period := none, sendCounter := 0, lastCounter := none, badRun := 0
          badTotal := 0, mismatch := false, lastResult := none
          test := { role := .none, phase := .none, pattern := [], count := 0, sent := 0, echoes := 0, matched := 0
                    echoed := [] }
          sendTimer := ⟨.stopped, 0⟩, training := ⟨.stopped, 0⟩, supervision := ⟨.stopped, 0⟩, answer := ⟨.stopped, 0⟩
          echo := ⟨.stopped, 0⟩ })
      ∧ t.tx = s.tx ∧ t.pending = s.pending)
    ∧ exec .drstReleased s = .next { s with dev := { s.dev with drst := false } }

/-! ## Laws that every step keeps -/

/-- Every command keeps every element lawful: agreed status, clearance, discrepancy, move and watch timers agree with
views, mask, FAULTED, move and permission (R5 to R8, R11, R13, R14, R101); a section is OCCUPIED exactly while its
occupying condition holds (R5). -/
def Obligations.StepKeepsElementLaw : Prop :=
  ∀ s t : State, ElementLaw s → step s = .next t → ElementLaw t

/-- Every command keeps both sentences of the law of R57: no holder, hold, entry-of or claim of a route outside the Active
Route List; and every unreleased route section, each point in it, and each section and point of a HELD overlap of an active
route name that route as primary holder. So stays the claim of each STANDING flank entry (R77). Every command keeps the law of
R93 and R104: the permission of a signal names a route in PERMITTED whose entry it is, every route in PERMITTED has the
permission of its entry signal, and the device then is IN_SERVICE with both channels ACTIVE or PAUSED. Every command keeps the
law of R96 for every route in PERMITTED, each of its sections CLEAR, its points and claimed elements as required, its entry
signal fit (R94) and its exit slot in ACCEPTED, with the satisfied flag of every STANDING entry as R82 gives it. And every
command keeps the law of R146: ENTRY on a section names a slot over it in ACCEPTED, ACCEPTED_ISOLATED or RECEIVING. -/
def Obligations.StepKeepsHolderLaw : Prop :=
  (∀ s t : State, HolderLaw s → step s = .next t → HolderLaw t)
    ∧ (∀ s t : State, LockLaw s → step s = .next t → LockLaw t)
    ∧ (∀ s t : State, AuthorityLaw s → step s = .next t → AuthorityLaw t)
    ∧ (∀ s t : State, ElementLaw s → AuthorityLaw s → ProceedLaw s → step s = .next t → ProceedLaw t)
    ∧ ∀ s t : State, ReservationLaw s → step s = .next t → ReservationLaw t

/-- Every command keeps the bounds of the queues, the table and the Active Route List, and the four links (R25, R55, R121,
R157, R158). It keeps the claim sets: at most 8 claims and none twice (R75, R78), one position for the claims of a point and
for a primary hold on it (R76). And it keeps the channel records and the windows: never both channels PAUSED (R35), supervision
in ACTIVE alone, the pause limit in PAUSED alone (R34 to R37), and a window suspended exactly while its awaited channel is
PAUSED (R30). -/
def Obligations.StepKeepsStoreLaw : Prop :=
  (∀ s t : State, StoreLaw s → step s = .next t → StoreLaw t)
    ∧ (∀ s t : State, HolderLaw s → LockLaw s → ClaimLaw s → step s = .next t → ClaimLaw t)
    ∧ ∀ s t : State, ChannelLaw s → step s = .next t → ChannelLaw t

/-- What the image configures changes only by DRST and by the end of the image read (R1, R41, R45, R121, R135, R162, R177). -/
def Obligations.LayoutIsFixed : Prop :=
  ∀ (c : Instr) (s t : State), c ≠ .drstAsserted → (∀ bs, c ≠ .imageReadComplete bs) → exec c s = .next t →
    t.layout = s.layout

/-- The laws hold right after reset, where the device is in LOADING, every block is empty, both channels are ABSENT
with empty queues and no command waits (R162). The state is that of DRST just released (log 5). -/
def Obligations.ResetIsLawful : Prop :=
  ElementLaw State.reset ∧ HolderLaw State.reset ∧ LockLaw State.reset ∧ AuthorityLaw State.reset ∧ ProceedLaw State.reset
    ∧ ReservationLaw State.reset ∧ StoreLaw State.reset ∧ ClaimLaw State.reset ∧ ChannelLaw State.reset
    ∧ State.reset.dev.state = .loading ∧ State.reset.dev.time = 0 ∧ State.reset.pending = []
    ∧ State.reset.sections = [] ∧ State.reset.routes = [] ∧ State.reset.slots = [] ∧ State.reset.table = []
    ∧ ∀ ch, (State.reset.chan ch).state = .absent ∧ (State.reset.queue ch).records = [] ∧ State.reset.atn ch = false
end

