-- ==== Sys2Proof/Laws/State.lean ====
section
/-!
SUPPORT. One lemma for each field of State under each update of Machine/Ops.lean, and what each update does to the
record it names.
-/

namespace Sys2Proof.Machine

/-! ### mapSection -/

@[simp] theorem State.mapSection_dev (s : State) (id : Nat) (f : SectionRec → SectionRec) : (s.mapSection id f).dev = s.dev := rfl
@[simp] theorem State.mapSection_points (s : State) (id : Nat) (f : SectionRec → SectionRec) : (s.mapSection id f).points = s.points := rfl
@[simp] theorem State.mapSection_signals (s : State) (id : Nat) (f : SectionRec → SectionRec) : (s.mapSection id f).signals = s.signals := rfl
@[simp] theorem State.mapSection_store (s : State) (id : Nat) (f : SectionRec → SectionRec) : (s.mapSection id f).store = s.store := rfl
@[simp] theorem State.mapSection_routes (s : State) (id : Nat) (f : SectionRec → SectionRec) : (s.mapSection id f).routes = s.routes := rfl
@[simp] theorem State.mapSection_speeds (s : State) (id : Nat) (f : SectionRec → SectionRec) : (s.mapSection id f).speeds = s.speeds := rfl
@[simp] theorem State.mapSection_links (s : State) (id : Nat) (f : SectionRec → SectionRec) : (s.mapSection id f).links = s.links := rfl
@[simp] theorem State.mapSection_slots (s : State) (id : Nat) (f : SectionRec → SectionRec) : (s.mapSection id f).slots = s.slots := rfl
@[simp] theorem State.mapSection_table (s : State) (id : Nat) (f : SectionRec → SectionRec) : (s.mapSection id f).table = s.table := rfl
@[simp] theorem State.mapSection_disagreements (s : State) (id : Nat) (f : SectionRec → SectionRec) : (s.mapSection id f).disagreements = s.disagreements := rfl
@[simp] theorem State.mapSection_chanA (s : State) (id : Nat) (f : SectionRec → SectionRec) : (s.mapSection id f).chanA = s.chanA := rfl
@[simp] theorem State.mapSection_chanB (s : State) (id : Nat) (f : SectionRec → SectionRec) : (s.mapSection id f).chanB = s.chanB := rfl
@[simp] theorem State.mapSection_portA (s : State) (id : Nat) (f : SectionRec → SectionRec) : (s.mapSection id f).portA = s.portA := rfl
@[simp] theorem State.mapSection_portB (s : State) (id : Nat) (f : SectionRec → SectionRec) : (s.mapSection id f).portB = s.portB := rfl
@[simp] theorem State.mapSection_queueA (s : State) (id : Nat) (f : SectionRec → SectionRec) : (s.mapSection id f).queueA = s.queueA := rfl
@[simp] theorem State.mapSection_queueB (s : State) (id : Nat) (f : SectionRec → SectionRec) : (s.mapSection id f).queueB = s.queueB := rfl
@[simp] theorem State.mapSection_tx (s : State) (id : Nat) (f : SectionRec → SectionRec) : (s.mapSection id f).tx = s.tx := rfl
@[simp] theorem State.mapSection_choices (s : State) (id : Nat) (f : SectionRec → SectionRec) : (s.mapSection id f).choices = s.choices := rfl
@[simp] theorem State.mapSection_drawn (s : State) (id : Nat) (f : SectionRec → SectionRec) : (s.mapSection id f).drawn = s.drawn := rfl
@[simp] theorem State.mapSection_pending (s : State) (id : Nat) (f : SectionRec → SectionRec) : (s.mapSection id f).pending = s.pending := rfl

/-! ### mapPoint -/

@[simp] theorem State.mapPoint_dev (s : State) (id : Nat) (f : PointRec → PointRec) : (s.mapPoint id f).dev = s.dev := rfl
@[simp] theorem State.mapPoint_sections (s : State) (id : Nat) (f : PointRec → PointRec) : (s.mapPoint id f).sections = s.sections := rfl
@[simp] theorem State.mapPoint_signals (s : State) (id : Nat) (f : PointRec → PointRec) : (s.mapPoint id f).signals = s.signals := rfl
@[simp] theorem State.mapPoint_store (s : State) (id : Nat) (f : PointRec → PointRec) : (s.mapPoint id f).store = s.store := rfl
@[simp] theorem State.mapPoint_routes (s : State) (id : Nat) (f : PointRec → PointRec) : (s.mapPoint id f).routes = s.routes := rfl
@[simp] theorem State.mapPoint_speeds (s : State) (id : Nat) (f : PointRec → PointRec) : (s.mapPoint id f).speeds = s.speeds := rfl
@[simp] theorem State.mapPoint_links (s : State) (id : Nat) (f : PointRec → PointRec) : (s.mapPoint id f).links = s.links := rfl
@[simp] theorem State.mapPoint_slots (s : State) (id : Nat) (f : PointRec → PointRec) : (s.mapPoint id f).slots = s.slots := rfl
@[simp] theorem State.mapPoint_table (s : State) (id : Nat) (f : PointRec → PointRec) : (s.mapPoint id f).table = s.table := rfl
@[simp] theorem State.mapPoint_disagreements (s : State) (id : Nat) (f : PointRec → PointRec) : (s.mapPoint id f).disagreements = s.disagreements := rfl
@[simp] theorem State.mapPoint_chanA (s : State) (id : Nat) (f : PointRec → PointRec) : (s.mapPoint id f).chanA = s.chanA := rfl
@[simp] theorem State.mapPoint_chanB (s : State) (id : Nat) (f : PointRec → PointRec) : (s.mapPoint id f).chanB = s.chanB := rfl
@[simp] theorem State.mapPoint_portA (s : State) (id : Nat) (f : PointRec → PointRec) : (s.mapPoint id f).portA = s.portA := rfl
@[simp] theorem State.mapPoint_portB (s : State) (id : Nat) (f : PointRec → PointRec) : (s.mapPoint id f).portB = s.portB := rfl
@[simp] theorem State.mapPoint_queueA (s : State) (id : Nat) (f : PointRec → PointRec) : (s.mapPoint id f).queueA = s.queueA := rfl
@[simp] theorem State.mapPoint_queueB (s : State) (id : Nat) (f : PointRec → PointRec) : (s.mapPoint id f).queueB = s.queueB := rfl
@[simp] theorem State.mapPoint_tx (s : State) (id : Nat) (f : PointRec → PointRec) : (s.mapPoint id f).tx = s.tx := rfl
@[simp] theorem State.mapPoint_choices (s : State) (id : Nat) (f : PointRec → PointRec) : (s.mapPoint id f).choices = s.choices := rfl
@[simp] theorem State.mapPoint_drawn (s : State) (id : Nat) (f : PointRec → PointRec) : (s.mapPoint id f).drawn = s.drawn := rfl
@[simp] theorem State.mapPoint_pending (s : State) (id : Nat) (f : PointRec → PointRec) : (s.mapPoint id f).pending = s.pending := rfl

/-! ### mapSignal -/

@[simp] theorem State.mapSignal_dev (s : State) (id : Nat) (f : SignalRec → SignalRec) : (s.mapSignal id f).dev = s.dev := rfl
@[simp] theorem State.mapSignal_sections (s : State) (id : Nat) (f : SignalRec → SignalRec) : (s.mapSignal id f).sections = s.sections := rfl
@[simp] theorem State.mapSignal_points (s : State) (id : Nat) (f : SignalRec → SignalRec) : (s.mapSignal id f).points = s.points := rfl
@[simp] theorem State.mapSignal_store (s : State) (id : Nat) (f : SignalRec → SignalRec) : (s.mapSignal id f).store = s.store := rfl
@[simp] theorem State.mapSignal_routes (s : State) (id : Nat) (f : SignalRec → SignalRec) : (s.mapSignal id f).routes = s.routes := rfl
@[simp] theorem State.mapSignal_speeds (s : State) (id : Nat) (f : SignalRec → SignalRec) : (s.mapSignal id f).speeds = s.speeds := rfl
@[simp] theorem State.mapSignal_links (s : State) (id : Nat) (f : SignalRec → SignalRec) : (s.mapSignal id f).links = s.links := rfl
@[simp] theorem State.mapSignal_slots (s : State) (id : Nat) (f : SignalRec → SignalRec) : (s.mapSignal id f).slots = s.slots := rfl
@[simp] theorem State.mapSignal_table (s : State) (id : Nat) (f : SignalRec → SignalRec) : (s.mapSignal id f).table = s.table := rfl
@[simp] theorem State.mapSignal_disagreements (s : State) (id : Nat) (f : SignalRec → SignalRec) : (s.mapSignal id f).disagreements = s.disagreements := rfl
@[simp] theorem State.mapSignal_chanA (s : State) (id : Nat) (f : SignalRec → SignalRec) : (s.mapSignal id f).chanA = s.chanA := rfl
@[simp] theorem State.mapSignal_chanB (s : State) (id : Nat) (f : SignalRec → SignalRec) : (s.mapSignal id f).chanB = s.chanB := rfl
@[simp] theorem State.mapSignal_portA (s : State) (id : Nat) (f : SignalRec → SignalRec) : (s.mapSignal id f).portA = s.portA := rfl
@[simp] theorem State.mapSignal_portB (s : State) (id : Nat) (f : SignalRec → SignalRec) : (s.mapSignal id f).portB = s.portB := rfl
@[simp] theorem State.mapSignal_queueA (s : State) (id : Nat) (f : SignalRec → SignalRec) : (s.mapSignal id f).queueA = s.queueA := rfl
@[simp] theorem State.mapSignal_queueB (s : State) (id : Nat) (f : SignalRec → SignalRec) : (s.mapSignal id f).queueB = s.queueB := rfl
@[simp] theorem State.mapSignal_tx (s : State) (id : Nat) (f : SignalRec → SignalRec) : (s.mapSignal id f).tx = s.tx := rfl
@[simp] theorem State.mapSignal_choices (s : State) (id : Nat) (f : SignalRec → SignalRec) : (s.mapSignal id f).choices = s.choices := rfl
@[simp] theorem State.mapSignal_drawn (s : State) (id : Nat) (f : SignalRec → SignalRec) : (s.mapSignal id f).drawn = s.drawn := rfl
@[simp] theorem State.mapSignal_pending (s : State) (id : Nat) (f : SignalRec → SignalRec) : (s.mapSignal id f).pending = s.pending := rfl

/-! ### mapRoute -/

@[simp] theorem State.mapRoute_dev (s : State) (r : Nat) (f : ActiveRoute → ActiveRoute) : (s.mapRoute r f).dev = s.dev := rfl
@[simp] theorem State.mapRoute_sections (s : State) (r : Nat) (f : ActiveRoute → ActiveRoute) : (s.mapRoute r f).sections = s.sections := rfl
@[simp] theorem State.mapRoute_points (s : State) (r : Nat) (f : ActiveRoute → ActiveRoute) : (s.mapRoute r f).points = s.points := rfl
@[simp] theorem State.mapRoute_signals (s : State) (r : Nat) (f : ActiveRoute → ActiveRoute) : (s.mapRoute r f).signals = s.signals := rfl
@[simp] theorem State.mapRoute_store (s : State) (r : Nat) (f : ActiveRoute → ActiveRoute) : (s.mapRoute r f).store = s.store := rfl
@[simp] theorem State.mapRoute_speeds (s : State) (r : Nat) (f : ActiveRoute → ActiveRoute) : (s.mapRoute r f).speeds = s.speeds := rfl
@[simp] theorem State.mapRoute_links (s : State) (r : Nat) (f : ActiveRoute → ActiveRoute) : (s.mapRoute r f).links = s.links := rfl
@[simp] theorem State.mapRoute_slots (s : State) (r : Nat) (f : ActiveRoute → ActiveRoute) : (s.mapRoute r f).slots = s.slots := rfl
@[simp] theorem State.mapRoute_table (s : State) (r : Nat) (f : ActiveRoute → ActiveRoute) : (s.mapRoute r f).table = s.table := rfl
@[simp] theorem State.mapRoute_disagreements (s : State) (r : Nat) (f : ActiveRoute → ActiveRoute) : (s.mapRoute r f).disagreements = s.disagreements := rfl
@[simp] theorem State.mapRoute_chanA (s : State) (r : Nat) (f : ActiveRoute → ActiveRoute) : (s.mapRoute r f).chanA = s.chanA := rfl
@[simp] theorem State.mapRoute_chanB (s : State) (r : Nat) (f : ActiveRoute → ActiveRoute) : (s.mapRoute r f).chanB = s.chanB := rfl
@[simp] theorem State.mapRoute_portA (s : State) (r : Nat) (f : ActiveRoute → ActiveRoute) : (s.mapRoute r f).portA = s.portA := rfl
@[simp] theorem State.mapRoute_portB (s : State) (r : Nat) (f : ActiveRoute → ActiveRoute) : (s.mapRoute r f).portB = s.portB := rfl
@[simp] theorem State.mapRoute_queueA (s : State) (r : Nat) (f : ActiveRoute → ActiveRoute) : (s.mapRoute r f).queueA = s.queueA := rfl
@[simp] theorem State.mapRoute_queueB (s : State) (r : Nat) (f : ActiveRoute → ActiveRoute) : (s.mapRoute r f).queueB = s.queueB := rfl
@[simp] theorem State.mapRoute_tx (s : State) (r : Nat) (f : ActiveRoute → ActiveRoute) : (s.mapRoute r f).tx = s.tx := rfl
@[simp] theorem State.mapRoute_choices (s : State) (r : Nat) (f : ActiveRoute → ActiveRoute) : (s.mapRoute r f).choices = s.choices := rfl
@[simp] theorem State.mapRoute_drawn (s : State) (r : Nat) (f : ActiveRoute → ActiveRoute) : (s.mapRoute r f).drawn = s.drawn := rfl
@[simp] theorem State.mapRoute_pending (s : State) (r : Nat) (f : ActiveRoute → ActiveRoute) : (s.mapRoute r f).pending = s.pending := rfl

/-! ### mapLink -/

@[simp] theorem State.mapLink_dev (s : State) (l : Nat) (f : Link → Link) : (s.mapLink l f).dev = s.dev := rfl
@[simp] theorem State.mapLink_sections (s : State) (l : Nat) (f : Link → Link) : (s.mapLink l f).sections = s.sections := rfl
@[simp] theorem State.mapLink_points (s : State) (l : Nat) (f : Link → Link) : (s.mapLink l f).points = s.points := rfl
@[simp] theorem State.mapLink_signals (s : State) (l : Nat) (f : Link → Link) : (s.mapLink l f).signals = s.signals := rfl
@[simp] theorem State.mapLink_store (s : State) (l : Nat) (f : Link → Link) : (s.mapLink l f).store = s.store := rfl
@[simp] theorem State.mapLink_routes (s : State) (l : Nat) (f : Link → Link) : (s.mapLink l f).routes = s.routes := rfl
@[simp] theorem State.mapLink_speeds (s : State) (l : Nat) (f : Link → Link) : (s.mapLink l f).speeds = s.speeds := rfl
@[simp] theorem State.mapLink_slots (s : State) (l : Nat) (f : Link → Link) : (s.mapLink l f).slots = s.slots := rfl
@[simp] theorem State.mapLink_table (s : State) (l : Nat) (f : Link → Link) : (s.mapLink l f).table = s.table := rfl
@[simp] theorem State.mapLink_disagreements (s : State) (l : Nat) (f : Link → Link) : (s.mapLink l f).disagreements = s.disagreements := rfl
@[simp] theorem State.mapLink_chanA (s : State) (l : Nat) (f : Link → Link) : (s.mapLink l f).chanA = s.chanA := rfl
@[simp] theorem State.mapLink_chanB (s : State) (l : Nat) (f : Link → Link) : (s.mapLink l f).chanB = s.chanB := rfl
@[simp] theorem State.mapLink_portA (s : State) (l : Nat) (f : Link → Link) : (s.mapLink l f).portA = s.portA := rfl
@[simp] theorem State.mapLink_portB (s : State) (l : Nat) (f : Link → Link) : (s.mapLink l f).portB = s.portB := rfl
@[simp] theorem State.mapLink_queueA (s : State) (l : Nat) (f : Link → Link) : (s.mapLink l f).queueA = s.queueA := rfl
@[simp] theorem State.mapLink_queueB (s : State) (l : Nat) (f : Link → Link) : (s.mapLink l f).queueB = s.queueB := rfl
@[simp] theorem State.mapLink_tx (s : State) (l : Nat) (f : Link → Link) : (s.mapLink l f).tx = s.tx := rfl
@[simp] theorem State.mapLink_choices (s : State) (l : Nat) (f : Link → Link) : (s.mapLink l f).choices = s.choices := rfl
@[simp] theorem State.mapLink_drawn (s : State) (l : Nat) (f : Link → Link) : (s.mapLink l f).drawn = s.drawn := rfl
@[simp] theorem State.mapLink_pending (s : State) (l : Nat) (f : Link → Link) : (s.mapLink l f).pending = s.pending := rfl

/-! ### mapSlot -/

@[simp] theorem State.mapSlot_dev (s : State) (ref : SlotRef) (f : Slot → Slot) : (s.mapSlot ref f).dev = s.dev := rfl
@[simp] theorem State.mapSlot_sections (s : State) (ref : SlotRef) (f : Slot → Slot) : (s.mapSlot ref f).sections = s.sections := rfl
@[simp] theorem State.mapSlot_points (s : State) (ref : SlotRef) (f : Slot → Slot) : (s.mapSlot ref f).points = s.points := rfl
@[simp] theorem State.mapSlot_signals (s : State) (ref : SlotRef) (f : Slot → Slot) : (s.mapSlot ref f).signals = s.signals := rfl
@[simp] theorem State.mapSlot_store (s : State) (ref : SlotRef) (f : Slot → Slot) : (s.mapSlot ref f).store = s.store := rfl
@[simp] theorem State.mapSlot_routes (s : State) (ref : SlotRef) (f : Slot → Slot) : (s.mapSlot ref f).routes = s.routes := rfl
@[simp] theorem State.mapSlot_speeds (s : State) (ref : SlotRef) (f : Slot → Slot) : (s.mapSlot ref f).speeds = s.speeds := rfl
@[simp] theorem State.mapSlot_links (s : State) (ref : SlotRef) (f : Slot → Slot) : (s.mapSlot ref f).links = s.links := rfl
@[simp] theorem State.mapSlot_table (s : State) (ref : SlotRef) (f : Slot → Slot) : (s.mapSlot ref f).table = s.table := rfl
@[simp] theorem State.mapSlot_disagreements (s : State) (ref : SlotRef) (f : Slot → Slot) : (s.mapSlot ref f).disagreements = s.disagreements := rfl
@[simp] theorem State.mapSlot_chanA (s : State) (ref : SlotRef) (f : Slot → Slot) : (s.mapSlot ref f).chanA = s.chanA := rfl
@[simp] theorem State.mapSlot_chanB (s : State) (ref : SlotRef) (f : Slot → Slot) : (s.mapSlot ref f).chanB = s.chanB := rfl
@[simp] theorem State.mapSlot_portA (s : State) (ref : SlotRef) (f : Slot → Slot) : (s.mapSlot ref f).portA = s.portA := rfl
@[simp] theorem State.mapSlot_portB (s : State) (ref : SlotRef) (f : Slot → Slot) : (s.mapSlot ref f).portB = s.portB := rfl
@[simp] theorem State.mapSlot_queueA (s : State) (ref : SlotRef) (f : Slot → Slot) : (s.mapSlot ref f).queueA = s.queueA := rfl
@[simp] theorem State.mapSlot_queueB (s : State) (ref : SlotRef) (f : Slot → Slot) : (s.mapSlot ref f).queueB = s.queueB := rfl
@[simp] theorem State.mapSlot_tx (s : State) (ref : SlotRef) (f : Slot → Slot) : (s.mapSlot ref f).tx = s.tx := rfl
@[simp] theorem State.mapSlot_choices (s : State) (ref : SlotRef) (f : Slot → Slot) : (s.mapSlot ref f).choices = s.choices := rfl
@[simp] theorem State.mapSlot_drawn (s : State) (ref : SlotRef) (f : Slot → Slot) : (s.mapSlot ref f).drawn = s.drawn := rfl
@[simp] theorem State.mapSlot_pending (s : State) (ref : SlotRef) (f : Slot → Slot) : (s.mapSlot ref f).pending = s.pending := rfl

/-! ### setChan -/

@[simp] theorem State.setChan_dev (s : State) (ch : Channel) (c : ChannelRec) : (s.setChan ch c).dev = s.dev := by cases ch <;> rfl
@[simp] theorem State.setChan_sections (s : State) (ch : Channel) (c : ChannelRec) : (s.setChan ch c).sections = s.sections := by cases ch <;> rfl
@[simp] theorem State.setChan_points (s : State) (ch : Channel) (c : ChannelRec) : (s.setChan ch c).points = s.points := by cases ch <;> rfl
@[simp] theorem State.setChan_signals (s : State) (ch : Channel) (c : ChannelRec) : (s.setChan ch c).signals = s.signals := by cases ch <;> rfl
@[simp] theorem State.setChan_store (s : State) (ch : Channel) (c : ChannelRec) : (s.setChan ch c).store = s.store := by cases ch <;> rfl
@[simp] theorem State.setChan_routes (s : State) (ch : Channel) (c : ChannelRec) : (s.setChan ch c).routes = s.routes := by cases ch <;> rfl
@[simp] theorem State.setChan_speeds (s : State) (ch : Channel) (c : ChannelRec) : (s.setChan ch c).speeds = s.speeds := by cases ch <;> rfl
@[simp] theorem State.setChan_links (s : State) (ch : Channel) (c : ChannelRec) : (s.setChan ch c).links = s.links := by cases ch <;> rfl
@[simp] theorem State.setChan_slots (s : State) (ch : Channel) (c : ChannelRec) : (s.setChan ch c).slots = s.slots := by cases ch <;> rfl
@[simp] theorem State.setChan_table (s : State) (ch : Channel) (c : ChannelRec) : (s.setChan ch c).table = s.table := by cases ch <;> rfl
@[simp] theorem State.setChan_disagreements (s : State) (ch : Channel) (c : ChannelRec) : (s.setChan ch c).disagreements = s.disagreements := by cases ch <;> rfl
@[simp] theorem State.setChan_portA (s : State) (ch : Channel) (c : ChannelRec) : (s.setChan ch c).portA = s.portA := by cases ch <;> rfl
@[simp] theorem State.setChan_portB (s : State) (ch : Channel) (c : ChannelRec) : (s.setChan ch c).portB = s.portB := by cases ch <;> rfl
@[simp] theorem State.setChan_queueA (s : State) (ch : Channel) (c : ChannelRec) : (s.setChan ch c).queueA = s.queueA := by cases ch <;> rfl
@[simp] theorem State.setChan_queueB (s : State) (ch : Channel) (c : ChannelRec) : (s.setChan ch c).queueB = s.queueB := by cases ch <;> rfl
@[simp] theorem State.setChan_tx (s : State) (ch : Channel) (c : ChannelRec) : (s.setChan ch c).tx = s.tx := by cases ch <;> rfl
@[simp] theorem State.setChan_choices (s : State) (ch : Channel) (c : ChannelRec) : (s.setChan ch c).choices = s.choices := by cases ch <;> rfl
@[simp] theorem State.setChan_drawn (s : State) (ch : Channel) (c : ChannelRec) : (s.setChan ch c).drawn = s.drawn := by cases ch <;> rfl
@[simp] theorem State.setChan_pending (s : State) (ch : Channel) (c : ChannelRec) : (s.setChan ch c).pending = s.pending := by cases ch <;> rfl

/-! ### setPort -/

@[simp] theorem State.setPort_dev (s : State) (ch : Channel) (p : Port) : (s.setPort ch p).dev = s.dev := by cases ch <;> rfl
@[simp] theorem State.setPort_sections (s : State) (ch : Channel) (p : Port) : (s.setPort ch p).sections = s.sections := by cases ch <;> rfl
@[simp] theorem State.setPort_points (s : State) (ch : Channel) (p : Port) : (s.setPort ch p).points = s.points := by cases ch <;> rfl
@[simp] theorem State.setPort_signals (s : State) (ch : Channel) (p : Port) : (s.setPort ch p).signals = s.signals := by cases ch <;> rfl
@[simp] theorem State.setPort_store (s : State) (ch : Channel) (p : Port) : (s.setPort ch p).store = s.store := by cases ch <;> rfl
@[simp] theorem State.setPort_routes (s : State) (ch : Channel) (p : Port) : (s.setPort ch p).routes = s.routes := by cases ch <;> rfl
@[simp] theorem State.setPort_speeds (s : State) (ch : Channel) (p : Port) : (s.setPort ch p).speeds = s.speeds := by cases ch <;> rfl
@[simp] theorem State.setPort_links (s : State) (ch : Channel) (p : Port) : (s.setPort ch p).links = s.links := by cases ch <;> rfl
@[simp] theorem State.setPort_slots (s : State) (ch : Channel) (p : Port) : (s.setPort ch p).slots = s.slots := by cases ch <;> rfl
@[simp] theorem State.setPort_table (s : State) (ch : Channel) (p : Port) : (s.setPort ch p).table = s.table := by cases ch <;> rfl
@[simp] theorem State.setPort_disagreements (s : State) (ch : Channel) (p : Port) : (s.setPort ch p).disagreements = s.disagreements := by cases ch <;> rfl
@[simp] theorem State.setPort_chanA (s : State) (ch : Channel) (p : Port) : (s.setPort ch p).chanA = s.chanA := by cases ch <;> rfl
@[simp] theorem State.setPort_chanB (s : State) (ch : Channel) (p : Port) : (s.setPort ch p).chanB = s.chanB := by cases ch <;> rfl
@[simp] theorem State.setPort_queueA (s : State) (ch : Channel) (p : Port) : (s.setPort ch p).queueA = s.queueA := by cases ch <;> rfl
@[simp] theorem State.setPort_queueB (s : State) (ch : Channel) (p : Port) : (s.setPort ch p).queueB = s.queueB := by cases ch <;> rfl
@[simp] theorem State.setPort_tx (s : State) (ch : Channel) (p : Port) : (s.setPort ch p).tx = s.tx := by cases ch <;> rfl
@[simp] theorem State.setPort_choices (s : State) (ch : Channel) (p : Port) : (s.setPort ch p).choices = s.choices := by cases ch <;> rfl
@[simp] theorem State.setPort_drawn (s : State) (ch : Channel) (p : Port) : (s.setPort ch p).drawn = s.drawn := by cases ch <;> rfl
@[simp] theorem State.setPort_pending (s : State) (ch : Channel) (p : Port) : (s.setPort ch p).pending = s.pending := by cases ch <;> rfl

/-! ### setQueue -/

@[simp] theorem State.setQueue_dev (s : State) (ch : Channel) (q : EventQueue) : (s.setQueue ch q).dev = s.dev := by cases ch <;> rfl
@[simp] theorem State.setQueue_sections (s : State) (ch : Channel) (q : EventQueue) : (s.setQueue ch q).sections = s.sections := by cases ch <;> rfl
@[simp] theorem State.setQueue_points (s : State) (ch : Channel) (q : EventQueue) : (s.setQueue ch q).points = s.points := by cases ch <;> rfl
@[simp] theorem State.setQueue_signals (s : State) (ch : Channel) (q : EventQueue) : (s.setQueue ch q).signals = s.signals := by cases ch <;> rfl
@[simp] theorem State.setQueue_store (s : State) (ch : Channel) (q : EventQueue) : (s.setQueue ch q).store = s.store := by cases ch <;> rfl
@[simp] theorem State.setQueue_routes (s : State) (ch : Channel) (q : EventQueue) : (s.setQueue ch q).routes = s.routes := by cases ch <;> rfl
@[simp] theorem State.setQueue_speeds (s : State) (ch : Channel) (q : EventQueue) : (s.setQueue ch q).speeds = s.speeds := by cases ch <;> rfl
@[simp] theorem State.setQueue_links (s : State) (ch : Channel) (q : EventQueue) : (s.setQueue ch q).links = s.links := by cases ch <;> rfl
@[simp] theorem State.setQueue_slots (s : State) (ch : Channel) (q : EventQueue) : (s.setQueue ch q).slots = s.slots := by cases ch <;> rfl
@[simp] theorem State.setQueue_table (s : State) (ch : Channel) (q : EventQueue) : (s.setQueue ch q).table = s.table := by cases ch <;> rfl
@[simp] theorem State.setQueue_disagreements (s : State) (ch : Channel) (q : EventQueue) : (s.setQueue ch q).disagreements = s.disagreements := by cases ch <;> rfl
@[simp] theorem State.setQueue_chanA (s : State) (ch : Channel) (q : EventQueue) : (s.setQueue ch q).chanA = s.chanA := by cases ch <;> rfl
@[simp] theorem State.setQueue_chanB (s : State) (ch : Channel) (q : EventQueue) : (s.setQueue ch q).chanB = s.chanB := by cases ch <;> rfl
@[simp] theorem State.setQueue_portA (s : State) (ch : Channel) (q : EventQueue) : (s.setQueue ch q).portA = s.portA := by cases ch <;> rfl
@[simp] theorem State.setQueue_portB (s : State) (ch : Channel) (q : EventQueue) : (s.setQueue ch q).portB = s.portB := by cases ch <;> rfl
@[simp] theorem State.setQueue_tx (s : State) (ch : Channel) (q : EventQueue) : (s.setQueue ch q).tx = s.tx := by cases ch <;> rfl
@[simp] theorem State.setQueue_choices (s : State) (ch : Channel) (q : EventQueue) : (s.setQueue ch q).choices = s.choices := by cases ch <;> rfl
@[simp] theorem State.setQueue_drawn (s : State) (ch : Channel) (q : EventQueue) : (s.setQueue ch q).drawn = s.drawn := by cases ch <;> rfl
@[simp] theorem State.setQueue_pending (s : State) (ch : Channel) (q : EventQueue) : (s.setQueue ch q).pending = s.pending := by cases ch <;> rfl

/-! ### What an update does to the field it names -/

@[simp] theorem State.mapSection_sections (s : State) (id : Nat) (f : SectionRec → SectionRec) :
    (s.mapSection id f).sections = s.sections.map (fun x => if x.id = id then f x else x) := rfl
@[simp] theorem State.mapPoint_points (s : State) (id : Nat) (f : PointRec → PointRec) :
    (s.mapPoint id f).points = s.points.map (fun x => if x.id = id then f x else x) := rfl
@[simp] theorem State.mapSignal_signals (s : State) (id : Nat) (f : SignalRec → SignalRec) :
    (s.mapSignal id f).signals = s.signals.map (fun x => if x.id = id then f x else x) := rfl
@[simp] theorem State.mapRoute_routes (s : State) (r : Nat) (f : ActiveRoute → ActiveRoute) :
    (s.mapRoute r f).routes = s.routes.map (fun x => if x.id = r then f x else x) := rfl
@[simp] theorem State.mapLink_links (s : State) (l : Nat) (f : Link → Link) :
    (s.mapLink l f).links = s.links.map (fun x => if x.id = l then f x else x) := rfl
@[simp] theorem State.mapSlot_slots (s : State) (ref : SlotRef) (f : Slot → Slot) :
    (s.mapSlot ref f).slots = s.slots.map (fun x => if x.ref = ref then f x else x) := rfl

@[simp] theorem State.setChan_chan (s : State) (ch : Channel) (c : ChannelRec) : (s.setChan ch c).chan ch = c := by
  cases ch <;> rfl
@[simp] theorem State.setChan_chan_other (s : State) (ch : Channel) (c : ChannelRec) :
    (s.setChan ch c).chan ch.other = s.chan ch.other := by cases ch <;> rfl
@[simp] theorem State.setPort_port (s : State) (ch : Channel) (p : Port) : (s.setPort ch p).port ch = p := by
  cases ch <;> rfl
@[simp] theorem State.setPort_port_other (s : State) (ch : Channel) (p : Port) :
    (s.setPort ch p).port ch.other = s.port ch.other := by cases ch <;> rfl
@[simp] theorem State.setQueue_queue (s : State) (ch : Channel) (q : EventQueue) : (s.setQueue ch q).queue ch = q := by
  cases ch <;> rfl
@[simp] theorem State.setQueue_queue_other (s : State) (ch : Channel) (q : EventQueue) :
    (s.setQueue ch q).queue ch.other = s.queue ch.other := by cases ch <;> rfl
@[simp] theorem State.setPort_chan (s : State) (ch c : Channel) (p : Port) : (s.setPort ch p).chan c = s.chan c := by
  cases ch <;> cases c <;> rfl
@[simp] theorem State.setPort_queue (s : State) (ch c : Channel) (p : Port) : (s.setPort ch p).queue c = s.queue c := by
  cases ch <;> cases c <;> rfl
@[simp] theorem State.setChan_port (s : State) (ch c : Channel) (r : ChannelRec) : (s.setChan ch r).port c = s.port c := by
  cases ch <;> cases c <;> rfl
@[simp] theorem State.setChan_queue (s : State) (ch c : Channel) (r : ChannelRec) :
    (s.setChan ch r).queue c = s.queue c := by cases ch <;> cases c <;> rfl
@[simp] theorem State.setQueue_chan (s : State) (ch c : Channel) (q : EventQueue) :
    (s.setQueue ch q).chan c = s.chan c := by cases ch <;> cases c <;> rfl
@[simp] theorem State.setQueue_port (s : State) (ch c : Channel) (q : EventQueue) :
    (s.setQueue ch q).port c = s.port c := by cases ch <;> cases c <;> rfl

@[simp] theorem Channel.other_other (ch : Channel) : ch.other.other = ch := by cases ch <;> rfl
@[simp] theorem Channel.other_ne (ch : Channel) : ch.other ≠ ch := by cases ch <;> decide

end Sys2Proof.Machine
end

