-- ==== Sys2Proof/Laws/Order.lean ====
section
/-!
SUPPORT. What several changes carried out one after another, or in an order that the spec leaves open, can do: a
property that every change keeps is kept by all of them, and every one of them is carried out.
-/

namespace Sys2Proof.Machine

/-! ## pick -/

/-- A choice changes nothing but the free values. -/
theorem pick_eq (s : State) (n : Nat) :
    (s.pick n).2 = { s with choices := (s.pick n).2.choices, drawn := (s.pick n).2.drawn } := by
  unfold State.pick; split <;> rfl

theorem pick_lt (s : State) {n : Nat} (h : 0 < n) : (s.pick n).1 < n := by
  unfold State.pick; split <;> exact Nat.mod_lt _ h

/-! ## inOrder -/

@[simp] theorem inOrder_nil (s : State) : inOrder [] s = s := rfl

@[simp] theorem inOrder_cons (f : State → State) (fs : List (State → State)) (s : State) :
    inOrder (f :: fs) s = inOrder fs (f s) := rfl

theorem inOrder_append (fs gs : List (State → State)) (s : State) : inOrder (fs ++ gs) s = inOrder gs (inOrder fs s) := by
  simp [inOrder, List.foldl_append]

/-- A property that every change keeps is kept by all of them. -/
theorem inOrder_ind {P : State → Prop} {fs : List (State → State)} (h : ∀ f ∈ fs, ∀ s, P s → P (f s)) :
    ∀ {s : State}, P s → P (inOrder fs s) := by
  induction fs with
  | nil => intro s hs; exact hs
  | cons f fs ih =>
    intro s hs
    exact ih (fun g hg => h g (List.mem_cons_of_mem f hg)) (h f (List.mem_cons_self) s hs)

/-- What one change brings about, and the others keep, holds at the end. -/
theorem inOrder_reach {P Q : State → Prop} {fs : List (State → State)} {f : State → State} (hf : f ∈ fs)
    (h : ∀ g ∈ fs, ∀ s, P s → P (g s)) (hq : ∀ s, P s → Q (f s)) (hk : ∀ g ∈ fs, ∀ s, P s → Q s → Q (g s))
    {s : State} (hs : P s) : Q (inOrder fs s) := by
  induction fs generalizing s with
  | nil => cases hf
  | cons g gs ih =>
    rw [inOrder_cons]
    rcases List.mem_cons.1 hf with rfl | hm
    · have := inOrder_ind (P := fun t => P t ∧ Q t) (fs := gs) (s := f s)
        (fun k hk' t ht => ⟨h k (List.mem_cons_of_mem _ hk') t ht.1, hk k (List.mem_cons_of_mem _ hk') t ht.1 ht.2⟩)
        ⟨h f List.mem_cons_self s hs, hq s hs⟩
      exact this.2
    · exact ih hm (fun k hk' => h k (List.mem_cons_of_mem _ hk')) (fun k hk' => hk k (List.mem_cons_of_mem _ hk'))
        (h g List.mem_cons_self s hs)

/-! ## inAnyOrder -/

/-- What does not look at the free values is the same after a choice. -/
def BlindToChoice (P : State → Prop) : Prop := ∀ s c d, P s → P { s with choices := c, drawn := d }

theorem BlindToChoice.pick {P : State → Prop} (hp : BlindToChoice P) {s : State} (n : Nat) (h : P s) :
    P (s.pick n).2 := by
  rw [pick_eq]; exact hp _ _ _ h

/-- One step of `inAnyOrderN` over two or more changes. -/
theorem inAnyOrderN_step (k : Nat) (f g : State → State) (rest : List (State → State)) (s : State) :
    ∃ i, ∃ hi : i < (f :: g :: rest).length, inAnyOrderN (k + 1) (f :: g :: rest) s =
      inAnyOrderN k ((f :: g :: rest).eraseIdx i) ((f :: g :: rest)[i] (s.pick (rest.length + 2)).2) := by
  have hlt : (s.pick (rest.length + 2)).1 < (f :: g :: rest).length := pick_lt s (Nat.succ_pos _)
  refine ⟨_, hlt, ?_⟩
  simp only [inAnyOrderN]
  rw [List.getElem?_eq_getElem hlt]

theorem inAnyOrderN_ind {P : State → Prop} (hp : BlindToChoice P) :
    ∀ (k : Nat) {fs : List (State → State)}, (∀ f ∈ fs, ∀ s, P s → P (f s)) →
      ∀ {s : State}, P s → P (inAnyOrderN k fs s)
  | 0, _, _, _, hs => hs
  | k + 1, [], _, _, hs => hs
  | k + 1, [f], h, s, hs => h f (List.mem_singleton_self f) s hs
  | k + 1, f :: g :: rest, h, s, hs => by
    obtain ⟨i, hi, e⟩ := inAnyOrderN_step k f g rest s
    rw [e]
    exact inAnyOrderN_ind hp k (fun x hx => h x (List.mem_of_mem_eraseIdx hx))
      (h _ (List.getElem_mem hi) _ (hp.pick _ hs))

/-- A property that every change keeps, and that does not look at the free values, is kept by all of them in any
order. -/
theorem inAnyOrder_ind {P : State → Prop} (hp : BlindToChoice P) {fs : List (State → State)}
    (h : ∀ f ∈ fs, ∀ s, P s → P (f s)) {s : State} (hs : P s) : P (inAnyOrder fs s) :=
  inAnyOrderN_ind hp _ h hs

theorem inAnyOrderN_reach {P Q : State → Prop} (hp : BlindToChoice P) (hqb : BlindToChoice Q) :
    ∀ (k : Nat) {fs : List (State → State)} {f : State → State}, fs.length ≤ k → f ∈ fs →
      (∀ g ∈ fs, ∀ s, P s → P (g s)) → (∀ s, P s → Q (f s)) → (∀ g ∈ fs, ∀ s, P s → Q s → Q (g s)) →
      ∀ {s : State}, P s → Q (inAnyOrderN k fs s)
  | 0, fs, f, hk, hf, _, _, _, _, _ => by
    have : fs = [] := List.length_eq_zero_iff.1 (by omega)
    subst this; cases hf
  | k + 1, [], f, _, hf, _, _, _, _, _ => by cases hf
  | k + 1, [g], f, _, hf, _, hq, _, s, hs => by
    rw [List.mem_singleton.1 hf] at hq
    exact hq s hs
  | k + 1, g :: g' :: rest, f, hk, hf, h, hq, hkeep, s, hs => by
    obtain ⟨i, hi, e⟩ := inAnyOrderN_step k g g' rest s
    rw [e]
    have hs' := hp.pick (rest.length + 2) hs
    have hmem := List.getElem_mem hi
    by_cases hrest : f ∈ (g :: g' :: rest).eraseIdx i
    · refine inAnyOrderN_reach hp hqb k ?_ hrest (fun x hx => h x (List.mem_of_mem_eraseIdx hx)) hq
        (fun x hx => hkeep x (List.mem_of_mem_eraseIdx hx)) (h _ hmem _ hs')
      rw [List.length_eraseIdx_of_lt hi]; simp only [List.length_cons] at hk ⊢; omega
    · have hfi : f = (g :: g' :: rest)[i] := by
        obtain ⟨j, hj, rfl⟩ := List.getElem_of_mem hf
        by_contra hne
        exact hrest (List.mem_eraseIdx_iff_getElem.2 ⟨j, hj, fun e => hne (by subst e; rfl), rfl⟩)
      have := inAnyOrderN_ind (P := fun t => P t ∧ Q t) (fun s c d hh => ⟨hp s c d hh.1, hqb s c d hh.2⟩) k
        (fs := (g :: g' :: rest).eraseIdx i)
        (fun x hx t ht => ⟨h x (List.mem_of_mem_eraseIdx hx) t ht.1,
          hkeep x (List.mem_of_mem_eraseIdx hx) t ht.1 ht.2⟩)
        (s := (g :: g' :: rest)[i] (s.pick (rest.length + 2)).2) ⟨h _ hmem _ hs', by rw [← hfi]; exact hq _ hs'⟩
      exact this.2

/-- What one change brings about, and the others keep, holds after all of them in any order. -/
theorem inAnyOrder_reach {P Q : State → Prop} (hp : BlindToChoice P) (hqb : BlindToChoice Q)
    {fs : List (State → State)} {f : State → State} (hf : f ∈ fs) (h : ∀ g ∈ fs, ∀ s, P s → P (g s))
    (hq : ∀ s, P s → Q (f s)) (hk : ∀ g ∈ fs, ∀ s, P s → Q s → Q (g s)) {s : State} (hs : P s) :
    Q (inAnyOrder fs s) :=
  inAnyOrderN_reach hp hqb _ (Nat.le_refl _) hf h hq hk hs

/-- A reading of the state that every change leaves as it is. -/
theorem inOrder_keep {α : Type} (p : State → α) {fs : List (State → State)} (h : ∀ f ∈ fs, ∀ s, p (f s) = p s)
    (s : State) : p (inOrder fs s) = p s :=
  inOrder_ind (P := fun t => p t = p s) (fun f hf t ht => (h f hf t).trans ht) rfl

/-- The same in any order. -/
theorem inAnyOrder_keep {α : Type} (p : State → α) (hp : ∀ s c d, p { s with choices := c, drawn := d } = p s)
    {fs : List (State → State)} (h : ∀ f ∈ fs, ∀ s, p (f s) = p s) (s : State) : p (inAnyOrder fs s) = p s :=
  inAnyOrder_ind (P := fun t => p t = p s) (fun t c d ht => (hp t c d).trans ht)
    (fun f hf t ht => (h f hf t).trans ht) rfl

@[simp] theorem inAnyOrder_nil (s : State) : inAnyOrder [] s = s := rfl

@[simp] theorem inAnyOrder_single (f : State → State) (s : State) : inAnyOrder [f] s = f s := rfl

end Sys2Proof.Machine
end

