-- ==== Sys2Proof/Laws/Units.lean ====
section
/-!
SUPPORT. Once for all what the units can do with a change handed to them (R15, R22, R38): `UnitClosed P` lists the few
kinds of change that all their work is made of, and one lemma for each operation says that the operation keeps every
property closed under those kinds. Frames and invariants are then instances: choose `P`.
-/

namespace Sys2Proof.Machine

/-! ## What may change -/

/-- A change of a section that only drops its holder or sets an entry reservation. -/
def SectionKeeps (f : SectionRec → SectionRec) : Prop :=
  ∀ x, (f x).core = x.core ∧ holderDrops x.holder (f x).holder

/-- A change of a point that only drops its hold or claims. -/
def PointKeeps (f : PointRec → PointRec) : Prop := ∀ x, (f x).core = x.core ∧ holdDrops x (f x)

/-- The watch timer agrees with the views and the permission (R101). -/
def SignalRec.WatchLaw (x : SignalRec) : Prop := x.watch.mode = .stopped ↔ x.watched = false

/-- A change of a signal that only drops its entry-of, claims or permission, or moves its watch timer with it. -/
def SignalKeeps (f : SignalRec → SignalRec) : Prop :=
  ∀ x, (f x).core = x.core ∧ signalDrops [] x (f x) ∧ (x.WatchLaw → (f x).WatchLaw)

/-- A change of a route record that keeps its identity and does not bring it into PERMITTED. -/
def RouteKeeps (f : ActiveRoute → ActiveRoute) : Prop :=
  ∀ x, (f x).core = x.core ∧ ((f x).state = .permitted → x.state = .permitted)

/-- A change of a slot record that keeps its configured part, its block and the peer's fields. -/
def SlotKeeps (f : Slot → Slot) : Prop := ∀ x, (f x).core = x.core

/-- A property closed under every kind of change that the units make on a handed change. -/
structure UnitClosed (P : State → Prop) : Prop where
  choice : ∀ s c d, P s → P { s with choices := c, drawn := d }
  emit : ∀ s e, P s → P (emit e s)
  sections : ∀ s f, SectionKeeps f → P s → P { s with sections := s.sections.map f }
  points : ∀ s f, PointKeeps f → P s → P { s with points := s.points.map f }
  signals : ∀ s f, SignalKeeps f → P s → P { s with signals := s.signals.map f }
  routes : ∀ s f, RouteKeeps f → P s → P { s with routes := s.routes.map f }
  slots : ∀ s f, SlotKeeps f → P s → P { s with slots := s.slots.map f }
  grant : ∀ s a, s.route? a.id = some a → a.state = .locked → grantable s a = true → P s → P (grant a s)
  dropRoute : ∀ s r, P s → P (dropRoute r s)

theorem UnitClosed.inAnyOrder {P : State → Prop} (h : UnitClosed P) {fs : List (State → State)}
    (hf : ∀ f ∈ fs, ∀ s, P s → P (f s)) {s : State} (hs : P s) : P (inAnyOrder fs s) :=
  inAnyOrder_ind h.choice hf hs

/-- Changes given by a list of records. -/
theorem forall_map {α : Type} {P : State → Prop} {xs : List α} {g : α → State → State}
    (h : ∀ x, ∀ s, P s → P (g x s)) : ∀ f ∈ xs.map g, ∀ s, P s → P (f s) := by
  intro f hf
  obtain ⟨x, -, rfl⟩ := List.mem_map.1 hf
  exact h x

/-! ## Updates of one record -/

theorem SectionKeeps.ite {p : SectionRec → Prop} [DecidablePred p] {f : SectionRec → SectionRec} (h : SectionKeeps f) :
    SectionKeeps (fun x => if p x then f x else x) := by
  intro x; dsimp only; split
  · exact h x
  · exact ⟨rfl, .inl rfl⟩

theorem PointKeeps.ite {p : PointRec → Prop} [DecidablePred p] {f : PointRec → PointRec} (h : PointKeeps f) :
    PointKeeps (fun x => if p x then f x else x) := by
  intro x; dsimp only; split
  · exact h x
  · exact ⟨rfl, .inl rfl, List.Sublist.refl _⟩

theorem SignalKeeps.ite {p : SignalRec → Prop} [DecidablePred p] {f : SignalRec → SignalRec} (h : SignalKeeps f) :
    SignalKeeps (fun x => if p x then f x else x) := by
  intro x; dsimp only; split
  · exact h x
  · exact ⟨rfl, ⟨.inl rfl, List.Sublist.refl _, .inl rfl⟩, id⟩

theorem RouteKeeps.ite {p : ActiveRoute → Prop} [DecidablePred p] {f : ActiveRoute → ActiveRoute} (h : RouteKeeps f) :
    RouteKeeps (fun x => if p x then f x else x) := by
  intro x; dsimp only; split
  · exact h x
  · exact ⟨rfl, id⟩

theorem SlotKeeps.ite {p : Slot → Prop} [DecidablePred p] {f : Slot → Slot} (h : SlotKeeps f) :
    SlotKeeps (fun x => if p x then f x else x) := by
  intro x; dsimp only; split
  · exact h x
  · exact rfl

/-- The watch timer that follows a change of permission agrees with it. -/
theorem watchTimer_law (p7 : Nat) (x : SignalRec) : SignalRec.WatchLaw { x with watch := x.watchTimer p7 } := by
  have hw : SignalRec.watched { x with watch := x.watchTimer p7 } = x.watched := rfl
  unfold SignalRec.WatchLaw
  rw [hw]
  unfold SignalRec.watchTimer Timer.start Timer.off
  cases hb : x.watched
  · simp
  · by_cases hm : x.watch.mode = .stopped <;> simp [hm]

theorem route?_id {s : State} {r : Nat} {a : ActiveRoute} (e : s.route? r = some a) : a.id = r := by
  have := List.find?_some e; simpa using this

section
variable {P : State → Prop} (h : UnitClosed P)
include h

theorem UnitClosed.mapSection {s : State} {id : Nat} {f : SectionRec → SectionRec} (hf : SectionKeeps f) (hs : P s) :
    P (s.mapSection id f) := h.sections s _ hf.ite hs

theorem UnitClosed.mapPoint {s : State} {id : Nat} {f : PointRec → PointRec} (hf : PointKeeps f) (hs : P s) :
    P (s.mapPoint id f) := h.points s _ hf.ite hs

theorem UnitClosed.mapSignal {s : State} {id : Nat} {f : SignalRec → SignalRec} (hf : SignalKeeps f) (hs : P s) :
    P (s.mapSignal id f) := h.signals s _ hf.ite hs

theorem UnitClosed.mapRoute {s : State} {r : Nat} {f : ActiveRoute → ActiveRoute} (hf : RouteKeeps f) (hs : P s) :
    P (s.mapRoute r f) := h.routes s _ hf.ite hs

theorem UnitClosed.mapSlot {s : State} {ref : SlotRef} {f : Slot → Slot} (hf : SlotKeeps f) (hs : P s) :
    P (s.mapSlot ref f) := h.slots s _ hf.ite hs

/-! ## The Permission Unit -/

theorem UnitClosed.setPermNone {s : State} (g : Nat) (hs : P s) : P (setPerm g none s) :=
  h.mapSignal (fun _ => ⟨rfl, ⟨.inl rfl, List.Sublist.refl _, .inr (.inl rfl)⟩, fun _ => watchTimer_law _ _⟩) hs

theorem UnitClosed.withdraw {s : State} (a : ActiveRoute) (c : PermCause) (hs : P s) : P (withdraw a c s) :=
  h.emit _ _ (h.mapRoute (fun _ => ⟨rfl, fun e => nomatch e⟩) (h.emit _ _ (h.setPermNone _ hs)))

theorem UnitClosed.withdrawOnly {s : State} (a : ActiveRoute) (c : PermCause) (hs : P s) : P (withdrawOnly a c s) := by
  unfold Machine.withdrawOnly; dsimp only; repeat' split
  · exact h.emit _ _ (h.setPermNone _ hs)
  · exact hs
  · exact hs

theorem UnitClosed.permRoute {s : State} (c : Concern) (r : Nat) (hs : P s) : P (permRoute c r s) := by
  unfold Machine.permRoute
  split
  · exact hs
  · next a e =>
    split
    · exact hs
    · split
      · split
        · exact h.withdraw _ _ hs
        · exact hs
      · split
        · next hg => exact h.grant s a (by rw [route?_id e]; exact e) hg.1 hg.2.2 hs
        · exact hs

theorem UnitClosed.withdrawAll {s : State} (hs : P s) : P (withdrawAll s) := by
  unfold Machine.withdrawAll
  exact inOrder_ind (forall_map (g := fun a : ActiveRoute => Machine.withdraw a .deviceState) (fun _ _ => h.withdraw _ _)) hs

theorem UnitClosed.permOn {s : State} (c : Concern) (hs : P s) : P (permOn c s) := by
  unfold Machine.permOn
  split
  · exact h.withdrawAll hs
  · exact inOrder_ind (forall_map (g := fun a : ActiveRoute => Machine.permRoute c a.id) (fun _ _ => h.permRoute c _)) hs

theorem UnitClosed.withdrawOver {s : State} (g sec : Nat) (hs : P s) : P (withdrawOver g sec s) := by
  unfold Machine.withdrawOver
  exact inOrder_ind (forall_map (g := fun a : ActiveRoute => Machine.withdraw a (.unauthorized g)) (fun _ _ => h.withdraw _ _)) hs

/-! ## Slots -/

theorem UnitClosed.setPermit {s : State} {ref : SlotRef} {p : Permit} {c : PermitCause} {f : Slot → Slot}
    (hf : SlotKeeps f) (hs : P s) : P (setPermit ref p c f s) :=
  h.emit _ _ (h.mapSlot (fun x => hf x) hs)

theorem UnitClosed.setOutbound {s : State} {ref : SlotRef} {o : Outbound} {c : SlotCause} {f : Slot → Slot}
    (hf : SlotKeeps f) (hs : P s) : P (setOutbound ref o c f s) :=
  h.permOn _ (h.emit _ _ (h.mapSlot (fun x => hf x) hs))

theorem UnitClosed.tryOffer {s : State} (ref : SlotRef) (hs : P s) : P (tryOffer ref s) := by
  unfold Machine.tryOffer; repeat' split
  · exact hs
  · exact h.setOutbound (fun _ => rfl) hs
  · exact hs

theorem UnitClosed.loseTransit {s : State} (ref : SlotRef) (hs : P s) : P (loseTransit ref s) :=
  h.routes _ _ (RouteKeeps.ite (p := fun a => a.exitSlot = some ref ∧ hasEntered a = true) (fun _ => ⟨rfl, id⟩)) hs

theorem UnitClosed.endOutbound {s : State} (ref : SlotRef) (hs : P s) : P (endOutbound ref s) := by
  unfold Machine.endOutbound; repeat' split
  all_goals first
    | exact hs
    | exact h.setOutbound (fun _ => rfl) hs
    | exact h.loseTransit _ (h.setOutbound (fun _ => rfl) hs)

theorem UnitClosed.slotRouteGone {s : State} (c : SlotCause) (ref : SlotRef) (hs : P s) : P (slotRouteGone c ref s) := by
  unfold Machine.slotRouteGone; repeat' split
  all_goals first
    | exact hs
    | exact h.setOutbound (fun _ => rfl) hs
    | exact h.tryOffer _ (h.setOutbound (fun _ => rfl) hs)

theorem UnitClosed.testAcceptance {s : State} (ref : SlotRef) (hs : P s) : P (testAcceptance ref s) := by
  unfold Machine.testAcceptance; repeat' split
  all_goals first
    | exact hs
    | exact h.emit _ _ (h.mapSlot (fun _ => rfl) hs)
    | exact h.emit _ _ (h.mapSlot (fun _ => rfl)
        (h.mapSection (fun _ => ⟨rfl, .inr (.inr ⟨_, _, rfl⟩)⟩) hs))

theorem UnitClosed.retest {s : State} (ref : SlotRef) (hs : P s) : P (retest ref s) := by
  unfold Machine.retest; repeat' split
  all_goals first | exact hs | exact h.testAcceptance _ hs

theorem UnitClosed.retestOver {s : State} (b : Nat) (hs : P s) : P (retestOver b s) := by
  unfold Machine.retestOver
  exact inOrder_ind (forall_map (g := fun x : Slot => Machine.retest x.ref) (fun _ _ => h.retest _)) hs

theorem UnitClosed.retestAll {s : State} (hs : P s) : P (retestAll s) := by
  unfold Machine.retestAll
  exact inOrder_ind (forall_map (g := fun x : Slot => Machine.retest x.ref) (fun _ _ => h.retest _)) hs

theorem UnitClosed.dropEntry {s : State} (ref : SlotRef) (b : Nat) (hs : P s) : P (dropEntry ref b s) :=
  h.mapSection (SectionKeeps.ite (fun _ => ⟨rfl, .inr (.inl rfl)⟩)) hs

theorem UnitClosed.endInbound {s : State} (ref : SlotRef) (b : Nat) (c : SlotCause) (hs : P s) :
    P (endInbound ref b c s) :=
  h.retestOver _ (h.emit _ _ (h.mapSlot (fun _ => rfl) (h.dropEntry _ _ hs)))

theorem UnitClosed.slotOnSection {s : State} (b : Nat) (old : SecStatus) (ref : SlotRef) (hs : P s) :
    P (slotOnSection b old ref s) := by
  unfold Machine.slotOnSection; repeat' split
  all_goals first
    | exact hs
    | exact h.emit _ _ (h.mapSlot (fun _ => rfl) hs)
    | exact h.endInbound _ _ _ hs
    | exact h.retest _ hs

/-! ## Drops and releases -/

theorem UnitClosed.dropClaims {s : State} (p : Claim → Bool) (hs : P s) : P (dropClaims p s) :=
  h.signals _ (·.dropClaims p) (fun _ => ⟨rfl, ⟨.inl rfl, List.filter_sublist, .inl rfl⟩, id⟩)
    (h.points _ (·.dropClaims p) (fun _ => ⟨rfl, .inl rfl, List.filter_sublist⟩) hs)

theorem UnitClosed.dropHolders {s : State} (p : Holder → Bool) (hs : P s) : P (dropHolders p s) :=
  h.sections _ _ (SectionKeeps.ite (p := fun x => p x.holder = true) (fun _ => ⟨rfl, .inr (.inl rfl)⟩)) hs

theorem UnitClosed.dropHolds {s : State} (p : PointRec → Bool) (hs : P s) : P (dropHolds p s) :=
  h.points _ _ (PointKeeps.ite (p := fun x => p x = true) (fun _ => ⟨rfl, .inr rfl, List.Sublist.refl _⟩)) hs

theorem UnitClosed.dropEntryOf {s : State} (r : Nat) (hs : P s) : P (dropEntryOf r s) :=
  h.signals _ _ (SignalKeeps.ite (p := fun x => x.entryOf = some r)
    (fun _ => ⟨rfl, ⟨.inr rfl, List.Sublist.refl _, .inl rfl⟩, id⟩)) hs

theorem UnitClosed.handDrops (secs sigs : List Nat) : ∀ f ∈ handDrops secs sigs, ∀ s, P s → P (f s) := by
  intro f hf
  unfold Machine.handDrops at hf
  rcases List.mem_append.1 hf with hf | hf
  · exact forall_map (g := fun b => Machine.retestOver b) (fun _ _ => h.retestOver _) f hf
  · rw [List.mem_singleton.1 hf]; exact fun _ => h.permOn _

theorem UnitClosed.removeRoute {s : State} (a : ActiveRoute) (n : RouteNews) (c : RouteCause) (p : Nat)
    (k : SlotCause) (hs : P s) : P (removeRoute a n c p k s) := by
  refine h.inAnyOrder ?_ (h.emit _ _ (h.dropRoute _ _ hs))
  intro f hf
  rcases List.mem_append.1 hf with hf | hf
  · exact h.handDrops _ _ f hf
  · split at hf
    · rw [List.mem_singleton.1 hf]; exact fun _ => h.slotRouteGone _ _
    · cases hf

theorem UnitClosed.releaseSection {s : State} (a : ActiveRoute) (k : Nat) (hs : P s) : P (releaseSection a k s) := by
  unfold Machine.releaseSection; dsimp only; split
  · exact hs
  · exact h.inAnyOrder (h.handDrops _ _) (h.mapRoute (fun _ => ⟨rfl, id⟩)
      (h.dropClaims _ (h.dropHolds _ (h.mapSection (SectionKeeps.ite (fun _ => ⟨rfl, .inr (.inl rfl)⟩)) hs))))

theorem UnitClosed.chooseClaimsKept {s : State} (a : ActiveRoute) (hs : P s) : P (chooseClaimsKept a s).2 := by
  unfold Machine.chooseClaimsKept; split
  · rw [pick_eq]; exact h.choice _ _ _ hs
  · exact hs

theorem UnitClosed.freeOverlap {s : State} (kept : Bool) (a : ActiveRoute) (hs : P s) : P (freeOverlap kept a s) :=
  h.inAnyOrder (h.handDrops _ _)
    (h.mapRoute (fun _ => by cases kept <;> exact ⟨rfl, id⟩) (h.dropClaims _ (h.dropHolds _ (h.dropHolders _ hs))))

theorem UnitClosed.releaseOverlap {s : State} (a : ActiveRoute) (hs : P s) : P (releaseOverlap a s) :=
  h.freeOverlap _ a (h.chooseClaimsKept a hs)

theorem UnitClosed.testCleared {s : State} (r : Nat) (hs : P s) : P (testCleared r s) := by
  unfold Machine.testCleared clearedRoute; dsimp only; repeat' split
  all_goals first | exact hs | exact h.removeRoute _ _ _ _ _ hs

theorem UnitClosed.routeSectionClear {s : State} (id r : Nat) (hs : P s) : P (routeSectionClear id r s) := by
  unfold Machine.routeSectionClear; dsimp only; repeat' split
  all_goals first | exact hs | exact h.testCleared _ hs | exact h.releaseSection _ _ hs

theorem UnitClosed.routeApproachClear {s : State} (id r : Nat) (hs : P s) : P (routeApproachClear id r s) := by
  unfold Machine.routeApproachClear; dsimp only; repeat' split
  all_goals first | exact hs | exact h.removeRoute _ _ _ _ _ hs

theorem UnitClosed.startRelease {s : State} (r : Nat) (hs : P s) : P (startRelease r s) :=
  h.emit _ _ (h.mapRoute (fun _ => ⟨rfl, id⟩) hs)

/-! ## The Route Unit on a change of an element -/

theorem UnitClosed.reportReceived {s : State} (ref : SlotRef) (hs : P s) : P (reportReceived ref s) := by
  have hm : ∀ (t : State), P t → P (t.mapSlot ref (fun y => { y with receivedReported := true })) :=
    fun t ht => h.mapSlot (fun _ => rfl) ht
  unfold Machine.reportReceived; dsimp only; repeat' split
  · exact hs
  · exact hm _ hs
  · exact h.testCleared _ (h.mapRoute (fun _ => ⟨rfl, id⟩) (hm _ hs))
  · exact hs

theorem UnitClosed.testTransit {s : State} (ref : SlotRef) (hs : P s) : P (testTransit ref s) := by
  have hm : ∀ (x : Slot) (c : SlotCause), P (Machine.setOutbound ref .transit c
      (fun y => { y with transit := Timer.start (param 16 s) }) s) :=
    fun x c => h.setOutbound (fun _ => rfl) hs
  unfold Machine.testTransit; dsimp only
  split
  · exact hs
  · next x _ =>
    split
    · split
      · exact h.reportReceived _ (hm x _)
      · exact hm x _
    · exact hs

theorem UnitClosed.markSection {s : State} (r j : Nat) (hs : P s) : P (markSection r j s) := by
  unfold Machine.markSection; dsimp only
  split
  · exact hs
  · next a _ =>
    have h1 : P (s.mapRoute r (fun x => { x with marks := x.marks.set j true })) :=
      h.mapRoute (fun _ => ⟨rfl, id⟩) hs
    split
    · exact hs
    · split
      · split
        · have h2 : P (if a.overlap = .held then
              (s.mapRoute r (fun x => { x with marks := x.marks.set j true })).mapRoute r
                (fun x => { x with overlapTimer := Timer.start (param 10 s) })
              else s.mapRoute r (fun x => { x with marks := x.marks.set j true })) := by
            split
            · exact h.mapRoute (fun _ => ⟨rfl, id⟩) h1
            · exact h1
          split
          · exact h.testCleared _ h2
          · exact h2
        · exact h1
      · split
        · split
          · exact h.emit _ _ hs
          · exact hs
        · exact hs

theorem UnitClosed.markEntry {s : State} (r : Nat) (hs : P s) : P (markEntry r s) := by
  unfold Machine.markEntry
  refine inOrder_ind ?_ hs
  intro f hf
  obtain ⟨j, -, rfl⟩ := List.mem_map.1 hf
  intro t ht
  by_cases hj : j = 0
  · simp only [hj, if_true]; exact h.markSection _ _ ht
  · simp only [hj, if_false]
    split
    · split
      · exact h.markSection _ _ ht
      · exact ht
    · exact ht

theorem UnitClosed.handEntry {s : State} (a : ActiveRoute) (hs : P s) : P (handEntry a s) := by
  unfold Machine.handEntry; split
  · exact h.testTransit _ hs
  · exact hs

theorem UnitClosed.enterRoute {s : State} (a : ActiveRoute) (hs : P s) : P (enterRoute a s) :=
  h.handEntry _ (h.markEntry _ (h.emit _ _ (h.mapRoute (fun _ => ⟨rfl, fun e => nomatch e⟩)
    (h.dropEntryOf _ (h.withdrawOnly _ _ hs)))))

theorem UnitClosed.enterEmergency {s : State} (a : ActiveRoute) (hs : P s) : P (enterEmergency a s) :=
  h.handEntry _ (h.markEntry _ (h.dropEntryOf _ hs))

theorem UnitClosed.recordGap {s : State} (id r : Nat) (hs : P s) : P (recordGap id r s) :=
  h.mapRoute (fun _ => ⟨rfl, fun e => e⟩) (h.emit _ _ hs)

theorem UnitClosed.routeSectionOccupied {s : State} (id r : Nat) (hs : P s) : P (routeSectionOccupied id r s) := by
  unfold Machine.routeSectionOccupied
  split
  · exact hs
  · next a _ =>
    dsimp only
    split
    · exact hs
    · next j _ =>
      split
      · exact h.enterRoute _ hs
      · split
        · exact h.enterEmergency _ hs
        · split
          · refine h.markSection _ _ ?_
            split
            · exact h.recordGap _ _ hs
            · exact hs
          · exact hs

theorem UnitClosed.lockRoute {s : State} (a : ActiveRoute) (hs : P s) : P (lockRoute a s) := by
  refine h.inAnyOrder ?_ (h.emit _ _ (h.mapRoute (fun _ => ⟨rfl, fun e => nomatch e⟩) hs))
  intro f hf
  rcases List.mem_cons.1 hf with rfl | hf
  · exact fun _ => h.permOn _
  · split at hf
    · rw [List.mem_singleton.1 hf]; exact fun _ => h.tryOffer _
    · cases hf

theorem UnitClosed.testProven {s : State} (r : Nat) (hs : P s) : P (testProven r s) := by
  unfold Machine.testProven; repeat' split
  all_goals first | exact hs | exact h.lockRoute _ hs

theorem UnitClosed.abandonRoute {s : State} (c : RouteCause) (p r : Nat) (hs : P s) : P (abandonRoute c p r s) := by
  unfold Machine.abandonRoute; repeat' split
  all_goals first | exact hs | exact h.removeRoute _ _ _ _ _ hs

theorem UnitClosed.routesOnSection {s : State} (id : Nat) (old : SecStatus) (hs : P s) :
    P (routesOnSection id old s) := by
  unfold Machine.routesOnSection; repeat' split
  · exact h.inAnyOrder (forall_map (fun _ _ => h.routeSectionOccupied _ _)) hs
  · exact h.inAnyOrder (forall_map (fun _ _ ht => h.routeSectionClear _ _ (h.routeApproachClear _ _ ht))) hs
  · exact hs
  · exact hs

theorem UnitClosed.routesOnPoint {s : State} (id : Nat) (hs : P s) : P (routesOnPoint id s) := by
  unfold Machine.routesOnPoint; split
  · exact h.inAnyOrder (forall_map (fun _ _ => h.testProven _)) hs
  · exact hs

theorem UnitClosed.routesOnMoveFailed {s : State} (id : Nat) (p : Pos) (hs : P s) : P (routesOnMoveFailed id p s) := by
  unfold Machine.routesOnMoveFailed; split
  · exact h.inAnyOrder (forall_map (fun _ _ => h.abandonRoute _ _ _)) hs
  · exact hs

theorem UnitClosed.flanksOn {s : State} (id : Nat) (hs : P s) : P (flanksOn id s) := by
  have h1 : P { s with routes := s.routes.map (rederiveFlank s id) } :=
    h.routes s _ (fun _ => ⟨rfl, fun e => e⟩) hs
  unfold Machine.flanksOn; dsimp only; split
  · exact h1
  · exact h.permOn _ h1

theorem UnitClosed.slotsOnSection {s : State} (id : Nat) (old : SecStatus) (hs : P s) :
    P (slotsOnSection id old s) := by
  unfold Machine.slotsOnSection; split
  · exact inOrder_ind (forall_map (fun _ _ ht => h.testTransit _ (h.slotOnSection _ _ _ ht))) hs
  · exact hs

/-! ## Handing on -/

theorem UnitClosed.handSection {s : State} (id : Nat) (old : SecStatus) (hs : P s) : P (handSection id old s) := by
  refine h.inAnyOrder ?_ hs
  simp only [List.mem_cons, List.not_mem_nil, or_false]
  rintro f (rfl | rfl | rfl) t ht
  · exact h.routesOnSection _ _ ht
  · exact h.permOn _ ht
  · exact h.slotsOnSection _ _ ht

theorem UnitClosed.handPoint {s : State} (id : Nat) (hs : P s) : P (handPoint id s) := by
  refine h.inAnyOrder ?_ hs
  simp only [List.mem_cons, List.not_mem_nil, or_false]
  rintro f (rfl | rfl | rfl) t ht
  · exact h.routesOnPoint _ ht
  · exact h.permOn _ ht
  · exact h.flanksOn _ ht

theorem UnitClosed.handSignal {s : State} (id : Nat) (hs : P s) : P (handSignal id s) := by
  refine h.inAnyOrder ?_ hs
  simp only [List.mem_cons, List.not_mem_nil, or_false]
  rintro f (rfl | rfl) t ht
  · exact h.permOn _ ht
  · exact h.flanksOn _ ht

theorem UnitClosed.sectionChanged {s : State} (old : SectionRec) (hs : P s) : P (sectionChanged old s) := by
  unfold Machine.sectionChanged handSectionFlags; repeat' split
  all_goals first | exact hs | exact h.handSection _ _ hs | exact h.retestOver _ hs

theorem UnitClosed.signalChanged {s : State} (old : SignalRec) (hs : P s) : P (signalChanged old s) := by
  unfold Machine.signalChanged; repeat' split
  all_goals first | exact hs | exact h.handSignal _ hs

end

end Sys2Proof.Machine
end

