-- ==== Sys2Proof/Laws/React.lean ====
section
/-!
SUPPORT. `Reacts u` is closed under all the work of the units, so whatever they do with changes handed to them in `u`
ends in a state that `Reacts u` describes; changes carried out in an order that is left open are carried out in some
order; and what the loss of a transit keeps.
-/

namespace Sys2Proof.Machine

theorem holderDrops.trans {a b c : Holder} (h : holderDrops a b) (g : holderDrops b c) : holderDrops a c := by
  rcases g with rfl | g | g
  · exact h
  · exact .inr (.inl g)
  · exact .inr (.inr g)

theorem holdDrops.trans {a b c : PointRec} (h : holdDrops a b) (g : holdDrops b c) : holdDrops a c :=
  ⟨g.1.elim (fun e => e ▸ h.1) .inr, g.2.trans h.2⟩

theorem signalDrops.trans {rs : List ActiveRoute} {a b c : SignalRec} (h : signalDrops rs a b) (g : signalDrops rs b c) :
    signalDrops rs a c :=
  ⟨g.1.elim (fun e => e ▸ h.1) .inr, g.2.1.trans h.2.1, g.2.2.elim (fun e => e ▸ h.2.2) .inr⟩

theorem signalDrops.mono {rs : List ActiveRoute} {a b : SignalRec} (h : signalDrops [] a b) : signalDrops rs a b :=
  ⟨h.1, h.2.1, h.2.2.imp_right (Or.imp_right (fun ⟨_, ha, _⟩ => nomatch ha))⟩

/-- A relation with the old records is kept by a change of each of them. -/
theorem Forall₂.map_trans {α : Type} {R : α → α → Prop} (ht : ∀ a b c, R a b → R b c → R a c) {f : α → α}
    (hf : ∀ x, R x (f x)) {xs ys : List α} (h : List.Forall₂ R xs ys) : List.Forall₂ R xs (ys.map f) := by
  induction h with
  | nil => exact .nil
  | cons hxy _ ih => exact .cons (ht _ _ _ hxy (hf _)) ih

theorem map_core_eq {α β : Type} {core : α → β} {f : α → α} (hf : ∀ x, core (f x) = core x) (xs : List α) :
    (xs.map f).map core = xs.map core := by
  rw [List.map_map]; exact List.map_congr_left (fun x _ => hf x)

theorem Forall₂.refl {α : Type} {R : α → α → Prop} (h : ∀ x, R x x) : ∀ xs : List α, List.Forall₂ R xs xs
  | [] => .nil
  | x :: xs => .cons (h x) (Forall₂.refl h xs)

theorem signalDrops.refl (rs : List ActiveRoute) (x : SignalRec) : signalDrops rs x x :=
  ⟨.inl rfl, List.Sublist.refl _, .inl rfl⟩

theorem Reacts.refl (u : State) : Reacts u u where
  base := rfl
  sections := Forall₂.refl (fun _ => .inl rfl) _
  points := Forall₂.refl (fun _ => ⟨.inl rfl, List.Sublist.refl _⟩) _
  signals := Forall₂.refl (signalDrops.refl _) _
  routes := List.Sublist.refl _
  slots := rfl
  events := fun _ => List.prefix_rfl

/-! ## Events -/

theorem EventQueue.offer_prefix (q : EventQueue) (ch : Channel) (now : Word) (e : Event) :
    q.records <+: (q.offer ch now e).records := by
  unfold EventQueue.offer
  repeat' split
  all_goals first | exact List.prefix_rfl | exact List.prefix_append _ _

theorem emitTo_queue_prefix (ch ch' : Channel) (e : Event) (s : State) :
    (s.queue ch').records <+: ((emitTo ch e s).queue ch').records := by
  cases ch <;> cases ch' <;>
    first | exact EventQueue.offer_prefix _ _ _ _ | exact List.prefix_rfl

theorem emit_queue_prefix (ch : Channel) (e : Event) (s : State) : (s.queue ch).records <+: ((emit e s).queue ch).records :=
  (emitTo_queue_prefix .A ch e s).trans (emitTo_queue_prefix .B ch e _)

/-- An event changes nothing but the two queues. -/
theorem emit_eq (e : Event) (s : State) :
    emit e s = { s with queueA := (emit e s).queueA, queueB := (emit e s).queueB } := rfl

/-! ## Closure -/

theorem mem_of_core {u t : State} {a : ActiveRoute} (h : (t.routes.map ActiveRoute.core).Sublist (u.routes.map ActiveRoute.core))
    (ha : a ∈ t.routes) : ∃ b ∈ u.routes, b.core = a.core :=
  List.mem_map.1 (h.subset (List.mem_map_of_mem ha))

/-- Everything the units do with a change handed to them keeps `Reacts u`. -/
theorem reacts_closed (u : State) : UnitClosed (Reacts u) where
  choice _ _ _ h := ⟨h.base, h.sections, h.points, h.signals, h.routes, h.slots, h.events⟩
  emit s e h := ⟨h.base, h.sections, h.points, h.signals, h.routes, h.slots,
    fun ch => (h.events ch).trans (emit_queue_prefix ch e s)⟩
  sections s f hf h := ⟨by
      have := h.base
      simp only [State.base, State.mk.injEq] at this ⊢
      exact ⟨this.1, (map_core_eq (fun x => (hf x).1) _).trans this.2.1, this.2.2⟩,
    Forall₂.map_trans (R := fun x y : SectionRec => holderDrops x.holder y.holder) (fun _ _ _ => holderDrops.trans) (fun x => (hf x).2) h.sections, h.points, h.signals, h.routes,
    h.slots, h.events⟩
  points s f hf h := ⟨by
      have := h.base
      simp only [State.base, State.mk.injEq] at this ⊢
      exact ⟨this.1, this.2.1, (map_core_eq (fun x => (hf x).1) _).trans this.2.2.1, this.2.2.2⟩,
    h.sections, Forall₂.map_trans (R := holdDrops) (fun _ _ _ => holdDrops.trans) (fun x => (hf x).2) h.points, h.signals, h.routes,
    h.slots, h.events⟩
  signals s f hf h := ⟨by
      have := h.base
      simp only [State.base, State.mk.injEq] at this ⊢
      exact ⟨this.1, this.2.1, this.2.2.1, (map_core_eq (fun x => (hf x).1) _).trans this.2.2.2.1, this.2.2.2.2⟩,
    h.sections, h.points, Forall₂.map_trans (R := signalDrops u.routes) (fun _ _ _ => signalDrops.trans) (fun x => (hf x).2.1.mono) h.signals,
    h.routes, h.slots, h.events⟩
  routes s f hf h := ⟨h.base, h.sections, h.points, h.signals, by
      show ((s.routes.map f).map _).Sublist _
      rw [map_core_eq (fun x => (hf x).1)]; exact h.routes, h.slots, h.events⟩
  slots s f hf h := ⟨h.base, h.sections, h.points, h.signals, h.routes,
    (map_core_eq hf _).trans h.slots, h.events⟩
  grant s a ha _ _ h := by
    obtain ⟨b, hb, hc⟩ := mem_of_core h.routes (List.mem_of_find?_eq_some ha)
    have hid : b.id = a.id := congrArg Prod.fst hc
    refine ⟨?_, h.sections, h.points, ?_, ?_, h.slots, ?_⟩
    · have := h.base
      simp only [State.base, State.mk.injEq] at this ⊢
      refine ⟨this.1, this.2.1, this.2.2.1, (map_core_eq (fun x => ?_) _).trans this.2.2.2.1, this.2.2.2.2⟩
      split <;> rfl
    · refine Forall₂.map_trans (R := signalDrops u.routes) (fun _ _ _ => signalDrops.trans) (fun x => ?_) h.signals
      split
      · exact ⟨.inl rfl, List.Sublist.refl _, .inr (.inr ⟨b, hb, by rw [hid]⟩)⟩
      · exact signalDrops.refl _ _
    · show ((s.routes.map _).map _).Sublist _
      rw [map_core_eq]
      · exact h.routes
      · intro x; split <;> rfl
    · exact fun ch => (h.events ch).trans ((emit_queue_prefix ch _ _).trans
        (emit_queue_prefix ch (.routeState a.id (.state .permitted) .granted 0) _))
  dropRoute s r h := by
    have e1 : (dropRoute r s).sections =
        s.sections.map (fun x => if holderIs r x.holder then { x with holder := .none } else x) := rfl
    have e2 : (dropRoute r s).points = (s.points.map (fun x => if holdIs r x.hold then { x with hold := .none } else x)).map
        (·.dropClaims (fun c => c.route == r)) := rfl
    have e3 : (dropRoute r s).signals = (s.signals.map (·.dropClaims (fun c => c.route == r))).map
        (fun x => if x.entryOf = some r then { x with entryOf := none } else x) := rfl
    refine ⟨?_, ?_, ?_, ?_, ?_, h.slots, h.events⟩
    · have := h.base
      simp only [State.base, State.mk.injEq] at this ⊢
      refine ⟨this.1, ?_, ?_, ?_, this.2.2.2.2⟩
      · rw [e1, map_core_eq]; exact this.2.1
        intro x; split <;> rfl
      · rw [e2, map_core_eq, map_core_eq]; exact this.2.2.1
        · intro x; split <;> rfl
        · intro x; rfl
      · rw [e3, map_core_eq, map_core_eq]; exact this.2.2.2.1
        · intro x; rfl
        · intro x; split <;> rfl
    · rw [e1]
      refine Forall₂.map_trans (R := fun x y : SectionRec => holderDrops x.holder y.holder) (fun _ _ _ => holderDrops.trans) (fun x => ?_) h.sections
      split
      · exact .inr (.inl rfl)
      · exact .inl rfl
    · rw [e2]
      refine Forall₂.map_trans (R := holdDrops) (f := (·.dropClaims (fun c => c.route == r)))
        (fun _ _ _ => holdDrops.trans) (fun x => ⟨.inl rfl, List.filter_sublist⟩)
        (Forall₂.map_trans (R := holdDrops) (fun _ _ _ => holdDrops.trans) (fun x => ?_) h.points)
      split
      · exact ⟨.inr rfl, List.Sublist.refl _⟩
      · exact ⟨.inl rfl, List.Sublist.refl _⟩
    · rw [e3]
      refine Forall₂.map_trans (R := signalDrops u.routes) (fun _ _ _ => signalDrops.trans) (fun x => ?_)
        (Forall₂.map_trans (R := signalDrops u.routes) (f := (·.dropClaims (fun c => c.route == r)))
          (fun _ _ _ => signalDrops.trans) (fun x => ⟨.inl rfl, List.filter_sublist, .inl rfl⟩) h.signals)
      split
      · exact ⟨.inr rfl, List.Sublist.refl _, .inl rfl⟩
      · exact signalDrops.refl _ _
    · exact (List.Sublist.map _ List.filter_sublist).trans h.routes

/-! ## Some order -/

theorem inAnyOrderN_inSomeOrder : ∀ (k : Nat) (fs : List (State → State)) (s : State), fs.length ≤ k →
    InSomeOrder fs s (inAnyOrderN k fs s)
  | 0, fs, s, h => by
    obtain rfl : fs = [] := List.length_eq_zero_iff.1 (by omega)
    exact .done s
  | k + 1, [], s, _ => .done s
  | k + 1, [f], s, _ => InSomeOrder.next [] f [] s s.choices s.drawn (f s) (.done _)
  | k + 1, f :: g :: rest, s, h => by
    obtain ⟨i, hi, e⟩ := inAnyOrderN_step k f g rest s
    rw [e, pick_eq]
    have hs := inAnyOrderN_inSomeOrder k ((f :: g :: rest).eraseIdx i)
      ((f :: g :: rest)[i] { s with choices := (s.pick (rest.length + 2)).2.choices, drawn := (s.pick (rest.length + 2)).2.drawn })
      (by rw [List.length_eraseIdx_of_lt hi]; simp only [List.length_cons] at h ⊢; omega)
    rw [List.eraseIdx_eq_take_drop_succ] at hs ⊢
    have hl : f :: g :: rest = (f :: g :: rest).take i ++ (f :: g :: rest)[i] :: (f :: g :: rest).drop (i + 1) := by
      rw [List.getElem_cons_drop, List.take_append_drop]
    exact Eq.subst (motive := fun l => InSomeOrder l s _) hl.symm (InSomeOrder.next _ _ _ s _ _ _ hs)

/-- Changes carried out in an order that the spec leaves open are carried out in some order. -/
theorem inAnyOrder_inSomeOrder (fs : List (State → State)) (s : State) : InSomeOrder fs s (inAnyOrder fs s) :=
  inAnyOrderN_inSomeOrder _ fs s (Nat.le_refl _)

/-! ## A route leaves the list -/

/-- The one change in which a route goes is the one that `State.without` writes out. -/
theorem dropRoute_without (s : State) (r : Nat) : dropRoute r s = s.without r := by
  have e1 : (dropRoute r s).sections = s.sections.map (fun x =>
      if x.holder = .route r ∨ x.holder = .overlap r then { x with holder := .none } else x) := by
    show s.sections.map _ = _
    refine List.map_congr_left (fun x _ => ?_)
    cases hx : x.holder <;> simp [holderIs]
  have e2 : (dropRoute r s).points = s.points.map (fun x =>
      let kept := x.claims.filter (fun c => c.route != r)
      { x with hold := (match x.hold with
                 | .route q p => if q = r then .none else .route q p
                 | .overlap q p => if q = r then .none else .overlap q p
                 | .none => .none)
               claims := kept, claimPos := if kept = [] then none else x.claimPos }) := by
    show ((s.points.map _).map _) = _
    rw [List.map_map]
    refine List.map_congr_left (fun x _ => ?_)
    have : ∀ (y : PointRec), PointRec.dropClaims (fun c => c.route == r) y = { y with claims := y.claims.filter (fun c => c.route != r), claimPos := if y.claims.filter (fun c => c.route != r) = [] then none else y.claimPos } := by
      intro y; unfold PointRec.dropClaims; simp only [List.isEmpty_iff]; rfl
    simp only [Function.comp_apply]
    rw [this]
    rcases x with ⟨i1, i2, i3, i4, i5, i6, i7, i8, i9, i10, i11, i12, i13, hold, i14, i15⟩
    cases hold with
    | none => simp [holdIs]
    | route q p => by_cases hq : q = r <;> simp [holdIs, hq]
    | overlap q p => by_cases hq : q = r <;> simp [holdIs, hq]
  have e3 : (dropRoute r s).signals = s.signals.map (fun x =>
      { x with entryOf := if x.entryOf = some r then none else x.entryOf
               claims := x.claims.filter (fun c => c.route != r) }) := by
    show ((s.signals.map _).map _) = _
    rw [List.map_map]
    refine List.map_congr_left (fun x _ => ?_)
    have : SignalRec.dropClaims (fun c => c.route == r) x = { x with claims := x.claims.filter (fun c => c.route != r) } := rfl
    simp only [Function.comp_apply, this]
    split <;> rfl
  have e : dropRoute r s = { s with sections := (dropRoute r s).sections, points := (dropRoute r s).points, signals := (dropRoute r s).signals, routes := s.routes.filter (fun a => a.id != r) } := rfl
  rw [e, e1, e2, e3]; rfl

/-- What the removal of a route does, once for all (R22, R57, R65, R71). -/
theorem removeRoute_removes (a : ActiveRoute) (news : RouteNews) (cause : RouteCause) (point : Nat) (slot : SlotCause)
    (s : State) :
    Removes a news cause point slot s (removeRoute a news cause point slot s) := by
  have hc := reacts_closed (emit (.routeState a.id news cause point) (s.without a.id))
  have hw : removeRoute a news cause point slot s =
      inAnyOrder (s.removalWork a slot) (emit (.routeState a.id news cause point) (s.without a.id)) := by
    have hh : (fun x : SectionRec => holderIs a.id x.holder) =
        fun x => x.holder == Holder.route a.id || x.holder == Holder.overlap a.id := by
      funext x; cases x.holder <;> exact Bool.eq_iff_iff.2 (by simp [holderIs])
    unfold removeRoute handDrops State.removalWork heldSecs claimedSignals
    rw [dropRoute_without, List.map_map, hh]
    cases a.exitSlot <;> simp [Function.comp_def]
  refine ⟨hw ▸ ?_, hw ▸ inAnyOrder_inSomeOrder _ _⟩
  refine hc.inAnyOrder ?_ (Reacts.refl _)
  intro f hf
  rcases List.mem_append.1 hf with hf | hf
  · obtain ⟨x, -, rfl⟩ := List.mem_map.1 hf; exact fun _ => hc.retestOver _
  · rcases List.mem_cons.1 hf with rfl | hf
    · exact fun _ => hc.permOn _
    · split at hf
      · rw [List.mem_singleton.1 hf]; exact fun _ => hc.slotRouteGone _ _
      · cases hf

/-! ## Changes of a channel and of a route's record -/

/-- The release of an overlap by its timer is `freeOverlap` with free values drawn before it; the claims that guard the overlap
stand exactly where the route is in WHOLE mode with such a claim STANDING and the free value says so (log 34). -/
theorem releaseOverlap_free (a : ActiveRoute) (s : State) : ∃ (kept : Bool) (c : List Nat) (d : Nat),
    (kept = true ↔ (s.defOf a.id).mode = .whole ∧ (∃ f ∈ a.flanks, f.guard = .overlap ∧ f.standing = true)
      ∧ (s.pick 2).1 = 1)
    ∧ releaseOverlap a s = freeOverlap kept a { s with choices := c, drawn := d } := by
  have hopen : overlapClaimsOpen a s = true ↔
      (s.defOf a.id).mode = .whole ∧ ∃ f ∈ a.flanks, f.guard = .overlap ∧ f.standing = true := by
    simp only [overlapClaimsOpen, Bool.and_eq_true, List.any_eq_true, beq_iff_eq]
  unfold releaseOverlap chooseClaimsKept
  by_cases ho : overlapClaimsOpen a s = true
  · rw [if_pos ho]
    refine ⟨(s.pick 2).1 == 1, (s.pick 2).2.choices, (s.pick 2).2.drawn, ?_, ?_⟩
    · rw [beq_iff_eq, ← and_assoc, and_iff_right (hopen.1 ho)]
    · show freeOverlap _ a (s.pick 2).2 = _
      congr 1; rw [pick_eq]
  · rw [if_neg ho]
    exact ⟨false, s.choices, s.drawn, by rw [← and_assoc, ← hopen]; simp [ho], rfl⟩

/-- What a channel's change hands on is the work that the statements name (R38). -/
theorem handChannel_work (ch : Channel) : handChannel ch = channelWork ch := rfl

/-- What the loss or reset of a channel hands on is the work that the statements name (R37 to R39). -/
theorem handLost_work (ch : Channel) (s : State) : handChannel ch ++ unknownChanges s = s.lossWork ch := rfl

@[simp] theorem loseTransit_dev (ref : SlotRef) (s : State) : (loseTransit ref s).dev = s.dev := rfl
@[simp] theorem loseTransit_sections (ref : SlotRef) (s : State) : (loseTransit ref s).sections = s.sections := rfl
@[simp] theorem loseTransit_points (ref : SlotRef) (s : State) : (loseTransit ref s).points = s.points := rfl
@[simp] theorem loseTransit_signals (ref : SlotRef) (s : State) : (loseTransit ref s).signals = s.signals := rfl
@[simp] theorem loseTransit_slots (ref : SlotRef) (s : State) : (loseTransit ref s).slots = s.slots := rfl
@[simp] theorem loseTransit_links (ref : SlotRef) (s : State) : (loseTransit ref s).links = s.links := rfl

/-- The loss of a transit keeps every route's id, in the same order. -/
@[simp] theorem loseTransit_ids (ref : SlotRef) (s : State) :
    (loseTransit ref s).routes.map (·.id) = s.routes.map (·.id) := by
  show (s.routes.map _).map _ = _
  rw [List.map_map]
  exact List.map_congr_left (fun a _ => by dsimp only [Function.comp]; split <;> rfl)

end Sys2Proof.Machine
end

