-- ==== Sys2Proof/Laws/Requests.lean ====
section
/-!
SUPPORT. What a request command comes to at its port: every request command is one `request`; a served frame is decided
in `State.served`; a completed pair ends as its owner's verdict says (R26, R27, R151).
-/

namespace Sys2Proof.Machine

/-- Every request command is a transfer at its port. -/
theorem exec_request {c : Instr} {f : RequestFrame} (h : requestOf c = some f) (s : State) :
    exec c s = .next (request f.ch f.kind f.tag f.body s) := by
  cases c <;> simp only [requestOf, Option.some.injEq, reduceCtorEq] at h <;> subst h <;> rfl

theorem State.opened_chan (s : State) (f : RequestFrame) (ch : Channel) : (s.opened f).chan ch = s.chan ch :=
  State.setPort_chan _ _ _ _

theorem param_setPort (s : State) (ch : Channel) (p : Port) (n : Nat) : param n (s.setPort ch p) = param n s := by
  cases ch <;> rfl

/-- A served frame: its transfer is open, and an ACTIVE channel is supervised again (R34, R35). -/
theorem frameArrives_opened {s : State} {f : RequestFrame} (h : (s.chan f.ch).state = .active ∨ (s.chan f.ch).state = .paused) :
    frameArrives f.ch (s.opened f) = s.served f := by
  unfold frameArrives State.served
  rw [State.opened_chan]
  rcases h with h | h
  · rw [h, if_pos rfl]
    show (s.opened f).setChan f.ch _ = _
    unfold State.opened
    rw [param_setPort]
  · rw [h, if_neg (by decide)]

theorem State.served_chan {s : State} {f : RequestFrame} (h : (s.chan f.ch).state = .active) :
    (s.served f).chan f.ch = { s.chan f.ch with supervision := Timer.start (param 2 s) } := by
  unfold State.served; rw [if_pos h, State.setChan_chan]

/-- A served frame leaves the state of its channel as it was. -/
theorem State.served_state (s : State) (f : RequestFrame) : ((s.served f).chan f.ch).state = (s.chan f.ch).state := by
  unfold State.served; split
  · rw [State.setChan_chan]
  · rw [State.opened_chan]

/-- A served frame is answered from the state `served`. -/
theorem request_serves {s : State} {f : RequestFrame} (h : Serves f s) :
    request f.ch f.kind f.tag f.body s =
      reply f.ch f.tag (if isConcurred f.kind then takeHalf f.ch f.kind f.tag f.body (s.served f)
        else answer f.ch f.kind f.body (s.served f)) := by
  have e : openTransfer f.ch .decide (channelFrame (kindCode f.kind) f.tag f.body) s = s.opened f := rfl
  have hl : ¬ (200 < f.body.length) := by have := h.short; omega
  have hs : ((s.served f).chan f.ch).state = .active := by rw [State.served_state]; exact h.active
  unfold request
  rw [h.line, if_neg (by simp), e]
  unfold decideFrame
  rw [if_neg hl, if_pos h.length, frameArrives_opened (.inl h.active)]
  unfold answerValid
  rw [hs, h.range]
  simp

theorem State.served_dev (s : State) (f : RequestFrame) : (s.served f).dev = s.dev := by
  unfold State.served; split <;> cases hf : f.ch <;> simp [State.opened, State.setChan, State.setPort, hf]

theorem State.served_table (s : State) (f : RequestFrame) : (s.served f).table = s.table := by
  unfold State.served; split <;> cases hf : f.ch <;> simp [State.opened, State.setChan, State.setPort, hf]

theorem Channel.other_ne_self (ch : Channel) : ¬ ch.other = ch := by cases ch <;> decide

/-- A statement of a single request from its owner's answer. -/
theorem answers_of {c : Instr} {f : RequestFrame} {s : State} {effect : State → State → Prop} (hc : requestOf c = some f)
    (h : Serves f s) (hk : isConcurred f.kind = false) {a : Answer} (ha : answer f.ch f.kind f.body (s.served f) = a)
    (he : effect (s.served f) a.after) : Answers c f s a.status a.body effect := by
  refine ⟨a.after, ?_, he⟩
  rw [exec_request hc, request_serves h, hk, ← ha]
  rfl

/-- A completed pair ends as its owner's verdict says (R26, R27). -/
theorem request_completes {s : State} {f : RequestFrame} (h : Completes f s) :
    request f.ch f.kind f.tag f.body s =
      respond f.ch .concurred f.tag
        (outcomeBytes f.kind (decide f.ch f.kind f.body (s.paired f)).out (decide f.ch f.kind f.body (s.paired f)).detail)
        ((decide f.ch f.kind f.body (s.paired f)).act
          (emit (.requestDone f.tag f.kind (decide f.ch f.kind f.body (s.paired f)).out
            (decide f.ch f.kind f.body (s.paired f)).detail) (s.paired f))) := by
  rw [request_serves h.toServes, if_pos h.concurred]
  obtain ⟨x, hx, hf, hk, hb⟩ := h.half
  have ht : x.tag = f.tag := by simpa using List.find?_some hx
  have hdev : passesDevice f.kind (s.served f) = true := by
    unfold passesDevice; rw [State.served_dev]
    rcases h.device with e | ⟨e, e' | e'⟩
    · rw [e]
    · rw [e, e']; rfl
    · rw [e, e']; rfl
  have hp : ((s.served f).chan f.ch).state ≠ .paused := by rw [State.served_state, h.active]; decide
  have hpair : removeHalf f.tag (s.served f) = s.paired f := by
    unfold removeHalf State.paired; rw [State.served_table]
  unfold takeHalf
  rw [hdev, if_neg (by simp), if_neg hp, State.served_table, hx]
  have hne : ¬ x.filler = f.ch := by rw [hf]; exact Channel.other_ne_self _
  simp only [hne, if_false, hk, hb, and_self, if_true]
  unfold concur reply
  rw [hpair]

/-- A statement of a concurred request from its owner's verdict. -/
theorem concurs_of {c : Instr} {f : RequestFrame} {s : State} {effect : State → State → Prop} (hc : requestOf c = some f)
    (h : Completes f s) {v : Verdict} (hv : decide f.ch f.kind f.body (s.paired f) = v)
    (he : effect (emit (.requestDone f.tag f.kind v.out v.detail) (s.paired f))
      (v.act (emit (.requestDone f.tag f.kind v.out v.detail) (s.paired f)))) :
    Concurs c f s v.out v.detail effect := by
  subst hv
  exact ⟨_, by rw [exec_request hc, request_completes h], he⟩

/-- A verdict that changes nothing. -/
theorem refuses_of {c : Instr} {f : RequestFrame} {s : State} (hc : requestOf c = some f) (h : Completes f s)
    {out : Status} {detail : Nat} (hv : decide f.ch f.kind f.body (s.paired f) = .plain out detail) :
    Refuses c f s out detail :=
  concurs_of (v := .plain out detail) hc h hv rfl

end Sys2Proof.Machine
end

