-- ==== Sys2Proof/Laws/Steps.lean ====
section
/-!
SUPPORT. Once for all what a step can do: `StepClosed P` lists the few kinds of change that every command is made of,
and `StepClosed.exec` says that every command but the loading of an image and DRST keeps a property closed under
those kinds. The laws that every step keeps are instances: choose `P`.
-/

namespace Sys2Proof.Machine

/-! ## Kinds of change -/

/-- A change of a section that keeps its id and its law, and takes no route's holder. -/
def SectionStep (f : SectionRec → SectionRec) : Prop :=
  ∀ x, (f x).id = x.id ∧ holderDrops x.holder (f x).holder ∧ (x.Lawful → (f x).Lawful)

def PointRec.conf (x : PointRec) : Nat × Nat × Nat := (x.id, x.sec, x.supTime)

/-- A change of a point that keeps its configured part and its law, and takes no hold or claim. -/
def PointStep (f : PointRec → PointRec) : Prop :=
  ∀ x, (f x).conf = x.conf ∧ holdDrops x (f x) ∧ (x.Lawful → (f x).Lawful)

def SignalRec.conf (x : SignalRec) : Nat × Nat := (x.id, x.protSec)

/-- A change of a signal that keeps its configured part and its law, and takes no entry-of, claim or permission. -/
def SignalStep (f : SignalRec → SignalRec) : Prop :=
  ∀ x, (f x).conf = x.conf ∧ signalDrops [] x (f x) ∧ (x.Lawful → (f x).Lawful)

def Slot.conf (x : Slot) : SlotRef × Nat × Capability × Bool × Nat := (x.ref, x.bsec, x.cap, x.initHere, x.relTime)

/-- A change of a slot that keeps its configured part. -/
def SlotStep (f : Slot → Slot) : Prop := ∀ x, (f x).conf = x.conf

/-- A change of a link that keeps its id and descriptor. -/
def LinkStep (f : Link → Link) : Prop := ∀ x, ((f x).id, (f x).conf) = (x.id, x.conf)

/-- What the image configures of the device. -/
def Device.conf (d : Device) : List Byte × Option Word × Nat × List Nat := (d.copy, d.digest, d.area, d.brakes)

/-- A property closed under every kind of change that a command makes. -/
structure StepClosed (P : State → Prop) : Prop extends UnitClosed P where
  offer : ∀ s ch e, P s → P (emitTo ch e s)
  drain : ∀ s ch q, q.records.length ≤ (s.queue ch).records.length → q.lost ≤ (s.queue ch).lost → P s →
    P (s.setQueue ch q)
  sectionStep : ∀ s f, SectionStep f → P s → P { s with sections := s.sections.map f }
  pointStep : ∀ s f, PointStep f → P s → P { s with points := s.points.map f }
  signalStep : ∀ s f, SignalStep f → P s → P { s with signals := s.signals.map f }
  slotStep : ∀ s f, SlotStep f → P s → P { s with slots := s.slots.map f }
  linkStep : ∀ s f, LinkStep f → P s → P { s with links := s.links.map f }
  tx : ∀ s tx, P s → P { s with tx := tx }
  device : ∀ s d, d.conf = s.dev.conf → P s → P { s with dev := d }
  chan : ∀ s ch c, P s → P (s.setChan ch c)
  port : ∀ s ch p, P s → P (s.setPort ch p)
  speeds : ∀ s v, P s → P { s with speeds := v }
  count : ∀ s n, P s → P { s with disagreements := n }
  table : ∀ s t, (t.map HalfRequest.tag).Sublist (s.table.map HalfRequest.tag) → P s → P { s with table := t }
  half : ∀ s x, s.table.length < 16 → (∀ y ∈ s.table, y.tag ≠ x.tag) → P s → P { s with table := s.table ++ [x] }
  take : ∀ s d v flanks opts, s.routes.length < 32 → (∀ a ∈ s.routes, a.id ≠ d.id) → P s →
    P (takeRoute d v flanks opts s)
  blocks : ∀ s ch, P s → P (resetBlocks ch s)

/-! ## The changes of one element record are lawful -/

theorem whileCond_law (c : Bool) (d : Nat) (t : Timer) : (t.whileCond c d).mode = .running ↔ c = true := by
  unfold Timer.whileCond Timer.start Timer.off
  cases c
  · simp
  · by_cases h : t.mode = .running <;> simp [h]

theorem SectionRec.evaluate_same (p4 : Nat) (x : SectionRec) :
    (x.evaluate p4).id = x.id ∧ (x.evaluate p4).viewA = x.viewA ∧ (x.evaluate p4).viewB = x.viewB
      ∧ (x.evaluate p4).mask = x.mask ∧ (x.evaluate p4).faulted = x.faulted ∧ (x.evaluate p4).block = x.block
      ∧ (x.evaluate p4).holder = x.holder ∧ (x.evaluate p4).disc = x.disc := by
  unfold SectionRec.evaluate
  repeat' split
  all_goals exact ⟨rfl, rfl, rfl, rfl, rfl, rfl, rfl, rfl⟩

theorem SectionRec.evaluate_law (p4 : Nat) (x : SectionRec) (h : x.clearance.mode = .running ↔ x.status = .clearing) :
    ((x.evaluate p4).occupying = true ↔ (x.evaluate p4).status = .occupied)
      ∧ ((x.evaluate p4).clearance.mode = .running ↔ (x.evaluate p4).status = .clearing) := by
  have ho : (x.evaluate p4).occupying = x.occupying := by
    obtain ⟨-, a, b, c, d, -⟩ := x.evaluate_same p4
    unfold SectionRec.occupying; rw [a, b, c, d]
  rw [ho]
  unfold SectionRec.evaluate
  cases hb : x.occupying
  · simp only [Bool.false_eq_true, if_false, false_iff]
    split
    · split
      · simp [Timer.off]
      · simp [Timer.start]
    · next e => exact ⟨by simp [e], h⟩
    · next e => exact ⟨by simp [e], h⟩
  · simp [Timer.off]

theorem SectionRec.derive_lawful (p4 p5 : Nat) {x : SectionRec} (h : x.clearance.mode = .running ↔ x.status = .clearing) :
    (x.derive p4 p5).Lawful :=
  ⟨(x.evaluate_law p4 h).1, (x.evaluate_law p4 h).2, whileCond_law _ _ _⟩

theorem SectionRec.derive_same (p4 p5 : Nat) (x : SectionRec) : (x.derive p4 p5).id = x.id ∧ (x.derive p4 p5).holder = x.holder :=
  ⟨(x.evaluate_same p4).1, (x.evaluate_same p4).2.2.2.2.2.2.1⟩

theorem SectionStep.view (p4 p5 : Nat) (ch : Channel) (v : SecView) : SectionStep (SectionRec.withView p4 p5 ch v) := by
  intro x
  unfold SectionRec.withView
  cases ch <;> dsimp only <;> split
  · exact ⟨rfl, .inl rfl, id⟩
  · exact ⟨(SectionRec.derive_same _ _ _).1, .inl (SectionRec.derive_same _ _ _).2, fun h => SectionRec.derive_lawful _ _ h.clearance⟩
  · exact ⟨rfl, .inl rfl, id⟩
  · exact ⟨(SectionRec.derive_same _ _ _).1, .inl (SectionRec.derive_same _ _ _).2, fun h => SectionRec.derive_lawful _ _ h.clearance⟩

theorem SectionStep.fault (p4 p5 : Nat) (b : Bool) : SectionStep (fun x => SectionRec.derive p4 p5 { x with faulted := b }) :=
  fun _ => ⟨(SectionRec.derive_same _ _ _).1, .inl (SectionRec.derive_same _ _ _).2, fun h => SectionRec.derive_lawful _ _ h.clearance⟩

theorem SectionStep.mask (p4 p5 : Nat) (b : Bool) : SectionStep (fun x => SectionRec.derive p4 p5 { x with mask := b }) :=
  fun _ => ⟨(SectionRec.derive_same _ _ _).1, .inl (SectionRec.derive_same _ _ _).2, fun h => SectionRec.derive_lawful _ _ h.clearance⟩

theorem SectionStep.cleared : SectionStep SectionRec.cleared := by
  intro x
  unfold SectionRec.cleared
  split
  · next e =>
    exact ⟨rfl, .inl rfl, fun h => ⟨h.occupied.trans (by simp [e]), by simp [Timer.off], h.disc⟩⟩
  · exact ⟨rfl, .inl rfl, id⟩

theorem SectionStep.block (b : Bool) : SectionStep (fun x => { x with block := b }) :=
  fun _ => ⟨rfl, .inl rfl, fun h => ⟨h.occupied, h.clearance, h.disc⟩⟩

theorem pass_mode (k : Nat) (t : Timer) : (t.pass k).mode = t.mode := by
  unfold Timer.pass; split
  · next h => exact h.symm
  · rfl

theorem SectionStep.tick : SectionStep SectionRec.tick := fun x =>
  ⟨rfl, .inl rfl, fun h => ⟨h.occupied, by
    show (x.clearance.pass 1).mode = _ ↔ _; rw [pass_mode]; exact h.clearance, by
    show (x.disc.pass 1).mode = _ ↔ _; rw [pass_mode]; exact h.disc⟩⟩

theorem SectionKeeps.step {f : SectionRec → SectionRec} (h : SectionKeeps f) : SectionStep f := by
  intro x
  obtain ⟨hc, hh⟩ := h x
  simp only [SectionRec.core, SectionRec.mk.injEq] at hc
  refine ⟨hc.1, hh, fun hl => ⟨?_, ?_, ?_⟩⟩
  · have : (f x).occupying = x.occupying := by simp only [SectionRec.occupying, hc]
    rw [this, hc.2.2.2.1]; exact hl.occupied
  · rw [hc.2.2.2.2.1, hc.2.2.2.1]; exact hl.clearance
  · have : (f x).discrepant = x.discrepant := by simp only [SectionRec.discrepant, hc]
    rw [this, hc.2.2.2.2.2.1]; exact hl.disc

theorem PointRec.derive_status (p6 : Nat) (x : PointRec) : (x.derive p6).status = (x.derive p6).derivedStatus := rfl

theorem PointRec.derive_disc (p6 : Nat) (x : PointRec) :
    (x.derive p6).disc.mode = .running ↔ (x.derive p6).discrepant = true := whileCond_law _ _ _

theorem PointRec.derive_lawful (p6 : Nat) {x : PointRec} (h : x.moveTimer.mode = .running ↔ x.move.isSome = true) :
    (x.derive p6).Lawful := ⟨rfl, whileCond_law _ _ _, h⟩

theorem PointStep.view (p6 : Nat) (ch : Channel) (v : PointView) : PointStep (PointRec.withView p6 ch v) := by
  intro x
  unfold PointRec.withView
  cases ch <;> dsimp only <;> split
  all_goals first
    | exact ⟨rfl, ⟨.inl rfl, List.Sublist.refl _⟩, id⟩
    | exact ⟨rfl, ⟨.inl rfl, List.Sublist.refl _⟩, fun h => PointRec.derive_lawful _ h.move⟩

theorem PointStep.fault (p6 : Nat) (b : Bool) : PointStep (fun x => PointRec.derive p6 { x with faulted := b }) :=
  fun _ => ⟨rfl, ⟨.inl rfl, List.Sublist.refl _⟩, fun h => PointRec.derive_lawful _ h.move⟩

theorem PointStep.mask (p6 : Nat) (b : Bool) : PointStep (fun x => PointRec.derive p6 { x with mask := b }) :=
  fun _ => ⟨rfl, ⟨.inl rfl, List.Sublist.refl _⟩, fun h => PointRec.derive_lawful _ h.move⟩

theorem PointStep.failed (p6 : Nat) :
    PointStep (fun y => PointRec.derive p6 { y with faulted := true, move := none, moveTimer := .off }) :=
  fun _ => ⟨rfl, ⟨.inl rfl, List.Sublist.refl _⟩, fun _ => PointRec.derive_lawful _ (by simp [Timer.off])⟩

theorem PointStep.done (p6 dur : Nat) :
    PointStep (fun y => PointRec.derive p6 { y with move := none, moveTimer := .off, lastMove := dur }) :=
  fun _ => ⟨rfl, ⟨.inl rfl, List.Sublist.refl _⟩, fun _ => PointRec.derive_lawful _ (by simp [Timer.off])⟩

theorem PointStep.call (m : Move) : PointStep (fun y =>
    { y with move := some m, moveTimer := Timer.start y.supTime, status := .moving, disc := .off }) :=
  fun _ => ⟨rfl, ⟨.inl rfl, List.Sublist.refl _⟩, fun _ =>
    ⟨rfl, by simp [Timer.off, PointRec.discrepant], by simp [Timer.start]⟩⟩

theorem PointStep.block (b : Bool) : PointStep (fun x => { x with block := b }) :=
  fun _ => ⟨rfl, ⟨.inl rfl, List.Sublist.refl _⟩, fun h => ⟨h.status, h.disc, h.move⟩⟩

theorem PointStep.tick : PointStep PointRec.tick := fun x =>
  ⟨rfl, ⟨.inl rfl, List.Sublist.refl _⟩, fun h => ⟨h.status, by
    show (x.disc.pass 1).mode = _ ↔ _; rw [pass_mode]; exact h.disc, by
    show (x.moveTimer.pass 1).mode = _ ↔ _; rw [pass_mode]; exact h.move⟩⟩

theorem PointKeeps.step {f : PointRec → PointRec} (h : PointKeeps f) : PointStep f := by
  intro x
  obtain ⟨hc, hh⟩ := h x
  simp only [PointRec.core, PointRec.mk.injEq] at hc
  refine ⟨by simp only [PointRec.conf, hc], hh, fun hl => ⟨?_, ?_, ?_⟩⟩
  · have : (f x).derivedStatus = x.derivedStatus := by simp only [PointRec.derivedStatus, hc]
    rw [this, hc.2.2.2.2.2.1]; exact hl.status
  · have : (f x).discrepant = x.discrepant := by simp only [PointRec.discrepant, hc]
    rw [this]; simp only [hc]; exact hl.disc
  · simp only [hc]; exact hl.move

theorem SignalRec.derive_lawful (p7 : Nat) (x : SignalRec) : (x.derive p7).Lawful :=
  ⟨rfl, whileCond_law _ _ _, watchTimer_law p7 x⟩

theorem SignalStep.view (p7 : Nat) (ch : Channel) (v : SignalView) : SignalStep (SignalRec.withView p7 ch v) := by
  intro x
  unfold SignalRec.withView
  cases ch <;> dsimp only <;> split
  all_goals first
    | exact ⟨rfl, signalDrops.refl _ _, id⟩
    | exact ⟨rfl, ⟨.inl rfl, List.Sublist.refl _, .inl rfl⟩, fun _ => SignalRec.derive_lawful _ _⟩

theorem SignalStep.fault (p7 : Nat) (b : Bool) : SignalStep (fun x => SignalRec.derive p7 { x with faulted := b }) :=
  fun _ => ⟨rfl, ⟨.inl rfl, List.Sublist.refl _, .inl rfl⟩, fun _ => SignalRec.derive_lawful _ _⟩

theorem SignalStep.mask (p7 : Nat) (b : Bool) : SignalStep (fun x => SignalRec.derive p7 { x with mask := b }) :=
  fun _ => ⟨rfl, ⟨.inl rfl, List.Sublist.refl _, .inl rfl⟩, fun _ => SignalRec.derive_lawful _ _⟩

theorem SignalStep.watched (p7 : Nat) (b : Bool) (t : Timer) :
    SignalStep (fun x => SignalRec.derive p7 { x with faulted := b, watch := t }) :=
  fun _ => ⟨rfl, ⟨.inl rfl, List.Sublist.refl _, .inl rfl⟩, fun _ => SignalRec.derive_lawful _ _⟩

theorem SignalStep.block (b : Bool) : SignalStep (fun x => { x with block := b }) :=
  fun _ => ⟨rfl, ⟨.inl rfl, List.Sublist.refl _, .inl rfl⟩, fun h => ⟨h.status, h.disc, h.watch⟩⟩

theorem SignalStep.tick : SignalStep SignalRec.tick := fun x =>
  ⟨rfl, ⟨.inl rfl, List.Sublist.refl _, .inl rfl⟩, fun h => ⟨h.status, by
    show (x.disc.pass 1).mode = _ ↔ _; rw [pass_mode]; exact h.disc, by
    show (x.watch.pass 1).mode = _ ↔ _; rw [pass_mode]; exact h.watch⟩⟩

theorem SignalKeeps.step {f : SignalRec → SignalRec} (h : SignalKeeps f) : SignalStep f := by
  intro x
  obtain ⟨hc, hh, hw⟩ := h x
  simp only [SignalRec.core, SignalRec.mk.injEq] at hc
  refine ⟨by simp only [SignalRec.conf, hc], hh, fun hl => ⟨?_, ?_, hw hl.watch⟩⟩
  · have : (f x).derivedStatus = x.derivedStatus := by simp only [SignalRec.derivedStatus, hc]
    rw [this, hc.2.2.2.2.1]; exact hl.status
  · have : (f x).discrepant = x.discrepant := by simp only [SignalRec.discrepant, hc]
    rw [this]; simp only [hc]; exact hl.disc

theorem SectionStep.ite {p : SectionRec → Prop} [DecidablePred p] {f : SectionRec → SectionRec} (h : SectionStep f) :
    SectionStep (fun x => if p x then f x else x) := by
  intro x; dsimp only; split
  · exact h x
  · exact ⟨rfl, .inl rfl, id⟩

theorem PointStep.ite {p : PointRec → Prop} [DecidablePred p] {f : PointRec → PointRec} (h : PointStep f) :
    PointStep (fun x => if p x then f x else x) := by
  intro x; dsimp only; split
  · exact h x
  · exact ⟨rfl, ⟨.inl rfl, List.Sublist.refl _⟩, id⟩

theorem SignalStep.ite {p : SignalRec → Prop} [DecidablePred p] {f : SignalRec → SignalRec} (h : SignalStep f) :
    SignalStep (fun x => if p x then f x else x) := by
  intro x; dsimp only; split
  · exact h x
  · exact ⟨rfl, signalDrops.refl _ _, id⟩

theorem SlotStep.ite {p : Slot → Prop} [DecidablePred p] {f : Slot → Slot} (h : SlotStep f) :
    SlotStep (fun x => if p x then f x else x) := by
  intro x; dsimp only; split
  · exact h x
  · rfl

theorem LinkStep.ite {p : Link → Prop} [DecidablePred p] {f : Link → Link} (h : LinkStep f) :
    LinkStep (fun x => if p x then f x else x) := by
  intro x; dsimp only; split
  · exact h x
  · rfl

theorem SlotKeeps.step {f : Slot → Slot} (h : SlotKeeps f) : SlotStep f := by
  intro x
  have hc := h x
  simp only [Slot.core, Slot.fresh, Slot.mk.injEq] at hc
  simp only [Slot.conf, hc]

/-- What the take of a route keeps: its parts one after another (R50). -/
theorem takeRoute_ind {Q : State → Prop} (d : RouteDef) (v : Option Nat) (flanks : List FlankRec) (opts : List Nat)
    (s : State)
    (h0 : Q ({ s with sections := s.sections.map (takenHolder d v), points := s.points.map (takenHold d v) } : State))
    (he : ∀ t, Q t → Q (t.mapSignal d.entry (fun x => { x with entryOf := some d.id })))
    (ha : ∀ f ∈ flanks, ∀ t, Q t → Q (addClaim d.id f t))
    (hr : ∀ t : State, t.routes = s.routes → Q t →
      Q { t with routes := t.routes ++ [newRecord d v flanks opts (param 11 s)] }) :
    Q (takeRoute d v flanks opts s) := by
  unfold takeRoute
  have h := inOrder_ind (P := fun t => Q t ∧ t.routes = s.routes) (fs := flanks.map (addClaim d.id))
    (fun f hf t ht => by
      obtain ⟨x, hx, rfl⟩ := List.mem_map.1 hf
      refine ⟨ha x hx t ht.1, ?_⟩
      unfold addClaim; split <;> exact ht.2) ⟨he _ h0, rfl⟩
  exact hr _ h.2 h.1

end Sys2Proof.Machine
end

