-- ==== Sys2Proof/Laws/Closed.lean ====
section
/-!
SUPPORT. One lemma for each operation of the Element Table, the Route Unit, the Handover Unit, the links, the channels,
the device and the ports: it keeps every property that is `StepClosed`.
-/

namespace Sys2Proof.Machine

section
variable {P : State → Prop} (h : StepClosed P)
include h

theorem StepClosed.stepSection {s : State} {id : Nat} {f : SectionRec → SectionRec} (hf : SectionStep f) (hs : P s) :
    P (s.mapSection id f) := h.sectionStep s _ hf.ite hs

theorem StepClosed.stepPoint {s : State} {id : Nat} {f : PointRec → PointRec} (hf : PointStep f) (hs : P s) :
    P (s.mapPoint id f) := h.pointStep s _ hf.ite hs

theorem StepClosed.stepSignal {s : State} {id : Nat} {f : SignalRec → SignalRec} (hf : SignalStep f) (hs : P s) :
    P (s.mapSignal id f) := h.signalStep s _ hf.ite hs

theorem StepClosed.stepSlot {s : State} {ref : SlotRef} {f : Slot → Slot} (hf : SlotStep f) (hs : P s) :
    P (s.mapSlot ref f) := h.slotStep s _ hf.ite hs

theorem StepClosed.stepLink {s : State} {l : Nat} {f : Link → Link} (hf : LinkStep f) (hs : P s) : P (s.mapLink l f) :=
  h.linkStep s _ hf.ite hs

theorem StepClosed.dev {s : State} {d : Device} (hd : d.conf = s.dev.conf) (hs : P s) : P { s with dev := d } :=
  h.device s d hd hs

/-! ## The Element Table -/

theorem StepClosed.completeMove {s : State} (x : PointRec) (m : Move) (hs : P s) : P (completeMove x m s) := by
  unfold Machine.completeMove; dsimp only
  have h1 := h.emit _ (.moveDone x.id m.target (moveDuration s.dev.time m.start))
    (h.stepPoint (id := x.id) (PointStep.done (param 6 s) (moveDuration s.dev.time m.start)) hs)
  refine h.handPoint _ ?_
  split
  · exact h.emit _ _ h1
  · exact h1

theorem StepClosed.pointViewChanged {s : State} (old : PointRec) (hs : P s) : P (pointViewChanged old s) := by
  unfold Machine.pointViewChanged; repeat' split
  all_goals first
    | exact hs
    | exact h.completeMove _ _ hs
    | exact h.handPoint _ (h.emit _ _ hs)
    | exact h.handPoint _ hs

theorem StepClosed.viewSection {s : State} (ch : Channel) (v : SecView) (x : SectionRec) (hs : P s) :
    P (viewSection ch v x s) := h.sectionChanged _ (h.stepSection (SectionStep.view _ _ _ _) hs)

theorem StepClosed.viewPoint {s : State} (ch : Channel) (v : PointView) (x : PointRec) (hs : P s) :
    P (viewPoint ch v x s) := h.pointViewChanged _ (h.stepPoint (PointStep.view _ _ _) hs)

theorem StepClosed.viewSignal {s : State} (ch : Channel) (v : SignalView) (x : SignalRec) (hs : P s) :
    P (viewSignal ch v x s) := h.signalChanged _ (h.stepSignal (SignalStep.view _ _ _) hs)

theorem StepClosed.applyItem {s : State} (ch : Channel) (id : Nat) (b : Byte) (hs : P s) : P (applyItem ch id b s) := by
  unfold Machine.applyItem; repeat' split
  all_goals first
    | exact hs
    | exact h.viewSection _ _ _ hs
    | exact h.viewPoint _ _ _ hs
    | exact h.viewSignal _ _ _ hs

theorem StepClosed.applyItems (ch : Channel) : ∀ (bs : List Byte) {s : State} (d k : Nat), P s →
    P (applyItems ch bs s d k).2.2
  | [], _, _, _, hs => hs
  | [_], _, _, _, hs => hs
  | [_, _], _, _, _, hs => hs
  | hi :: lo :: b :: rest, s, d, k, hs => by
    unfold Machine.applyItems; split
    · exact StepClosed.applyItems ch rest _ _ (h.applyItem _ _ _ hs)
    · exact StepClosed.applyItems ch rest _ _ hs

theorem StepClosed.viewsUnknown {s : State} (ch : Channel) (hs : P s) : P (viewsUnknown ch s) :=
  h.signalStep _ _ (SignalStep.view (param 7 s) ch .unknown)
    (h.pointStep _ _ (PointStep.view (param 6 s) ch .unknown)
      (h.sectionStep s _ (SectionStep.view (param 4 s) (param 5 s) ch .unknown) hs))

theorem StepClosed.unknownChanges (s0 : State) : ∀ f ∈ unknownChanges s0, ∀ s, P s → P (f s) := by
  intro f hf
  unfold Machine.unknownChanges at hf
  rcases List.mem_append.1 hf with hf | hf
  · rcases List.mem_append.1 hf with hf | hf
    · exact forall_map (g := fun x : SectionRec => Machine.sectionChanged x) (fun _ _ => h.sectionChanged _) f hf
    · exact forall_map (g := fun x : PointRec => Machine.pointViewChanged x) (fun _ _ => h.pointViewChanged _) f hf
  · exact forall_map (g := fun x : SignalRec => Machine.signalChanged x) (fun _ _ => h.signalChanged _) f hf

theorem StepClosed.sectionDiscExpired {s : State} (id : Nat) (hs : P s) : P (sectionDiscExpired id s) := by
  unfold Machine.sectionDiscExpired faultSection; repeat' split
  all_goals first | exact hs | exact h.sectionChanged _ (h.emit _ _ (h.stepSection (SectionStep.fault _ _ _) hs))

theorem StepClosed.pointDiscExpired {s : State} (id : Nat) (hs : P s) : P (pointDiscExpired id s) := by
  unfold Machine.pointDiscExpired faultPoint; repeat' split
  all_goals first | exact hs | exact h.handPoint _ (h.emit _ _ (h.stepPoint (PointStep.fault _ _) hs))

theorem StepClosed.signalDiscExpired {s : State} (id : Nat) (hs : P s) : P (signalDiscExpired id s) := by
  unfold Machine.signalDiscExpired faultSignal; repeat' split
  all_goals first | exact hs | exact h.handSignal _ (h.emit _ _ (h.stepSignal (SignalStep.fault _ _) hs))

theorem StepClosed.clearanceExpired {s : State} (id : Nat) (hs : P s) : P (clearanceExpired id s) := by
  unfold Machine.clearanceExpired; repeat' split
  all_goals first | exact hs | exact h.sectionChanged _ (h.stepSection SectionStep.cleared hs)

theorem StepClosed.moveExpired {s : State} (id : Nat) (hs : P s) : P (moveExpired id s) := by
  unfold Machine.moveExpired; repeat' split
  all_goals first
    | exact hs
    | skip
  refine h.inAnyOrder ?_ (h.emit _ _ (h.stepPoint (PointStep.failed _) hs))
  simp only [List.mem_cons, List.not_mem_nil, or_false]
  rintro f (rfl | rfl | rfl) t ht
  · exact h.routesOnMoveFailed _ _ ht
  · exact h.permOn _ ht
  · exact h.flanksOn _ ht

theorem StepClosed.watchExpired {s : State} (id : Nat) (hs : P s) : P (watchExpired id s) := by
  unfold Machine.watchExpired; repeat' split
  all_goals first
    | exact hs
    | exact h.signalChanged _ (h.withdrawOver _ _ (h.emit _ _ (h.stepSignal (SignalStep.watched _ _ _) hs)))

theorem StepClosed.issueCall {s : State} (id : Nat) (p : Pos) (hs : P s) : P (issueCall id p s) := by
  unfold Machine.issueCall; repeat' split
  all_goals first | exact hs | exact h.emit _ _ (h.stepPoint (PointStep.call _) hs)

theorem StepClosed.settleCall {s : State} (id : Nat) (hs : P s) : P (settleCall id s) := by
  unfold Machine.settleCall
  split
  · exact hs
  · next x _ =>
    split
    · exact hs
    · next m _ =>
      split
      · exact h.completeMove x m hs
      · exact h.handPoint id hs

theorem StepClosed.setBlock {s : State} (id : Nat) (b : Bool) (hs : P s) : P (setBlock id b s) := by
  unfold Machine.setBlock; split
  · exact h.sectionChanged _ (h.stepSection (SectionStep.block b) hs)
  · exact h.stepSignal (SignalStep.block b) (h.stepPoint (PointStep.block b) hs)

theorem StepClosed.setMask {s : State} (id : Nat) (b : Bool) (hs : P s) : P (setMask id b s) := by
  unfold Machine.setMask; repeat' split
  all_goals first
    | exact hs
    | exact h.sectionChanged _ (h.stepSection (SectionStep.mask _ _ b) hs)
    | exact h.handPoint _ (h.stepPoint (PointStep.mask _ b) hs)
    | exact h.handSignal _ (h.stepSignal (SignalStep.mask _ b) hs)

theorem StepClosed.restoreElement {s : State} (id : Nat) (hs : P s) : P (restoreElement id s) := by
  unfold Machine.restoreElement; repeat' split
  all_goals first
    | exact h.sectionChanged _ (h.emit _ _ (h.stepSection (SectionStep.fault _ _ false) hs))
    | exact h.handPoint _ (h.emit _ _ (h.stepPoint (PointStep.fault _ false) hs))
    | exact h.handSignal _ (h.emit _ _ (h.stepSignal (SignalStep.fault _ false) hs))

/-! ## The Route Unit -/

theorem StepClosed.enterCalling {s : State} (d : RouteDef) (v : Option Nat) (flanks : List FlankRec) (opts : List Nat)
    (hn : s.routes.length < 32) (ha : ∀ a ∈ s.routes, a.id ≠ d.id) (hs : P s) : P (enterCalling d v flanks opts s) := by
  unfold Machine.enterCalling; dsimp only
  refine h.testProven _ (h.inAnyOrder ?_ (inOrder_ind ?_ (h.emit _ _ (h.take s d v flanks opts hn ha hs))))
  · intro f hf
    rcases List.mem_append.1 hf with hf | hf
    · exact forall_map (g := fun q : PointReq => Machine.settleCall q.point) (fun _ _ => h.settleCall _) f hf
    · rw [List.mem_singleton.1 hf]; exact fun _ => h.permOn _
  · exact forall_map (g := fun q : PointReq => Machine.issueCall q.point q.pos) (fun _ _ => h.issueCall _ _)

theorem StepClosed.reRequest {s : State} (r : Nat) (hs : P s) : P (reRequest r s) :=
  h.permOn _ (h.mapRoute (fun _ => ⟨rfl, id⟩) hs)

theorem StepClosed.releaseAtOnce {s : State} (a : ActiveRoute) (hs : P s) : P (releaseAtOnce a s) :=
  h.removeRoute _ _ _ _ _ (h.withdrawOnly _ _ hs)

theorem StepClosed.enterApproachHeld {s : State} (a : ActiveRoute) (hs : P s) : P (enterApproachHeld a s) :=
  h.startRelease _ (h.emit _ _ (h.mapRoute (fun _ => ⟨rfl, fun e => nomatch e⟩) (h.withdrawOnly _ _ hs)))

theorem StepClosed.enterEmergencyTiming {s : State} (a : ActiveRoute) (hs : P s) : P (enterEmergencyTiming a s) :=
  h.startRelease _ (h.emit _ _ (h.mapRoute (fun _ => ⟨rfl, fun e => nomatch e⟩) (h.withdrawOnly _ _ hs)))

theorem StepClosed.settingExpired {s : State} (r : Nat) (hs : P s) : P (settingExpired r s) := by
  unfold Machine.settingExpired; repeat' split
  all_goals first | exact hs | exact h.abandonRoute _ _ _ hs

theorem StepClosed.overlapExpired {s : State} (r : Nat) (hs : P s) : P (overlapExpired r s) := by
  unfold Machine.overlapExpired; repeat' split
  all_goals first | exact hs | exact h.releaseOverlap _ hs

theorem StepClosed.releaseExpired {s : State} (r : Nat) (hs : P s) : P (releaseExpired r s) := by
  unfold Machine.releaseExpired; repeat' split
  all_goals first | exact hs | exact h.removeRoute _ _ _ _ _ hs

theorem StepClosed.freezeRoutes {s : State} (hs : P s) : P (freezeRoutes s) := h.routes s _ (fun _ => ⟨rfl, id⟩) hs

/-! ## The Handover Unit -/

theorem StepClosed.permitTo {s : State} {ref : SlotRef} {p : Permit} {c : PermitCause} {f : Slot → Slot}
    (hf : SlotStep f) (hs : P s) : P (setPermit ref p c f s) := h.emit _ _ (h.stepSlot (fun x => hf x) hs)

theorem StepClosed.outTo {s : State} {ref : SlotRef} {o : Outbound} {c : SlotCause} {f : Slot → Slot}
    (hf : SlotStep f) (hs : P s) : P (setOutbound ref o c f s) :=
  h.permOn _ (h.emit _ _ (h.stepSlot (fun x => hf x) hs))

theorem StepClosed.permitFault {s : State} (x : Slot) (c : PermitCause) {f : Slot → Slot} (hf : SlotStep f) (hs : P s) :
    P (permitFault x c f s) := by
  unfold Machine.permitFault; dsimp only; split
  · exact h.endOutbound _ (h.permitTo hf hs)
  · exact h.permitTo hf hs

theorem StepClosed.bothHeldFault {s : State} (x : Slot) {f : Slot → Slot} (hf : SlotStep f) (hs : P s) :
    P (bothHeldFault x f s) := h.permitFault _ _ hf (h.emit _ _ hs)

theorem StepClosed.permitHere {s : State} (x : Slot) (c : PermitCause) {f : Slot → Slot} (hf : SlotStep f) (hs : P s) :
    P (permitHere x c f s) := h.tryOffer _ (h.permitTo hf hs)

omit h in
theorem SlotStep.settled : SlotStep Slot.settled := fun _ => rfl

theorem StepClosed.reconcile {s : State} (x : Slot) (p : PubPermit) (hs : P s) : P (reconcile x p s) := by
  unfold Machine.reconcile
  split
  · dsimp only; split
    · exact h.tryOffer _ (h.stepSlot SlotStep.settled hs)
    · exact h.stepSlot SlotStep.settled hs
  · split
    · exact hs
    · exact h.stepSlot (fun _ => rfl) hs
  · exact h.permitHere _ _ SlotStep.settled hs
  · exact h.permitTo SlotStep.settled hs
  · exact h.bothHeldFault _ SlotStep.settled hs
  · exact h.permitFault _ _ SlotStep.settled hs

theorem StepClosed.permitStep {s : State} (x : Slot) (prev : Option PubPermit) (p : PubPermit) (hs : P s) :
    P (permitStep x prev p s) := by
  unfold Machine.permitStep
  split
  · split
    · exact h.bothHeldFault x (fun _ => rfl) hs
    · split
      · exact hs
      · split
        · exact h.permitTo (fun _ => rfl) hs
        · exact h.permitTo (fun _ => rfl) hs
    all_goals exact hs
  · split
    · exact h.permitFault x .noHolder (fun _ => rfl) hs
    · exact hs
  · split
    · exact h.permitHere x .taken (fun _ => rfl) hs
    · exact h.permitTo (fun _ => rfl) hs
    all_goals exact hs
  · split
    · exact h.permitTo (fun _ => rfl) hs
    · exact h.permitHere x .notTaken (fun _ => rfl) hs
    · exact hs
    all_goals exact h.permitFault x .noHolder (fun _ => rfl) hs
  · exact hs
  · exact hs

theorem StepClosed.outboundStep {s : State} (x : Slot) (prev : Option PubIn) (i : PubIn) (hs : P s) :
    P (outboundStep x prev i s) := by
  unfold Machine.outboundStep; dsimp only; repeat' split
  all_goals first
    | exact hs
    | exact h.outTo (fun _ => rfl) hs
    | exact h.stepSlot (fun _ => rfl) hs
    | exact h.emit _ _ (h.stepSlot (fun _ => rfl) hs)
    | exact h.reportReceived _ hs
    | exact h.tryOffer _ (h.outTo (fun _ => rfl) hs)

theorem StepClosed.acceptedStep {s : State} (x : Slot) (o : PubOut) (iso : Bool) (hs : P s) : P (acceptedStep x o iso s) := by
  unfold Machine.acceptedStep; dsimp only; repeat' split
  all_goals first
    | exact hs
    | exact h.stepSlot (fun _ => rfl) hs
    | exact h.emit _ _ (h.stepSlot (fun _ => rfl) hs)
    | exact h.endInbound _ _ _ hs

theorem StepClosed.inboundStep {s : State} (was : Bool) (x : Slot) (o : PubOut) (hs : P s) : P (inboundStep was x o s) := by
  unfold Machine.inboundStep; repeat' split
  all_goals first
    | exact hs
    | exact h.testAcceptance _ hs
    | exact h.emit _ _ (h.stepSlot (fun _ => rfl) hs)
    | exact h.acceptedStep _ _ _ hs

theorem StepClosed.deliverSlot {s : State} (ref : SlotRef) (p : PubFields) (hs : P s) : P (deliverSlot ref p s) := by
  unfold Machine.deliverSlot
  split
  · exact hs
  · next old _ =>
    dsimp only
    have h1 : P (s.mapSlot ref (·.received p)) := h.stepSlot (fun _ => rfl) hs
    have h2 : P (if (old.received p).reconciled then
        Machine.permitStep (old.received p) (old.peer.map (·.permit)) p.permit (s.mapSlot ref (·.received p))
        else Machine.reconcile (old.received p) p.permit (s.mapSlot ref (·.received p))) := by
      split
      · exact h.permitStep _ _ _ h1
      · exact h.reconcile _ _ h1
    have h3 : ∀ u, P u → P (match u.slot? ref with
        | some y => if y.reconciled then Machine.outboundStep y (old.peer.map (·.inb)) p.inb u else u
        | none => u) := by
      intro u hu
      split
      · split
        · exact h.outboundStep _ _ _ hu
        · exact hu
      · exact hu
    have h4 := h3 _ h2
    split
    · exact h.inboundStep _ _ _ h4
    · exact h4

theorem StepClosed.deliver {s : State} (l : Nat) (ps : List PubFields) (hs : P s) : P (deliver l ps s) := by
  unfold Machine.deliver; split
  · exact inOrder_ind (forall_map (g := fun q : PubFields × Nat => Machine.deliverSlot ⟨l, q.2⟩ q.1)
      (fun _ _ => h.deliverSlot _ _)) hs
  · exact inOrder_ind (forall_map (g := fun q : PubFields × Nat => Machine.storeSlot ⟨l, q.2⟩ q.1)
      (fun _ _ ht => h.stepSlot (fun _ => rfl) ht)) hs
  · exact hs
  · exact hs

theorem StepClosed.slotsOnUp {s : State} (l : Nat) (hs : P s) : P (slotsOnUp l s) :=
  h.slotStep s _ (SlotStep.ite (p := fun x => x.ref.link = l) (fun _ => rfl)) hs

theorem StepClosed.losePermit {s : State} (x : Slot) (hs : P s) : P (losePermit x s) := by
  unfold Machine.losePermit; repeat' split
  all_goals first | exact hs | exact h.permitTo (fun _ => rfl) hs

theorem StepClosed.loseOutbound {s : State} (x : Slot) (hs : P s) : P (loseOutbound x s) := by
  unfold Machine.loseOutbound; repeat' split
  all_goals first | exact hs | exact h.outTo (fun _ => rfl) hs

theorem StepClosed.loseInbound {s : State} (x : Slot) (hs : P s) : P (loseInbound x s) := by
  unfold Machine.loseInbound; repeat' split
  all_goals first | exact hs | exact h.emit _ _ (h.stepSlot (fun _ => rfl) hs)

theorem StepClosed.loseSlot {s : State} (ref : SlotRef) (hs : P s) : P (loseSlot ref s) := by
  unfold Machine.loseSlot; split
  · exact hs
  · exact h.loseInbound _ (h.loseOutbound _ (h.losePermit _ (h.stepSlot (fun _ => rfl) hs)))

theorem StepClosed.slotsOnLoss {s : State} (l : Nat) (hs : P s) : P (slotsOnLoss l s) := by
  unfold Machine.slotsOnLoss
  exact inOrder_ind (forall_map (g := Machine.loseSlot) (fun _ _ => h.loseSlot _)) hs

theorem StepClosed.freezeSlots {s : State} (hs : P s) : P (freezeSlots s) := h.slotStep s _ (fun _ => rfl) hs

theorem StepClosed.setSlotBlock {s : State} (ref : SlotRef) (b : Bool) (hs : P s) : P (setSlotBlock ref b s) := by
  have h1 : P (s.mapSlot ref (fun y => { y with block := b })) := h.stepSlot (fun _ => rfl) hs
  unfold Machine.setSlotBlock; dsimp only; split
  · exact h1
  · exact h.tryOffer _ (h.retest _ h1)

theorem StepClosed.reconExpired {s : State} (ref : SlotRef) (hs : P s) : P (reconExpired ref s) := by
  unfold Machine.reconExpired; repeat' split
  all_goals first | exact hs | exact h.permitFault _ _ SlotStep.settled hs

theorem StepClosed.transferExpired {s : State} (ref : SlotRef) (hs : P s) : P (transferExpired ref s) := by
  unfold Machine.transferExpired; repeat' split
  all_goals first
    | exact hs
    | exact h.retest _ (h.permitTo (fun _ => rfl) hs)
    | exact h.permitFault _ _ (fun _ => rfl) hs

theorem StepClosed.acceptExpired {s : State} (ref : SlotRef) (hs : P s) : P (acceptExpired ref s) := by
  unfold Machine.acceptExpired; dsimp only; repeat' split
  all_goals first
    | exact hs
    | exact h.emit _ _ (h.stepSlot (fun _ => rfl) hs)
    | exact h.stepSlot (fun _ => rfl) hs

theorem StepClosed.transitExpired {s : State} (ref : SlotRef) (hs : P s) : P (transitExpired ref s) := by
  unfold Machine.transitExpired; dsimp only; repeat' split
  all_goals first
    | exact hs
    | exact h.emit _ _ (h.stepSlot (fun _ => rfl) hs)
    | exact h.stepSlot (fun _ => rfl) hs

theorem StepClosed.reserveExpired {s : State} (ref : SlotRef) (hs : P s) : P (reserveExpired ref s) := by
  unfold Machine.reserveExpired; repeat' split
  all_goals first | exact hs | exact h.endInbound _ _ _ hs

/-! ## The links -/

theorem StepClosed.send {s : State} (l : Nat) (f : LinkFrame) (hs : P s) : P (send l f s) := h.tx _ _ hs

theorem StepClosed.sendTrain {s : State} (l : Nat) (a b : Bool) (hs : P s) : P (sendTrain l a b s) := by
  unfold Machine.sendTrain; split
  · exact hs
  · exact h.send _ _ hs

theorem StepClosed.sendCyclic {s : State} (l : Nat) (hs : P s) : P (sendCyclic l s) := by
  unfold Machine.sendCyclic; split
  · exact hs
  · exact h.stepLink (fun _ => rfl) (h.send _ _ hs)

theorem StepClosed.setLink {s : State} (l : Nat) (st : LinkState) (c : LinkCause) {f : Link → Link} (hf : LinkStep f)
    (hs : P s) : P (setLink l st c f s) := h.emit _ _ (h.stepLink (fun x => hf x) hs)

theorem StepClosed.handLink {s : State} (l : Nat) (was : LinkState) (hs : P s) : P (handLink l was s) := by
  unfold Machine.handLink; split
  · exact h.slotsOnLoss _ hs
  · exact hs

theorem StepClosed.enterDown {s : State} (x : Link) (c : LinkCause) (hs : P s) : P (enterDown x c s) :=
  h.sendTrain _ _ _ (h.handLink _ _ (h.setLink _ _ _ (fun _ => rfl) hs))

theorem StepClosed.enterTraining {s : State} (x : Link) (c : LinkCause) (t : Option TrainContent) (hs : P s) :
    P (enterTraining x c t s) :=
  h.sendTrain _ _ _ (h.handLink _ _ (h.setLink _ _ _ (fun _ => rfl) hs))

theorem StepClosed.enterUp {s : State} (x : Link) (hs : P s) : P (enterUp x s) :=
  h.slotsOnUp _ (h.sendCyclic _ (h.setLink _ _ _ (fun _ => rfl) hs))

theorem StepClosed.endTest {s : State} (x : Link) (r : TestResult) (c : LinkCause) (t : Option TrainContent)
    (hs : P s) : P (endTest x r c t s) :=
  h.enterTraining _ _ _ (h.emit _ _ (h.stepLink (fun _ => rfl) hs))

theorem StepClosed.sendLoop {s : State} (x : Link) (hs : P s) : P (sendLoop x s) :=
  h.stepLink (fun _ => rfl) (h.send _ _ hs)

theorem StepClosed.startRunning {s : State} (x : Link) (hs : P s) : P (startRunning x s) :=
  h.sendLoop _ (h.stepLink (fun _ => rfl) hs)

theorem StepClosed.takeEcho {s : State} (x : Link) (i : Nat) (p : List Byte) (hs : P s) : P (takeEcho x i p s) := by
  unfold Machine.takeEcho; dsimp only; repeat' split
  all_goals first
    | exact h.endTest _ _ _ _ (h.stepLink (fun _ => rfl) hs)
    | exact h.stepLink (fun _ => rfl) hs

theorem StepClosed.answerTest {s : State} (x : Link) (hs : P s) : P (answerTest x s) :=
  h.stepLink (fun _ => rfl) (h.sendTrain _ _ _ hs)

theorem StepClosed.testAsked {s : State} (x : Link) (hs : P s) : P (testAsked x s) := by
  unfold Machine.testAsked; split
  · exact h.answerTest _ (h.setLink _ _ _ (fun _ => rfl) hs)
  · exact h.enterTraining _ _ _ hs

theorem StepClosed.startTest {s : State} (l : Nat) (p : List Byte) (n : Nat) (hs : P s) : P (startTest l p n s) := by
  unfold Machine.startTest; split
  · exact hs
  · exact h.sendTrain _ _ _ (h.setLink _ _ _ (fun _ => rfl) hs)

theorem StepClosed.trainInTraining {s : State} (x : Link) (c : TrainContent) (hs : P s) : P (trainInTraining x c s) := by
  unfold Machine.trainInTraining; dsimp only; split
  · exact h.enterUp _ (h.stepLink (fun _ => rfl) hs)
  · exact h.stepLink (fun _ => rfl) hs

theorem StepClosed.acceptCyclic {s : State} (x : Link) (k : Byte) (ps : List PubFields) (hs : P s) :
    P (acceptCyclic x k ps s) := h.deliver _ _ (h.stepLink (fun _ => rfl) hs)

theorem StepClosed.cyclicInTraining {s : State} (x : Link) (k : Byte) (ps : List PubFields) (hs : P s) :
    P (cyclicInTraining x k ps s) := by
  unfold Machine.cyclicInTraining; dsimp only; repeat' split
  all_goals first
    | exact hs
    | exact h.acceptCyclic _ _ _ (h.enterUp _ hs)
    | exact h.enterUp _ hs

theorem StepClosed.takeTrain {s : State} (x : Link) (c : TrainContent) (hs : P s) : P (takeTrain x c s) := by
  unfold Machine.takeTrain; repeat' split
  all_goals first
    | exact hs
    | exact h.enterTraining _ _ _ hs
    | exact h.trainInTraining _ _ hs
    | exact h.testAsked _ hs
    | exact h.answerTest _ hs
    | exact h.startRunning _ hs
    | exact h.endTest _ _ _ _ hs

theorem StepClosed.takeCyclic {s : State} (x : Link) (k : Byte) (ps : List PubFields) (hs : P s) :
    P (takeCyclic x k ps s) := by
  unfold Machine.takeCyclic; repeat' split
  all_goals first | exact hs | exact h.cyclicInTraining _ _ _ hs | exact h.acceptCyclic _ _ _ hs

theorem StepClosed.takeLoop {s : State} (x : Link) (i : Byte) (p : List Byte) (hs : P s) : P (takeLoop x i p s) := by
  unfold Machine.takeLoop; repeat' split
  all_goals first | exact hs | exact h.stepLink (fun _ => rfl) (h.send _ _ hs) | exact h.takeEcho _ _ _ hs

omit h in
theorem LinkStep.forget (x : Link) : (x.forgetTrain.id, x.forgetTrain.conf) = (x.id, x.conf) := by
  unfold Link.forgetTrain; split <;> rfl

theorem StepClosed.badFrame {s : State} (x : Link) (hs : P s) : P (badFrame x s) := by
  have h1 : P (s.mapLink x.id Link.countBad) := h.stepLink (fun _ => LinkStep.forget _) hs
  unfold Machine.badFrame; dsimp only
  split
  · exact h1
  · split
    · exact h.enterDown _ _ h1
    · split
      · exact h.endTest _ _ _ _ h1
      · exact h.enterTraining _ _ _ h1
    · exact h1
    · exact h1
    · exact h1

theorem StepClosed.mismatchedFrame {s : State} (x : Link) (a b : Nat) (hs : P s) : P (mismatchedFrame x a b s) := by
  have h1 : P (s.mapLink x.id (fun y => { { y with badRun := 0 }.forgetTrain with mismatch := true })) :=
    h.stepLink (fun y => LinkStep.forget { y with badRun := 0 }) hs
  unfold Machine.mismatchedFrame; dsimp only; split
  · exact h1
  · exact h.emit _ _ h1

theorem StepClosed.validFrame {s : State} (x : Link) (f : LinkFrame) (hs : P s) : P (validFrame x f s) := by
  have h1 : P (s.mapLink x.id Link.countValid) := h.stepLink (fun _ => rfl) hs
  unfold Machine.validFrame; dsimp only; split
  · exact h.takeTrain _ _ h1
  · exact h.takeCyclic _ _ _ h1
  · exact h.takeLoop _ _ _ h1

theorem StepClosed.takeRun {s : State} (l : Nat) (c : RunClass) (hs : P s) : P (takeRun l c s) := by
  unfold Machine.takeRun knownFrame; repeat' split
  all_goals first
    | exact hs
    | exact h.badFrame _ hs
    | exact h.stepLink (fun _ => rfl) hs
    | exact h.validFrame _ _ hs
    | exact h.mismatchedFrame _ _ _ hs

theorem StepClosed.linkSendExpired {s : State} (l : Nat) (hs : P s) : P (linkSendExpired l s) := by
  unfold Machine.linkSendExpired; repeat' split
  all_goals first
    | exact hs
    | exact h.sendTrain _ _ _ (h.stepLink (fun _ => rfl) hs)
    | exact h.sendCyclic _ (h.stepLink (fun _ => rfl) hs)
    | exact h.sendLoop _ hs

theorem StepClosed.trainingExpired {s : State} (l : Nat) (hs : P s) : P (trainingExpired l s) := by
  unfold Machine.trainingExpired; repeat' split
  all_goals first | exact hs | exact h.enterDown _ _ hs

theorem StepClosed.supervisionExpired {s : State} (l : Nat) (hs : P s) : P (supervisionExpired l s) := by
  unfold Machine.supervisionExpired; repeat' split
  all_goals first | exact hs | exact h.enterDown _ _ hs

theorem StepClosed.answerExpired {s : State} (l : Nat) (hs : P s) : P (answerExpired l s) := by
  unfold Machine.answerExpired; repeat' split
  all_goals first | exact hs | exact h.endTest _ _ _ _ hs

theorem StepClosed.echoExpired {s : State} (l : Nat) (hs : P s) : P (echoExpired l s) := by
  unfold Machine.echoExpired
  split
  · exact hs
  · split
    · split
      · exact h.endTest _ _ _ _ hs
      · exact h.enterTraining _ _ _ hs
    · exact hs

theorem StepClosed.startLink {s : State} (l : Nat) (hs : P s) : P (startLink l s) := by
  unfold Machine.startLink; repeat' split
  all_goals first | exact hs | exact h.enterDown _ _ hs

theorem StepClosed.resetLink {s : State} (l : Nat) (hs : P s) : P (resetLink l s) := by
  unfold Machine.resetLink; repeat' split
  all_goals first
    | exact hs
    | exact h.sendTrain _ _ _ (h.stepLink (fun _ => rfl) hs)
    | exact h.stepLink (fun _ => rfl) hs

theorem StepClosed.haltLink {s : State} (l : Nat) (hs : P s) : P (haltLink l s) := by
  unfold Machine.haltLink
  split
  · exact hs
  · next x _ =>
    split
    · dsimp only
      refine h.handLink _ _ (h.setLink _ _ _ (fun _ => rfl) ?_)
      split
      · exact h.emit _ _ (h.stepLink (fun _ => rfl) hs)
      · exact hs
    · exact hs

/-! ## The channels -/

omit h in
theorem foldl_ind {α : Type} {P : State → Prop} {g : State → α → State} (hg : ∀ s x, P s → P (g s x)) :
    ∀ (xs : List α) {s : State}, P s → P (xs.foldl g s)
  | [], _, hs => hs
  | _ :: xs, _, hs => foldl_ind hg xs (hg _ _ hs)

theorem StepClosed.emptyTable {s : State} (hs : P s) : P { s with table := [] } :=
  h.table s [] (List.nil_sublist _) hs

theorem StepClosed.withdrawTable {s : State} (hs : P s) : P (withdrawTable s) :=
  h.emptyTable (foldl_ind (fun _ _ ht => h.emit _ _ ht) _ hs)

theorem StepClosed.withdrawTableTo {s : State} (ch : Channel) (hs : P s) : P (withdrawTableTo ch s) :=
  h.emptyTable (foldl_ind (fun _ _ ht => h.offer _ _ _ ht) _ hs)

theorem StepClosed.mapAwaiting {s : State} (ch : Channel) (f : Timer → Timer) (hs : P s) : P (mapAwaiting ch f s) := by
  refine h.table s _ ?_ hs
  rw [map_core_eq]
  · intro x; split <;> rfl

theorem StepClosed.removeHalf {s : State} (tag : Byte) (hs : P s) : P (removeHalf tag s) :=
  h.table s _ (List.Sublist.map _ List.filter_sublist) hs

theorem StepClosed.windowExpired {s : State} (tag : Byte) (hs : P s) : P (windowExpired tag s) := by
  unfold Machine.windowExpired; repeat' split
  all_goals first | exact hs | exact h.emit _ _ (h.removeHalf tag hs)

theorem StepClosed.handChannel (ch : Channel) : ∀ f ∈ handChannel ch, ∀ s, P s → P (f s) := by
  unfold Machine.handChannel
  simp only [List.mem_cons, List.not_mem_nil, or_false]
  rintro f (rfl | rfl) t ht
  · exact h.permOn _ ht
  · exact h.retestAll ht

theorem StepClosed.setChannel {s : State} (ch : Channel) (st : ChState) (c : ChCause) (f : ChannelRec → ChannelRec)
    (hs : P s) : P (setChannel ch st c f s) := h.emit _ _ (h.chan _ _ _ hs)

theorem StepClosed.frameArrives {s : State} (ch : Channel) (hs : P s) : P (frameArrives ch s) := by
  unfold Machine.frameArrives; split
  · exact h.inAnyOrder (h.handChannel ch) (h.setChannel _ _ _ _ hs)
  · exact h.chan _ _ _ hs
  · exact hs
  · exact hs

theorem StepClosed.enterPaused {s : State} (ch : Channel) (hs : P s) : P (enterPaused ch s) :=
  h.inAnyOrder (h.handChannel ch) (h.mapAwaiting _ _ (h.setChannel _ _ _ _ hs))

theorem StepClosed.leavePaused {s : State} (ch : Channel) (hs : P s) : P (leavePaused ch s) :=
  h.inAnyOrder (h.handChannel ch) (h.mapAwaiting _ _ (h.setChannel _ _ _ _ hs))

theorem StepClosed.handLost (ch : Channel) (s0 : State) : ∀ f ∈ Machine.handChannel ch ++ Machine.unknownChanges s0,
    ∀ s, P s → P (f s) := by
  intro f hf
  rcases List.mem_append.1 hf with hf | hf
  · exact h.handChannel ch f hf
  · exact h.unknownChanges s0 f hf

theorem StepClosed.enterLost {s : State} (ch : Channel) (c : ChCause) (hs : P s) : P (enterLost ch c s) :=
  h.inAnyOrder (h.handLost ch s) (h.setChannel _ _ _ _ (h.withdrawTable (h.viewsUnknown _ hs)))

theorem StepClosed.channelSupervisionExpired {s : State} (ch : Channel) (hs : P s) :
    P (channelSupervisionExpired ch s) := by
  unfold Machine.channelSupervisionExpired; split
  · exact h.enterLost _ _ hs
  · exact hs

theorem StepClosed.pauseLimitExpired {s : State} (ch : Channel) (hs : P s) : P (pauseLimitExpired ch s) := by
  unfold Machine.pauseLimitExpired; split
  · exact h.enterLost _ _ hs
  · exact hs

theorem StepClosed.chooseTogether {s : State} (ch : Channel) (hs : P s) : P (chooseTogether ch s).2 := by
  unfold Machine.chooseTogether; split
  · rw [pick_eq]; exact h.choice _ _ _ hs
  · exact hs

theorem StepClosed.resetChannel {s : State} (ch : Channel) (hs : P s) : P (resetChannel ch s) :=
  h.offer _ _ _ (h.withdrawTableTo _
    (h.drain _ _ _ (Nat.zero_le _) (Nat.zero_le _) (h.port _ _ _ (h.chan _ _ _ (h.viewsUnknown _ hs)))))

theorem StepClosed.channelReset {s : State} (ch : Channel) (hs : P s) : P (channelReset ch s) := by
  have h1 := h.resetChannel ch (h.chooseTogether ch hs)
  refine h.chan _ _ _ (h.inAnyOrder (h.handLost ch s) ?_)
  split
  · exact h.drain _ _ _ (Nat.zero_le _) (Nat.zero_le _) h1
  · exact h1

/-! ## The device -/

theorem StepClosed.haltLinks {s : State} (hs : P s) : P (haltLinks s) :=
  h.freezeSlots (h.inAnyOrder (forall_map (g := Machine.haltLink) (fun _ _ => h.haltLink _)) hs)

theorem StepClosed.enterSafeHalt {s : State} (c : HaltCause) (i : Option FailItem) (n : Nat) (hs : P s) :
    P (enterSafeHalt c i n s) := by
  refine h.inAnyOrder ?_ (h.emit _ _ (h.dev (s := s) rfl hs))
  simp only [List.mem_cons, List.not_mem_nil, or_false]
  rintro f (rfl | rfl | rfl | rfl) t ht
  · exact h.withdrawTable ht
  · exact h.withdrawAll ht
  · exact h.freezeRoutes ht
  · exact h.haltLinks ht

theorem StepClosed.enterAwaiting {s : State} (hs : P s) : P (enterAwaiting s) :=
  inOrder_ind (forall_map (g := Machine.startLink) (fun _ _ => h.startLink _)) (h.emit _ _ (h.dev (s := s) rfl hs))

theorem StepClosed.enterService {s : State} (hs : P s) : P (enterService s) := by
  refine h.inAnyOrder ?_ (h.emit _ _ (h.dev (s := s) rfl hs))
  simp only [List.mem_cons, List.not_mem_nil, or_false]
  rintro f (rfl | rfl) t ht
  · exact h.permOn _ ht
  · exact h.retestAll ht

theorem StepClosed.imageCheckExpired {s : State} (hs : P s) : P (imageCheckExpired s) := by
  unfold Machine.imageCheckExpired; repeat' split
  all_goals first | exact hs | exact h.dev (s := s) rfl hs | exact h.enterSafeHalt _ _ _ hs

theorem StepClosed.applyParams {s : State} (hs : P s) : P (applyParams s) := h.emit _ _ (h.dev (s := s) rfl hs)

theorem StepClosed.deviceReset {s : State} (ch : Channel) (hs : P s) : P (deviceReset ch s) := by
  have h1 : P (inOrder ((List.range 4).map Machine.resetLink) (Machine.resetBlocks ch s)) :=
    inOrder_ind (forall_map (g := Machine.resetLink) (fun _ _ => h.resetLink _)) (h.blocks s ch hs)
  unfold Machine.deviceReset; dsimp only; split
  · exact h.dev (s := inOrder ((List.range 4).map Machine.resetLink) (Machine.resetBlocks ch s)) rfl h1
  · exact h.enterSafeHalt _ _ _ (h.tx _ _ h1)

theorem StepClosed.releaseDrst {s : State} (hs : P s) : P (releaseDrst s) := h.dev (s := s) rfl hs

theorem StepClosed.toggleHealth {s : State} (hs : P s) : P (toggleHealth s) := by
  unfold Machine.toggleHealth; split
  · exact h.dev (s := s) rfl hs
  · exact hs

theorem StepClosed.tick {s : State} (hs : P s) : P (tick s) := by
  unfold Machine.tick; split
  · exact hs
  · have h1 := h.dev (s := s) (d := { s.dev with time := s.dev.time + 1, checkTimer := s.dev.checkTimer.pass 1 }) rfl hs
    have h2 := h.sectionStep _ _ SectionStep.tick h1
    have h3 := h.pointStep _ _ PointStep.tick h2
    have h4 := h.signalStep _ _ SignalStep.tick h3
    have h5 := h.routes _ ActiveRoute.tick (fun _ => ⟨rfl, id⟩) h4
    have h6 := h.slotStep _ Slot.tick (fun _ => rfl) h5
    have h7 := h.linkStep _ Link.tick (fun _ => rfl) h6
    have h8 := h.table _ (s.table.map HalfRequest.tick) (by
      show List.Sublist _ (s.table.map _)
      rw [map_core_eq (f := HalfRequest.tick) (fun _ => rfl)]) h7
    exact h.chan _ .B s.chanB.tick (h.chan _ .A s.chanA.tick h8)

end

end Sys2Proof.Machine
end

