-- ==== Sys2Proof/Laws/Exec.lean ====
section
/-!
SUPPORT. Requests and whole commands keep every property that is `StepClosed`.
-/

namespace Sys2Proof.Machine

/-- What a verdict does, after its REQUEST_DONE, keeps `P`. -/
def VerdictKeeps (P : State → Prop) (t : State) (v : Verdict) : Prop := ∀ e, P t → P (v.act (emit e t))

section
variable {P : State → Prop} (h : StepClosed P)
include h

theorem StepClosed.plain (t : State) (o : Status) (d : Nat) : VerdictKeeps P t (.plain o d) := fun e hs => h.emit t e hs

theorem StepClosed.acts {t : State} {v : Verdict} (ha : ∀ s, P s → P (v.act s)) : VerdictKeeps P t v :=
  fun e hs => ha _ (h.emit t e hs)

theorem StepClosed.decideSetRoute (r v : Nat) (t : State) : VerdictKeeps P t (decideSetRoute r v t) := by
  unfold Machine.decideSetRoute
  split
  · exact h.plain _ _ _
  · next d hd =>
    split
    · exact h.plain _ _ _
    · split
      · split
        · exact h.acts (fun _ => h.reRequest _)
        · exact h.plain _ _ _
      · next hr =>
        unfold Machine.decideNewRoute
        split
        · exact h.plain _ _ _
        · next hc =>
          split
          · exact h.plain _ _ _
          · intro e hs
            have hid : d.id = r := by have := List.find?_some hd; simpa using this
            have hlt : t.routes.length < 32 := by
              have h0 : checkSignal t d = none := by
                cases h0 : checkSignal t d with
                | none => rfl
                | some _ => rw [h0] at hc; simp at hc
              unfold checkSignal at h0
              repeat' split at h0
              all_goals try cases h0
              next h1 => have : Config.maxActiveRoutes = 32 := rfl
                         omega
            refine h.enterCalling _ _ _ _ hlt ?_ (h.emit t e hs)
            intro a ha hida
            have := List.find?_eq_none.1 hr a ha
            simp [hida, hid] at this

theorem StepClosed.decideCancel (r : Nat) (t : State) : VerdictKeeps P t (decideCancel r t) := by
  unfold Machine.decideCancel
  split
  · exact h.plain _ _ _
  · split
    · exact h.plain _ _ _
    · next a _ =>
      have h1 := h.acts (t := t) (v := { out := .done, detail := 0, act := Machine.releaseAtOnce a })
        (fun _ => h.releaseAtOnce a)
      have h2 := h.acts (t := t) (v := { out := .done, detail := 0, act := Machine.enterApproachHeld a })
        (fun _ => h.enterApproachHeld a)
      split
      · exact h1
      · split
        · exact h1
        · exact h2
      · split
        · exact h1
        · exact h2
      all_goals exact h.plain _ _ _

theorem StepClosed.decideEmergency (r : Nat) (t : State) : VerdictKeeps P t (decideEmergency r t) := by
  unfold Machine.decideEmergency
  split
  · exact h.plain _ _ _
  · split
    · exact h.plain _ _ _
    · next a _ =>
      have h1 := h.acts (t := t) (v := { out := .done, detail := 0, act := Machine.enterEmergencyTiming a })
        (fun _ => h.enterEmergencyTiming a)
      split
      iterate 3 exact h1
      all_goals exact h.plain _ _ _

theorem StepClosed.decideApproachSpeed (r n : Nat) (t : State) : VerdictKeeps P t (decideApproachSpeed r n t) := by
  unfold Machine.decideApproachSpeed; split
  · exact h.plain _ _ _
  · exact h.acts (fun _ hs => h.speeds _ _ hs)

theorem StepClosed.decideMovePoint (id : Nat) (p : Pos) (t : State) : VerdictKeeps P t (decideMovePoint id p t) := by
  unfold Machine.decideMovePoint; repeat' split
  all_goals first | exact h.plain _ _ _ | exact h.acts (fun _ hs => h.settleCall _ (h.issueCall _ _ hs))

theorem StepClosed.decideMove (ch : Channel) (hi lo b : Byte) (t : State) :
    VerdictKeeps P t (Machine.decide ch .movePoint [hi, lo, b] t) := by
  show VerdictKeeps P t (match posOf b with
    | some q => Machine.decideMovePoint (num2 hi lo) q t
    | none => .plain .badValue 0)
  split
  · exact h.decideMovePoint _ _ _
  · exact h.plain _ _ _

theorem StepClosed.decideBlock (id : Nat) (b : Bool) (t : State) : VerdictKeeps P t (decideBlock id b t) := by
  unfold Machine.decideBlock; split
  · exact h.acts (fun _ => h.setBlock _ _)
  · exact h.plain _ _ _

theorem StepClosed.decideMask (id : Nat) (b : Bool) (t : State) : VerdictKeeps P t (decideMask id b t) := by
  unfold Machine.decideMask; split
  · exact h.acts (fun _ => h.setMask _ _)
  · exact h.plain _ _ _

theorem StepClosed.decideRestore (id : Nat) (t : State) : VerdictKeeps P t (decideRestore id t) := by
  unfold Machine.decideRestore; split
  · exact h.plain _ _ _
  · split
    · exact h.acts (fun _ => h.restoreElement _)
    · exact h.plain _ _ _

theorem StepClosed.decideRequestPermit (ref : SlotRef) (t : State) : VerdictKeeps P t (decideRequestPermit ref t) := by
  unfold Machine.decideRequestPermit; repeat' split
  all_goals first | exact h.plain _ _ _ | exact h.acts (fun _ hs => h.permitTo (fun _ => rfl) hs)

theorem StepClosed.decideSlotBlock (ref : SlotRef) (b : Bool) (t : State) : VerdictKeeps P t (decideSlotBlock ref b t) := by
  unfold Machine.decideSlotBlock; split
  · exact h.plain _ _ _
  · exact h.acts (fun _ => h.setSlotBlock _ _)

theorem StepClosed.decideRestoreSlot (ref : SlotRef) (b : Bool) (t : State) : VerdictKeeps P t (decideRestoreSlot ref b t) := by
  unfold Machine.decideRestoreSlot
  split
  · exact h.plain _ _ _
  · split
    · exact h.plain _ _ _
    · split
      · exact h.acts (fun _ hs => h.retest _ (h.permitTo (fun _ => rfl) hs))
      · split
        · exact h.acts (fun _ => h.permitHere _ _ SlotStep.settled)
        · exact h.plain _ _ _

theorem StepClosed.decideReleaseReservation (ref : SlotRef) (t : State) : VerdictKeeps P t (decideReleaseReservation ref t) := by
  unfold Machine.decideReleaseReservation; repeat' split
  all_goals first | exact h.plain _ _ _ | exact h.acts (fun _ hs => h.emit _ _ (h.stepSlot (fun _ => rfl) hs))

theorem StepClosed.decideLinkTest (l : Nat) (p : List Byte) (n : Nat) (t : State) : VerdictKeeps P t (decideLinkTest l p n t) := by
  unfold Machine.decideLinkTest; repeat' split
  all_goals first | exact h.plain _ _ _ | exact h.acts (fun _ => h.startTest _ _ _)

theorem StepClosed.decideSetParameter (id v : Nat) (t : State) : VerdictKeeps P t (decideSetParameter id v t) := by
  unfold Machine.decideSetParameter; repeat' split
  all_goals first | exact h.plain _ _ _ | exact h.acts (fun s hs => h.dev (s := s) rfl hs)

theorem StepClosed.decideAccept (n : Nat) (t : State) : VerdictKeeps P t (decideAccept n t) := by
  unfold Machine.decideAccept; repeat' split
  all_goals first | exact h.plain _ _ _ | exact h.acts (fun _ => h.enterService)

/-- The owners of all the kinds. -/
theorem StepClosed.decide (ch : Channel) (k : ReqKind) (body : List Byte) (t : State) :
    VerdictKeeps P t (decide ch k body t) := by
  cases k
  case setRoute =>
    rcases body with _ | ⟨_, _ | ⟨_, _ | ⟨_, _⟩⟩⟩
    · exact h.plain _ _ _
    · exact h.plain _ _ _
    · exact h.decideSetRoute _ _ _
    · exact h.plain _ _ _
  case cancelRoute =>
    rcases body with _ | ⟨_, _ | ⟨_, _⟩⟩
    · exact h.plain _ _ _
    · exact h.decideCancel _ _
    · exact h.plain _ _ _
  case emergencyRelease =>
    rcases body with _ | ⟨_, _ | ⟨_, _⟩⟩
    · exact h.plain _ _ _
    · exact h.decideEmergency _ _
    · exact h.plain _ _ _
  case setApproachSpeed =>
    rcases body with _ | ⟨_, _ | ⟨_, _ | ⟨_, _⟩⟩⟩
    · exact h.plain _ _ _
    · exact h.plain _ _ _
    · exact h.decideApproachSpeed _ _ _
    · exact h.plain _ _ _
  case movePoint =>
    rcases body with _ | ⟨_, _ | ⟨_, _ | ⟨_, _ | ⟨_, _⟩⟩⟩⟩
    · exact h.plain _ _ _
    · exact h.plain _ _ _
    · exact h.plain _ _ _
    · exact h.decideMove _ _ _ _ _
    · exact h.plain _ _ _
  case blockElement =>
    rcases body with _ | ⟨_, _ | ⟨_, _ | ⟨_, _⟩⟩⟩
    · exact h.plain _ _ _
    · exact h.plain _ _ _
    · exact h.decideBlock _ _ _
    · exact h.plain _ _ _
  case unblockElement =>
    rcases body with _ | ⟨_, _ | ⟨_, _ | ⟨_, _⟩⟩⟩
    · exact h.plain _ _ _
    · exact h.plain _ _ _
    · exact h.decideBlock _ _ _
    · exact h.plain _ _ _
  case inhibitSet =>
    rcases body with _ | ⟨_, _ | ⟨_, _ | ⟨_, _⟩⟩⟩
    · exact h.plain _ _ _
    · exact h.plain _ _ _
    · exact h.decideMask _ _ _
    · exact h.plain _ _ _
  case inhibitClear =>
    rcases body with _ | ⟨_, _ | ⟨_, _ | ⟨_, _⟩⟩⟩
    · exact h.plain _ _ _
    · exact h.plain _ _ _
    · exact h.decideMask _ _ _
    · exact h.plain _ _ _
  case elementRestore =>
    rcases body with _ | ⟨_, _ | ⟨_, _ | ⟨_, _⟩⟩⟩
    · exact h.plain _ _ _
    · exact h.plain _ _ _
    · exact h.decideRestore _ _
    · exact h.plain _ _ _
  case requestPermit =>
    rcases body with _ | ⟨_, _ | ⟨_, _ | ⟨_, _⟩⟩⟩
    · exact h.plain _ _ _
    · exact h.plain _ _ _
    · exact h.decideRequestPermit _ _
    · exact h.plain _ _ _
  case blockSlot =>
    rcases body with _ | ⟨_, _ | ⟨_, _ | ⟨_, _⟩⟩⟩
    · exact h.plain _ _ _
    · exact h.plain _ _ _
    · exact h.decideSlotBlock _ _ _
    · exact h.plain _ _ _
  case unblockSlot =>
    rcases body with _ | ⟨_, _ | ⟨_, _ | ⟨_, _⟩⟩⟩
    · exact h.plain _ _ _
    · exact h.plain _ _ _
    · exact h.decideSlotBlock _ _ _
    · exact h.plain _ _ _
  case restoreSlot =>
    rcases body with _ | ⟨_, _ | ⟨_, _ | ⟨_, _ | ⟨_, _⟩⟩⟩⟩
    · exact h.plain _ _ _
    · exact h.plain _ _ _
    · exact h.plain _ _ _
    · exact h.decideRestoreSlot _ _ _
    · exact h.plain _ _ _
  case releaseReservation =>
    rcases body with _ | ⟨_, _ | ⟨_, _ | ⟨_, _⟩⟩⟩
    · exact h.plain _ _ _
    · exact h.plain _ _ _
    · exact h.decideReleaseReservation _ _
    · exact h.plain _ _ _
  case setParameter =>
    rcases body with _ | ⟨_, _ | ⟨_, _ | ⟨_, _ | ⟨_, _⟩⟩⟩⟩
    · exact h.plain _ _ _
    · exact h.plain _ _ _
    · exact h.plain _ _ _
    · exact h.decideSetParameter _ _ _
    · exact h.plain _ _ _
  case applyParameters =>
    rcases body with _ | ⟨_, _⟩
    · exact h.acts (fun _ => h.applyParams)
    · exact h.plain _ _ _
  case acceptConfiguration =>
    rcases body with _ | ⟨_, _ | ⟨_, _ | ⟨_, _ | ⟨_, _ | ⟨_, _⟩⟩⟩⟩⟩
    · exact h.plain _ _ _
    · exact h.plain _ _ _
    · exact h.plain _ _ _
    · exact h.plain _ _ _
    · exact h.decideAccept _ _
    · exact h.plain _ _ _
  case deviceReset =>
    rcases body with _ | ⟨_, _⟩
    · exact h.acts (fun _ => h.deviceReset _)
    · exact h.plain _ _ _
  case linkTest =>
    rcases body with _ | ⟨_, _⟩
    · exact h.plain _ _ _
    · exact h.decideLinkTest _ _ _ _
  all_goals exact h.plain _ _ _

/-! ## Answers -/

theorem StepClosed.pick {s : State} (n : Nat) (hs : P s) : P (s.pick n).2 := by rw [pick_eq]; exact h.choice _ _ _ hs

theorem StepClosed.disagree {s : State} (x : HalfRequest) (k : ReqKind) (hs : P s) : P (disagree x k s) := by
  have h1 : P (Machine.removeHalf x.tag { s with disagreements := min 65535 (s.disagreements + 1) }) :=
    h.removeHalf _ (h.count s _ hs)
  unfold Machine.disagree; dsimp only; split
  · exact h.emit _ _ h1
  · exact h.emit _ _ (h.pick 2 h1)

theorem StepClosed.takeHalf {s : State} (ch : Channel) (k : ReqKind) (tag : Byte) (body : List Byte) (hs : P s) :
    P (takeHalf ch k tag body s).after := by
  unfold Machine.takeHalf
  split
  · exact hs
  · split
    · exact hs
    · split
      · next hn =>
        unfold Machine.openHalf
        split
        · exact hs
        · split
          · exact hs
          · next hl =>
            refine h.half s _ ?_ ?_ hs
            · have : Config.maxHalves = 16 := rfl
              omega
            · intro y hy e
              have := List.find?_eq_none.1 hn y hy
              simp [newHalf] at e
              simp [e] at this
      · split
        · exact hs
        · split
          · show P ((Machine.decide ch k body (Machine.removeHalf tag s)).act
              (emit _ (Machine.removeHalf tag s)))
            exact h.decide ch k body _ _ (h.removeHalf tag hs)
          · exact h.disagree _ _ hs

theorem StepClosed.answerPause {s : State} (ch : Channel) (hs : P s) : P (answerPause ch s).after := by
  unfold Machine.answerPause; repeat' split
  all_goals first | exact hs | exact h.enterPaused _ hs

theorem StepClosed.answerResume {s : State} (ch : Channel) (hs : P s) : P (answerResume ch s).after := by
  unfold Machine.answerResume; repeat' split
  all_goals first | exact hs | exact h.leavePaused _ hs

theorem StepClosed.answer {s : State} (ch : Channel) (k : ReqKind) (body : List Byte) (hs : P s) :
    P (answer ch k body s).after := by
  have hread : ∀ b o, P (Machine.readAnswer b o s).after := by
    intro b o; unfold Machine.readAnswer; split <;> exact hs
  cases k
  case reportFieldStatus => exact h.applyItems _ _ _ _ hs
  case readElement =>
    rcases body with _ | ⟨_, _ | ⟨_, _ | ⟨_, _⟩⟩⟩
    · exact hs
    · exact hs
    · exact hread _ _
    · exact hs
  case readRoute =>
    rcases body with _ | ⟨_, _ | ⟨_, _⟩⟩
    · exact hs
    · exact hread _ _
    · exact hs
  case readRoutes =>
    rcases body with _ | ⟨_, _⟩
    · exact hs
    · exact hs
  case readSlot =>
    rcases body with _ | ⟨_, _ | ⟨_, _ | ⟨_, _⟩⟩⟩
    · exact hs
    · exact hs
    · exact hread _ _
    · exact hs
  case readLink =>
    rcases body with _ | ⟨_, _ | ⟨_, _⟩⟩
    · exact hs
    · exact hread _ _
    · exact hs
  case readParameters =>
    rcases body with _ | ⟨_, _⟩
    · exact hread _ _
    · exact hs
  case readStatus =>
    rcases body with _ | ⟨_, _⟩
    · exact hs
    · exact hs
  case readEvents =>
    rcases body with _ | ⟨_, _ | ⟨_, _⟩⟩
    · exact hs
    · exact h.port _ _ _ hs
    · exact hs
  case pause =>
    rcases body with _ | ⟨_, _⟩
    · exact h.answerPause _ hs
    · exact hs
  case resume =>
    rcases body with _ | ⟨_, _⟩
    · exact h.answerResume _ hs
    · exact hs
  all_goals exact hs

theorem StepClosed.respond {s : State} (ch : Channel) (st : Status) (tag : Byte) (body : List Byte) (hs : P s) :
    P (respond ch st tag body s) := h.port _ _ _ hs

theorem StepClosed.decideFrame {s : State} (ch : Channel) (k : ReqKind) (tag : Byte) (body : List Byte) (hs : P s) :
    P (decideFrame ch k tag body s) := by
  unfold Machine.decideFrame
  split
  · exact h.respond _ _ _ _ (h.port _ _ _ hs)
  · split
    · refine h.respond _ _ _ _ ?_
      have h1 : P (Machine.frameArrives ch s) := h.frameArrives _ hs
      unfold Machine.answerValid
      split
      · exact h1
      · split
        · exact h1
        · split
          · exact h.takeHalf _ _ _ _ h1
          · exact h.answer _ _ _ h1
    · exact h.respond _ _ _ _ hs

theorem StepClosed.request {s : State} (f : RequestFrame) (hs : P s) : P (request f.ch f.kind f.tag f.body s) := by
  unfold Machine.request; split
  · exact hs
  · exact h.decideFrame _ _ _ _ (h.port _ _ _ hs)

theorem StepClosed.rawFrame {s : State} (ch : Channel) (bytes : List Byte) (hs : P s) : P (rawFrame ch bytes s) := by
  have ho : ∀ ph bs, P (Machine.openTransfer ch ph bs s) := fun _ _ => h.port _ _ _ hs
  unfold Machine.rawFrame
  split
  · exact hs
  · split
    · exact ho _ _
    · dsimp only
      unfold Machine.decideRaw badFrameReply
      dsimp only
      split
      · exact h.respond _ _ _ _ (h.port _ _ _ (ho _ _))
      · split
        · exact h.respond _ _ _ _ (h.port _ _ _ (ho _ _))
        · split
          · exact h.respond _ _ _ _ (ho _ _)
          · exact h.decideFrame _ _ _ _ (ho _ _)

theorem StepClosed.responseEnds {s : State} (ch : Channel) (hs : P s) : P (responseEnds ch s) := by
  unfold Machine.responseEnds
  split
  · exact hs
  · refine h.drain _ _ _ ?_ ?_ (h.port _ _ _ hs)
    · rw [State.setPort_queue]; simp
    · rw [State.setPort_queue]

/-! ## Commands -/

/-- Every command but DRST asserted and the end of the image read keeps `P`. -/
theorem StepClosed.exec {c : Instr} {s t : State} (h1 : c ≠ .drstAsserted) (h2 : ∀ bs, c ≠ .imageReadComplete bs)
    (e : exec c s = .next t) (hs : P s) : P t := by
  rcases hf : requestOf c with _ | f
  · cases c <;> first | exact False.elim (h1 rfl) | exact False.elim (h2 _ rfl) | (cases hf; done) | skip
    all_goals
      injection e with e
      subst e
    · exact h.rawFrame _ _ hs
    · unfold Machine.selectRises; split
      · exact hs
      · exact h.port _ _ _ hs
    · exact h.responseEnds _ hs
    · exact h.channelReset _ hs
    · exact h.chan _ _ _ hs
    · exact h.releaseDrst hs
    · exact h.clearanceExpired _ hs
    · exact h.sectionDiscExpired _ hs
    · exact h.pointDiscExpired _ hs
    · exact h.signalDiscExpired _ hs
    · exact h.moveExpired _ hs
    · exact h.windowExpired _ hs
    · exact h.channelSupervisionExpired _ hs
    · exact h.pauseLimitExpired _ hs
    · exact h.settingExpired _ hs
    · exact h.overlapExpired _ hs
    · exact h.releaseExpired _ hs
    · exact h.watchExpired _ hs
    · exact h.linkSendExpired _ hs
    · exact h.trainingExpired _ hs
    · exact h.supervisionExpired _ hs
    · exact h.answerExpired _ hs
    · exact h.echoExpired _ hs
    · exact h.takeRun _ _ hs
    · exact h.takeRun _ _ hs
    · exact h.takeRun _ _ hs
    · exact h.takeRun _ _ hs
    · exact h.takeRun _ _ hs
    · exact h.reconExpired _ hs
    · exact h.transferExpired _ hs
    · exact h.acceptExpired _ hs
    · exact h.transitExpired _ hs
    · exact h.reserveExpired _ hs
    · exact h.imageCheckExpired hs
    · exact h.toggleHealth hs
    · exact h.takeRun _ _ hs
    · exact h.tick hs
  · rw [exec_request hf] at e
    injection e with e
    subst e
    exact h.request f hs

end

end Sys2Proof.Machine
end

