-- ==== Sys2Proof/Laws/Image.lean ====
section
/-!
SUPPORT. The image validation (R163): what each check finds, and that checks 3 to 12 together pass exactly on a sound image
(`Image.Sound`).
-/

namespace Sys2Proof.Machine

theorem firstBad_none {α : Type} {ok : α → Bool} {name : α → FailItem × Nat} {xs : List α} :
    firstBad ok name xs = none ↔ ∀ x ∈ xs, ok x = true := by simp [firstBad]

theorem firstRecord_none {item : FailItem} {oks : List Bool} : firstRecord item oks = none ↔ ∀ b ∈ oks, b = true := by
  simp [firstRecord, List.findIdx?_eq_none_iff]

theorem distinct_iff {xs : List Nat} : distinct xs = true ↔ xs.Nodup := by
  induction xs with
  | nil => simp [distinct]
  | cons x xs ih => simp [distinct, ih]

theorem disjoint_iff {xs ys : List Nat} : disjoint xs ys = true ↔ ∀ x ∈ xs, x ∉ ys := by simp [disjoint]

theorem isKind_iff {m : Image} {k id : Nat} : isKind m k id = true ↔ m.Has k id := by
  simp [isKind, Image.Has]

theorem zipIdx_forall {α : Type} {p : α → Nat → Prop} (xs : List α) :
    (∀ q ∈ xs.zipIdx, p q.1 q.2) ↔ ∀ (i : Nat) (h : i < xs.length), p xs[i] i := by
  simp only [Prod.forall, List.mk_mem_zipIdx_iff_getElem?, List.getElem?_eq_some_iff]
  constructor
  · intro h i hi; exact h _ _ ⟨hi, rfl⟩
  · rintro h a b ⟨hi, rfl⟩; exact h b hi

theorem fresh_iff {α : Type} {key : α → Nat} {xs : List α} :
    (∀ q ∈ xs.zipIdx, fresh key xs q.2 q.1 = true) ↔ (xs.map key).Nodup := by
  rw [zipIdx_forall (p := fun x i => fresh key xs i x = true), List.Nodup, List.pairwise_iff_getElem]
  constructor
  · intro h i j hi hj hij
    simp only [List.length_map] at hi hj
    have := h j hj
    simp only [fresh, List.all_eq_true, bne_iff_ne, ne_eq] at this
    simp only [List.getElem_map]
    exact this xs[i] (List.mem_take_iff_getElem.2 ⟨i, by omega, rfl⟩)
  · intro h j hj
    simp only [fresh, List.all_eq_true, bne_iff_ne, ne_eq]
    intro y hy
    obtain ⟨i, hi, rfl⟩ := List.mem_take_iff_getElem.1 hy
    have := h i j (by simp; omega) (by simpa using hj) (by omega)
    simpa using this

theorem perRecord_all {m : Image} {e r f s l} : (∀ b ∈ perRecord m e r f s l, b = true) ↔
    (∀ q ∈ m.elems.zipIdx, e q = true) ∧ (∀ q ∈ m.routes.zipIdx, r q = true) ∧ (∀ q ∈ m.flanks.zipIdx, f q = true)
      ∧ (∀ q ∈ m.slots.zipIdx, s q = true) ∧ (∀ q ∈ m.links.zipIdx, l q = true) := by
  simp only [perRecord, List.mem_append, List.mem_map, or_imp, forall_and, forall_exists_index, and_imp,
    forall_apply_eq_imp_iff₂, and_assoc]

theorem mem_zipIdx_all {α : Type} {p : α → Prop} {xs : List α} : (∀ q ∈ xs.zipIdx, p q.1) ↔ ∀ x ∈ xs, p x := by
  constructor
  · intro h x hx
    obtain ⟨i, hi, rfl⟩ := List.mem_iff_getElem.1 hx
    exact h (xs[i], i) (by simp [List.mk_mem_zipIdx_iff_getElem?, hi])
  · intro h q hq
    exact h _ (List.fst_mem_of_mem_zipIdx hq)

theorem or_none {a b : CheckResult} : a.or b = none ↔ a = none ∧ b = none := by cases a <;> simp

theorem last_of_kind {k : Nat} (xs : List ImgElem) (h : xs.filter (fun x => x.kind == k) ≠ []) :
    ∃ (i : Nat) (hi : i < xs.length), xs[i].kind = k
      ∧ (xs.take (i + 1)).filter (fun x => x.kind == k) = xs.filter (fun x => x.kind == k) := by
  induction xs using List.reverseRecOn with
  | nil => simp at h
  | append_singleton xs x ih =>
    by_cases hx : x.kind = k
    · exact ⟨xs.length, by simp, by simp [hx], by rw [List.take_of_length_le (by simp)]⟩
    · have e : (xs ++ [x]).filter (fun x => x.kind == k) = xs.filter (fun x => x.kind == k) := by simp [hx]
      rw [e] at h ⊢
      obtain ⟨i, hi, h1, h2⟩ := ih h
      refine ⟨i, by simp; omega, by rw [List.getElem_append_left hi]; exact h1, ?_⟩
      rw [List.take_append_of_le_length (by omega), h2]

theorem kindCount_iff {m : Image} {k n : Nat} :
    (∀ q ∈ m.elems.zipIdx, q.1.kind = k → kindCount m k q.2 ≤ n) ↔ (m.elems.filter (fun x => x.kind == k)).length ≤ n := by
  refine (zipIdx_forall (p := fun (x : ImgElem) i => x.kind = k → kindCount m k i ≤ n) m.elems).trans ?_
  constructor
  · intro h
    by_cases e : m.elems.filter (fun x => x.kind == k) = []
    · simp [e]
    · obtain ⟨i, hi, h1, h2⟩ := last_of_kind _ e
      have := h i hi h1
      rwa [kindCount, h2] at this
  · intro h i hi _
    exact Nat.le_trans (List.Sublist.length_le (List.Sublist.filter _ (List.take_sublist _ _))) h

theorem fresh_ref_iff {xs : List ImgSlot} (h : ∀ x ∈ xs, x.ref.idx < 256) :
    (xs.map (fun y => y.ref.link * 256 + y.ref.idx)).Nodup ↔ (xs.map (·.ref)).Nodup := by
  simp only [List.Nodup, List.pairwise_map]
  refine ⟨fun hp => hp.imp fun hab e => hab (by rw [e]), fun hp => ?_⟩
  refine List.Pairwise.imp_of_mem ?_ hp
  intro a b ha hb hab e
  have := h a ha; have := h b hb
  apply hab
  cases ea : a.ref; cases eb : b.ref
  simp only [ea, eb, SlotRef.mk.injEq] at *
  omega

theorem fresh_flank_iff {xs : List ImgFlank} (h : ∀ x ∈ xs, x.index < 256) :
    (xs.map (fun y => y.route * 256 + y.index)).Nodup ↔ (xs.map (fun y => (y.route, y.index))).Nodup := by
  simp only [List.Nodup, List.pairwise_map]
  refine ⟨fun hp => hp.imp fun hab e => hab (by simp only [Prod.mk.injEq] at e; rw [e.1, e.2]), fun hp => ?_⟩
  refine List.Pairwise.imp_of_mem ?_ hp
  intro a b ha hb hab e
  have := h a ha; have := h b hb
  apply hab
  simp only [Prod.mk.injEq]
  omega

theorem find?_key {α : Type} {key : α → Nat} {xs : List α} (hn : (xs.map key).Nodup) {x : α} (hx : x ∈ xs) :
    xs.find? (fun y => key y == key x) = some x := by
  induction xs with
  | nil => cases hx
  | cons y ys ih =>
    simp only [List.map_cons, List.nodup_cons] at hn
    rcases List.mem_cons.1 hx with rfl | hx
    · simp
    · have : key y ≠ key x := fun e => hn.1 (e ▸ List.mem_map_of_mem hx)
      rw [List.find?_cons, beq_false_of_ne this]; exact ih hn.2 hx

theorem refOf_mem {m : Image} (hn : (m.elems.map (·.id)).Nodup) {x : ImgElem} (hx : x ∈ m.elems) : refOf m x.id = x.ref := by
  unfold refOf; rw [find?_key (key := ImgElem.id) hn hx]

theorem has_ref {m : Image} (hn : (m.elems.map (·.id)).Nodup) {k id : Nat} {p : Nat → Prop} :
    (m.Has k id ∧ p (refOf m id)) ↔ ∃ x ∈ m.elems, x.id = id ∧ x.kind = k ∧ p x.ref := by
  constructor
  · rintro ⟨⟨x, hx, rfl, hk⟩, hp⟩
    rw [refOf_mem hn hx] at hp
    exact ⟨x, hx, rfl, hk, hp⟩
  · rintro ⟨x, hx, rfl, hk, hp⟩
    exact ⟨⟨x, hx, rfl, hk⟩, by rw [refOf_mem hn hx]; exact hp⟩

theorem pointsIn_iff {m : Image} (hn : (m.elems.map (·.id)).Nodup) {secs : List Nat} {ps : List ImgPoint} :
    m.PointsIn secs ps ↔ pointsWithin m secs ps = true ∧ ∀ p ∈ ps, (p.2 = 1 ∨ p.2 = 2) ∧ m.Has 2 p.1 := by
  unfold Image.PointsIn pointsWithin
  simp only [← has_ref hn (p := fun r => r ∈ secs), Bool.and_eq_true, List.all_eq_true, List.contains_iff_mem, distinct_iff]
  constructor
  · rintro ⟨h1, h2⟩; exact ⟨⟨fun p hp => (h2 p hp).2.2, h1⟩, fun p hp => ⟨(h2 p hp).1, (h2 p hp).2.1⟩⟩
  · rintro ⟨⟨h1, h2⟩, h3⟩; exact ⟨h2, fun p hp => ⟨(h3 p hp).1, (h3 p hp).2, h1 p hp⟩⟩

theorem checkParts_none {m : Image} : checkParts m = none ↔
    (m.header.format = 1 ∧ 1 ≤ m.header.area ∧ m.header.area ≤ 65534 ∧ m.header.length = lengthFor m.header)
    ∧ checkRange m = none ∧ checkKind m = none ∧ checkRoute m = none ∧ checkGuard m = none ∧ checkSlot m = none
    ∧ checkLink m = none ∧ checkTime m = none ∧ checkClass m = none ∧ checkParams m = none := by
  unfold checkParts
  split
  · next h => simp; omega
  · next h =>
    simp only [or_none]
    exact ⟨fun g => ⟨by omega, g⟩, fun g => g.2⟩

theorem params_iff {ps : List Nat} (hl : ps.length = 16) :
    firstBad (fun q : (Nat × (Nat × Nat)) × Nat => q.1.2.1 ≤ q.1.1 && q.1.1 ≤ q.1.2.2) (fun q => (.parameter, q.2 + 1))
      (ps.zip Config.paramRanges).zipIdx = none ↔ List.Forall₂ (fun v r => r.1 ≤ v ∧ v ≤ r.2) ps Config.paramRanges := by
  rw [firstBad_none, List.forall₂_iff_zip]
  refine (mem_zipIdx_all (p := fun q : Nat × (Nat × Nat) => (q.2.1 ≤ q.1 && q.1 ≤ q.2.2 : Bool) = true)).trans ?_
  simp [hl, Config.paramRanges]

theorem zipIdx_and {α : Type} {p : α → Prop} {r : α × Nat → Prop} {xs : List α} :
    (∀ q ∈ xs.zipIdx, p q.1 ∧ r q) ↔ (∀ x ∈ xs, p x) ∧ ∀ q ∈ xs.zipIdx, r q := by
  rw [← mem_zipIdx_all (p := p)]
  exact ⟨fun h => ⟨fun q hq => (h q hq).1, fun q hq => (h q hq).2⟩, fun h q hq => ⟨h.1 q hq, h.2 q hq⟩⟩

theorem range_iff {α : Type} {key : α → Nat} {p : α → Prop} {g : α × Nat → Bool} {xs : List α}
    (h : ∀ q, g q = true ↔ p q.1 ∧ fresh key xs q.2 q.1 = true) :
    (∀ q ∈ xs.zipIdx, g q = true) ↔ (∀ x ∈ xs, p x) ∧ (xs.map key).Nodup := by
  simp only [h, zipIdx_and, fresh_iff]

theorem elemRange_iff {m : Image} : (∀ q ∈ m.elems.zipIdx, elemRange m q = true) ↔
    (∀ x ∈ m.elems, x.id < 512 ∧ 1 ≤ x.kind ∧ x.kind ≤ 3 ∧ (x.kind = 1 ∨ x.ref < 512)) ∧ (m.elems.map (·.id)).Nodup
      ∧ (m.elems.filter (fun x => x.kind == 2)).length ≤ 128 ∧ (m.elems.filter (fun x => x.kind == 3)).length ≤ 160 := by
  have e : ∀ q, elemRange m q = true ↔ (q.1.id < 512 ∧ 1 ≤ q.1.kind ∧ q.1.kind ≤ 3 ∧ (q.1.kind = 1 ∨ q.1.ref < 512))
      ∧ fresh (·.id) m.elems q.2 q.1 = true ∧ (q.1.kind = 2 → kindCount m 2 q.2 ≤ 128)
        ∧ (q.1.kind = 3 → kindCount m 3 q.2 ≤ 160) := by
    intro q
    simp only [elemRange, Bool.and_eq_true, decide_eq_true_eq, Bool.or_eq_true, beq_iff_eq, bne_iff_ne, ne_eq,
      ← imp_iff_not_or, and_assoc]
  simp only [e, zipIdx_and (p := fun x : ImgElem => x.id < 512 ∧ 1 ≤ x.kind ∧ x.kind ≤ 3 ∧ (x.kind = 1 ∨ x.ref < 512))]
  rw [← fresh_iff, ← kindCount_iff, ← kindCount_iff]
  exact ⟨fun h => ⟨h.1, fun q hq => (h.2 q hq).1, fun q hq => (h.2 q hq).2.1, fun q hq => (h.2 q hq).2.2⟩,
    fun h => ⟨h.1, fun q hq => ⟨h.2.1 q hq, h.2.2.1 q hq, h.2.2.2 q hq⟩⟩⟩

/-- What check 4 asks of one route. -/
def RouteRange (r : ImgRoute) : Prop := r.entry < 512 ∧ exitRange r = true ∧ (∀ i ∈ r.secs, i < 512) ∧ r.nPoints ≤ 16
      ∧ imgPointsOk r.points = true ∧ (∀ v ∈ r.variants, (∀ i ∈ v.secs, i < 512) ∧ imgPointsOk v.points = true)
      ∧ r.nFlanks ≤ 12 ∧ (∀ i ∈ r.approach, i < 512) ∧ r.brake < 8 ∧ (r.mode = 1 ∨ r.mode = 2)

theorem routeRange_iff {m : Image} : (∀ q ∈ m.routes.zipIdx, routeRange m q = true) ↔
    (∀ r ∈ m.routes, RouteRange r) ∧ (m.routes.map (·.id)).Nodup := by
  refine range_iff (key := ImgRoute.id) fun q => ?_
  simp only [routeRange, Bool.and_eq_true, decide_eq_true_eq, Bool.or_eq_true, beq_iff_eq, and_assoc, List.all_eq_true,
    RouteRange]
  tauto

theorem flankRange_iff {m : Image} : (∀ q ∈ m.flanks.zipIdx, flankRange q = true) ↔
    (∀ f ∈ m.flanks, ∀ o ∈ f.options, optionRange o = true) ∧ m.flanks.length ≤ 3072 := by
  have e : ∀ q, flankRange q = true ↔ (∀ o ∈ q.1.options, optionRange o = true) ∧ q.2 < 3072 := by
    intro q; simp only [flankRange, Bool.and_eq_true, decide_eq_true_eq, List.all_eq_true, and_comm]
  simp only [e, zipIdx_and (p := fun f : ImgFlank => ∀ o ∈ f.options, optionRange o = true)]
  refine and_congr_right fun _ => (zipIdx_forall (p := fun (_ : ImgFlank) i => i < 3072) m.flanks).trans ?_
  constructor
  · intro h; by_contra hc; have := h 3072 (by omega); omega
  · intro h i hi; omega

theorem slotRange_iff {m : Image} : (∀ q ∈ m.slots.zipIdx, slotRange m q = true) ↔
    (∀ x ∈ m.slots, x.ref.link < 4 ∧ x.ref.idx < 8 ∧ x.bsec < 512 ∧ 1 ≤ x.cap ∧ x.cap ≤ 3 ∧ (x.holder = 1 ∨ x.holder = 2))
      ∧ (m.slots.map (·.ref)).Nodup := by
  refine (range_iff (key := fun y : ImgSlot => y.ref.link * 256 + y.ref.idx) (p := fun x => x.ref.link < 4
    ∧ x.ref.idx < 8 ∧ x.bsec < 512 ∧ 1 ≤ x.cap ∧ x.cap ≤ 3 ∧ (x.holder = 1 ∨ x.holder = 2)) fun q => ?_).trans ?_
  · simp only [slotRange, Bool.and_eq_true, decide_eq_true_eq, Bool.or_eq_true, beq_iff_eq]
    tauto
  refine and_congr_right fun h => fresh_ref_iff fun x hx => ?_
  have := (h x hx).2.1; omega

theorem linkRange_iff {m : Image} : (∀ q ∈ m.links.zipIdx, linkRange m q = true) ↔
    (∀ x ∈ m.links, x.id < 4) ∧ (m.links.map (·.id)).Nodup := by
  refine range_iff (key := ImgLink.id) (p := fun x => x.id < 4) fun q => ?_
  simp only [linkRange, Bool.and_eq_true, decide_eq_true_eq]

theorem checkRange_none {m : Image} : checkRange m = none ↔
    ((∀ x ∈ m.elems, x.id < 512 ∧ 1 ≤ x.kind ∧ x.kind ≤ 3 ∧ (x.kind = 1 ∨ x.ref < 512)) ∧ (m.elems.map (·.id)).Nodup
      ∧ (m.elems.filter (fun x => x.kind == 2)).length ≤ 128 ∧ (m.elems.filter (fun x => x.kind == 3)).length ≤ 160)
    ∧ ((∀ r ∈ m.routes, RouteRange r) ∧ (m.routes.map (·.id)).Nodup)
    ∧ ((∀ f ∈ m.flanks, ∀ o ∈ f.options, optionRange o = true) ∧ m.flanks.length ≤ 3072)
    ∧ ((∀ x ∈ m.slots, x.ref.link < 4 ∧ x.ref.idx < 8 ∧ x.bsec < 512 ∧ 1 ≤ x.cap ∧ x.cap ≤ 3
      ∧ (x.holder = 1 ∨ x.holder = 2))
      ∧ (m.slots.map (·.ref)).Nodup)
    ∧ ((∀ x ∈ m.links, x.id < 4) ∧ (m.links.map (·.id)).Nodup) := by
  unfold checkRange
  rw [firstRecord_none, perRecord_all, elemRange_iff, routeRange_iff, flankRange_iff, slotRange_iff, linkRange_iff]

theorem checkKind_none {m : Image} : checkKind m = none ↔
    (∀ x ∈ m.elems, x.kind = 1 ∨ m.Has 1 x.ref)
    ∧ (∀ r ∈ m.routes, m.Has 3 r.entry ∧ (r.exitKind ≠ 1 ∨ m.Has 3 r.exitId) ∧ (∀ i ∈ r.secs, m.Has 1 i)
      ∧ (∀ p ∈ r.points, m.Has 2 p.1) ∧ (∀ v ∈ r.variants, (∀ i ∈ v.secs, m.Has 1 i) ∧ ∀ p ∈ v.points, m.Has 2 p.1)
      ∧ ∀ i ∈ r.approach, m.Has 1 i)
    ∧ (∀ f ∈ m.flanks, ∀ o ∈ f.options, m.Has (if o.kind = 1 then 2 else 3) o.id)
    ∧ ∀ x ∈ m.slots, m.Has 1 x.bsec := by
  unfold checkKind
  rw [firstRecord_none, perRecord_all]
  simp only [elemKinds, routeKinds, variantKinds, flankKinds, Bool.and_eq_true, Bool.or_eq_true, beq_iff_eq, bne_iff_ne,
    List.all_eq_true, isKind_iff, and_assoc, implies_true, and_true]
  rw [mem_zipIdx_all (p := fun x : ImgElem => x.kind = 1 ∨ m.Has 1 x.ref),
    mem_zipIdx_all (p := fun r : ImgRoute => m.Has 3 r.entry ∧ (r.exitKind ≠ 1 ∨ m.Has 3 r.exitId) ∧ (∀ i ∈ r.secs,
      m.Has 1 i)
      ∧ (∀ p ∈ r.points, m.Has 2 p.1) ∧ (∀ v ∈ r.variants, (∀ i ∈ v.secs, m.Has 1 i) ∧ ∀ p ∈ v.points, m.Has 2 p.1)
      ∧ ∀ i ∈ r.approach, m.Has 1 i),
    mem_zipIdx_all (p := fun f : ImgFlank => ∀ o ∈ f.options, m.Has (if o.kind = 1 then 2 else 3) o.id),
    mem_zipIdx_all (p := fun x : ImgSlot => m.Has 1 x.bsec)]

theorem checkRoute_none {m : Image} : checkRoute m = none ↔ ∀ r ∈ m.routes,
    pathOk m r = true ∧ overlapOk m r = true ∧ optionsOk m r = true ∧ approachOk r = true := by
  unfold checkRoute; rw [firstBad_none]; simp only [Bool.and_eq_true, and_assoc]

theorem checkGuard_none {m : Image} (hi : ∀ f ∈ m.flanks, f.index < 256) : checkGuard m = none ↔
    (∀ f ∈ m.flanks, ∃ r, m.routes.find? (fun r => r.id == f.route) = some r ∧ 1 ≤ f.index ∧ f.index ≤ r.nFlanks
      ∧ ((f.guard = 0 ∧ r.nVariants ≠ 0) ∨ (1 ≤ f.guard ∧ f.guard ≤ r.nSecs)))
    ∧ (m.flanks.map (fun f => (f.route, f.index))).Nodup := by
  unfold checkGuard
  rw [firstBad_none, ← fresh_flank_iff hi]
  refine range_iff (key := fun y : ImgFlank => y.route * 256 + y.index) fun q => ?_
  simp only [guardOk, Bool.and_eq_true]
  refine and_comm.trans (and_congr_left fun _ => ?_)
  cases m.routes.find? (fun r => r.id == q.1.route) with
  | none => simp
  | some r =>
    simp only [Bool.and_eq_true, decide_eq_true_eq, Option.some.injEq, exists_eq_left', and_assoc]
    refine and_congr_right fun _ => and_congr_right fun _ => ?_
    by_cases h : q.1.guard = 0
    · simp [h]
    · simp [h]; omega

theorem checkSlot_none {m : Image} : checkSlot m = none ↔
    (∀ x ∈ m.slots, (∀ e ∈ m.elems, e.kind = 2 → e.ref ≠ x.bsec) ∧ ∃ l ∈ m.links, l.id = x.ref.link)
    ∧ ∀ r ∈ m.routes, r.exitKind = 1 ∨ ∃ x ∈ m.slots, x.ref = r.slot ∧ r.secs.getLast? = some x.bsec := by
  unfold checkSlot
  rw [or_none, firstBad_none, firstBad_none]
  simp

theorem checkTime_none {m : Image} : checkTime m = none ↔
    (∀ x ∈ m.elems, x.kind = 2 → 20 ≤ x.time ∧ x.time ≤ 300) ∧ ∀ x ∈ m.slots, 50 ≤ x.time ∧ x.time ≤ 3000 := by
  unfold checkTime
  rw [or_none, firstBad_none, firstBad_none]
  simp [← imp_iff_not_or]

theorem checkLink_none {m : Image} : checkLink m = none ↔
    ∀ l ∈ m.links, 1 ≤ l.rate ∧ l.rate ≤ 4 ∧ 1 ≤ l.peer ∧ l.peer ≤ 65534 := by
  unfold checkLink; rw [firstBad_none]; simp [and_assoc]

theorem checkClass_none {m : Image} : checkClass m = none ↔
    (∀ v ∈ m.rates, 20 ≤ v ∧ v ≤ 150) ∧ ∀ r ∈ m.routes, r.length ≤ 4000 ∧ 5 ≤ r.speed ∧ r.speed ≤ 250
      ∧ r.speed % 5 = 0 := by
  unfold checkClass
  rw [or_none, firstBad_none, firstBad_none]
  simp only [Bool.and_eq_true, decide_eq_true_eq, beq_iff_eq, and_assoc]
  rw [mem_zipIdx_all (p := fun v => 20 ≤ v ∧ v ≤ 150)]

/-- What check 5 asks of one route. -/
def RouteKinds (m : Image) (r : ImgRoute) : Prop :=
  m.Has 3 r.entry ∧ (r.exitKind ≠ 1 ∨ m.Has 3 r.exitId) ∧ (∀ i ∈ r.secs, m.Has 1 i)
      ∧ (∀ p ∈ r.points, m.Has 2 p.1) ∧ (∀ v ∈ r.variants, (∀ i ∈ v.secs, m.Has 1 i) ∧ ∀ p ∈ v.points, m.Has 2 p.1)
      ∧ ∀ i ∈ r.approach, m.Has 1 i

theorem pathOk_iff {m : Image} {r : ImgRoute} : pathOk m r = true ↔
    1 ≤ r.nSecs ∧ r.nSecs ≤ 16 ∧ r.secs.Nodup ∧ r.secs.head? = some (refOf m r.entry)
      ∧ pointsWithin m r.secs r.points = true
    ∧ ((r.exitKind = 1 ∧ r.exitId ≠ r.entry) ∨ (r.exitKind ≠ 1 ∧ r.nVariants = 0 ∧ (∃ x ∈ m.slots, x.ref = r.slot)
      ∧ ∃ l ∈ m.links, l.id = r.slot.link)) := by
  unfold pathOk
  by_cases h : r.exitKind = 1 <;> simp [h, distinct_iff, and_assoc]

theorem overlapOk_iff {m : Image} {r : ImgRoute} : overlapOk m r = true ↔
    r.nVariants ≤ 2 ∧ ∀ v ∈ r.variants, 1 ≤ v.nSecs ∧ v.nSecs ≤ 4 ∧ v.nPoints ≤ 4 ∧ v.secs.Nodup ∧ (∀ i ∈ v.secs,
      i ∉ r.secs)
      ∧ pointsWithin m v.secs v.points = true ∧ ∀ p ∈ v.points, ∀ q ∈ r.points, p.1 ≠ q.1 := by
  unfold overlapOk
  simp only [Bool.and_eq_true, decide_eq_true_eq, List.all_eq_true, distinct_iff, disjoint_iff, and_assoc, List.mem_map,
    forall_exists_index, and_imp,
    forall_apply_eq_imp_iff₂, not_exists, not_and]
  constructor
  · rintro ⟨h, g⟩; refine ⟨h, fun v hv => ?_⟩; obtain ⟨a, b, c, d, e, f, k⟩ := g v hv; exact ⟨a, b, c, d, e, f,
      fun p hp q hq e => k p hp q hq e.symm⟩
  · rintro ⟨h, g⟩; refine ⟨h, fun v hv => ?_⟩; obtain ⟨a, b, c, d, e, f, k⟩ := g v hv; exact ⟨a, b, c, d, e, f,
      fun p hp q hq e => k p hp q hq e.symm⟩

theorem approachOk_iff {r : ImgRoute} : approachOk r = true ↔ 1 ≤ r.nApproach ∧ r.nApproach ≤ 4 ∧ r.approach.Nodup
    ∧ (∀ i ∈ r.approach, i ∉ r.secs) ∧ ∀ v ∈ r.variants, ∀ i ∈ r.approach, i ∉ v.secs := by
  unfold approachOk
  simp only [Bool.and_eq_true, decide_eq_true_eq, List.all_eq_true, distinct_iff, disjoint_iff, and_assoc]

theorem imgPointsOk_iff {ps : List ImgPoint} : imgPointsOk ps = true ↔ ∀ p ∈ ps, p.1 < 512 ∧ (p.2 = 1 ∨ p.2 = 2) := by
  simp [imgPointsOk, posCodeOk]

theorem exitRange_iff {r : ImgRoute} : exitRange r = true ↔
    (r.exitKind = 1 ∧ r.exitId < 512) ∨ (r.exitKind = 2 ∧ r.slot.link < 4 ∧ r.slot.idx < 8) := by
  unfold exitRange; by_cases h : r.exitKind = 1 <;> simp [h, and_assoc]

theorem route_iff {m : Image} {r : ImgRoute} (hn : (m.elems.map (·.id)).Nodup) (he : ∀ x ∈ m.elems, x.id < 512)
    (hs : ∀ x ∈ m.slots, x.ref.link < 4 ∧ x.ref.idx < 8 ∧ ∃ l ∈ m.links, l.id = x.ref.link) :
    m.RouteSound r ↔ RouteRange r ∧ RouteKinds m r ∧ pathOk m r = true ∧ overlapOk m r = true ∧ approachOk r = true
      ∧ (r.exitKind = 1 ∨ ∃ x ∈ m.slots, x.ref = r.slot ∧ r.secs.getLast? = some x.bsec)
      ∧ r.length ≤ 4000 ∧ 5 ≤ r.speed ∧ r.speed ≤ 250 ∧ r.speed % 5 = 0 := by
  have hh : ∀ {k id}, m.Has k id → id < 512 := by rintro k id ⟨x, hx, rfl, _⟩; exact he x hx
  rw [pathOk_iff, overlapOk_iff, approachOk_iff]
  unfold RouteRange
  rw [exitRange_iff]
  constructor
  · rintro ⟨⟨s1, s2, s3, s4⟩, en, ex, ⟨p1, p2⟩, ⟨v1, v2⟩, ⟨a1, a2, a3, a4⟩, d1, d2, d3, d4, d5, d6, d7⟩
    obtain ⟨en1, en2⟩ := (has_ref hn (k := 3) (id := r.entry) (p := fun y => r.secs.head? = some y)).2 en
    have ⟨q1, q2⟩ := (pointsIn_iff hn).1 p2
    have hv : ∀ v ∈ r.variants, _ := fun v hv => (pointsIn_iff hn).1 (v2 v hv).2.2.2.2.2.1
    refine ⟨⟨hh en1, ?_, fun i hi => hh (s4 i hi), p1, imgPointsOk_iff.2 fun p hp => ⟨hh (q2 p hp).2, (q2 p hp).1⟩,
      fun v h => ⟨fun i hi => hh ((v2 v h).2.2.2.2.1 i hi).1, imgPointsOk_iff.2 fun p hp => ⟨hh ((hv v h).2 p hp).2,
        ((hv v h).2 p hp).1⟩⟩,
      d7, fun i hi => hh (a4 i hi).1, d5, d6⟩,
      ⟨en1, ?_, s4, fun p hp => (q2 p hp).2, fun v h => ⟨fun i hi => ((v2 v h).2.2.2.2.1 i hi).1,
        fun p hp => ((hv v h).2 p hp).2⟩,
        fun i hi => (a4 i hi).1⟩,
      ⟨s1, s2, s3, en2, q1, ?_⟩,
      ⟨v1, fun v h => ⟨(v2 v h).1, (v2 v h).2.1, (v2 v h).2.2.1, (v2 v h).2.2.2.1,
        fun i hi => ((v2 v h).2.2.2.2.1 i hi).2, (hv v h).1, (v2 v h).2.2.2.2.2.2⟩⟩,
      ⟨a1, a2, a3, fun i hi => (a4 i hi).2.1, fun v h i hi => (a4 i hi).2.2 v h⟩, ?_, d1, d2, d3, d4⟩
    · rcases ex with ⟨x1, x2, _⟩ | ⟨x1, _, x, hx, hr, _⟩
      · exact .inl ⟨x1, hh x2⟩
      · have := hs x hx; rw [hr] at this; exact .inr ⟨x1, this.1, this.2.1⟩
    · rcases ex with ⟨_, x2, _⟩ | ⟨x1, _⟩
      · exact .inr x2
      · left; omega
    · rcases ex with ⟨x1, _, x3⟩ | ⟨x1, x2, x, hx, hr, _⟩
      · exact .inl ⟨x1, x3⟩
      · have := hs x hx; rw [hr] at this; exact .inr ⟨by omega, x2, ⟨x, hx, hr⟩, this.2.2⟩
    · rcases ex with ⟨x1, _⟩ | ⟨_, _, x, hx, hr, hl⟩
      · exact .inl x1
      · exact .inr ⟨x, hx, hr, hl⟩
  · rintro ⟨⟨r1, r2, r3, r4, r5, r6, r7, r8, r9, r10⟩, ⟨k1, k2, k3, k4, k5, k6⟩, ⟨p1, p2, p3, p4, p5, p6⟩, ⟨o1, o2⟩, ⟨a1,
      a2, a3, a4, a5⟩, b, c1, c2, c3, c4⟩
    refine ⟨⟨p1, p2, p3, k3⟩, (has_ref hn (p := fun y => r.secs.head? = some y)).1 ⟨k1, p4⟩, ?_, ⟨r4,
      (pointsIn_iff hn).2 ⟨p5, fun p hp => ⟨(imgPointsOk_iff.1 r5 p hp).2, k4 p hp⟩⟩⟩,
      ⟨o1, fun v hv => ?_⟩, ⟨a1, a2, a3, fun i hi => ⟨k6 i hi, a4 i hi, fun v hv => a5 v hv i hi⟩⟩, c1, c2, c3, c4, r9,
        r10, r7⟩
    · rcases r2 with ⟨x, _⟩ | ⟨x, _⟩
      · left; exact ⟨x, k2.resolve_left (by omega), by rcases p6 with h | h; exact h.2; exact absurd x h.1⟩
      · right; refine ⟨x, ?_, b.resolve_left (by omega)⟩
        rcases p6 with h | h
        · omega
        · exact h.2.1
    · obtain ⟨y1, y2, y3, y4, y5, y6, y7⟩ := o2 v hv
      refine ⟨y1, y2, y3, y4, fun i hi => ⟨(k5 v hv).1 i hi, y5 i hi⟩, (pointsIn_iff hn).2 ⟨y6,
        fun p hp => ⟨(imgPointsOk_iff.1 (r6 v hv).2 p hp).2, (k5 v hv).2 p hp⟩⟩, y7⟩

theorem optionsOk_iff {m : Image} {r : ImgRoute} : optionsOk m r = true ↔ ∀ f ∈ m.flanks, f.route = r.id →
    1 ≤ f.nOptions ∧ f.nOptions ≤ 3 ∧ ∀ o ∈ f.options, o.kind = 2 → o.id ≠ r.entry := by
  unfold optionsOk; simp [and_assoc, ← imp_iff_not_or]

theorem optionRange_iff {o : ImgOption} : optionRange o = true ↔ o.id < 512 ∧ (o.kind = 2 ∨ (o.kind = 1
    ∧ (o.pos = 1 ∨ o.pos = 2))) := by
  simp [optionRange, posCodeOk]

theorem flank_iff {m : Image} (hn : (m.routes.map (·.id)).Nodup) (he : ∀ x ∈ m.elems, x.id < 512) :
    (∀ f ∈ m.flanks, m.FlankSound f) ↔ (∀ f ∈ m.flanks, ∀ o ∈ f.options, optionRange o = true)
      ∧ (∀ f ∈ m.flanks, ∀ o ∈ f.options, m.Has (if o.kind = 1 then 2 else 3) o.id)
      ∧ (∀ r ∈ m.routes, optionsOk m r = true)
      ∧ (∀ f ∈ m.flanks, ∃ r, m.routes.find? (fun r => r.id == f.route) = some r ∧ 1 ≤ f.index ∧ f.index ≤ r.nFlanks
      ∧ ((f.guard = 0 ∧ r.nVariants ≠ 0) ∨ (1 ≤ f.guard ∧ f.guard ≤ r.nSecs))) := by
  have hh : ∀ {k id}, m.Has k id → id < 512 := by rintro k id ⟨x, hx, rfl, _⟩; exact he x hx
  have hu : ∀ r ∈ m.routes, ∀ q ∈ m.routes, r.id = q.id → r = q := fun r hr q hq e => by
    have h1 := find?_key (key := ImgRoute.id) hn hr
    have h2 := find?_key (key := ImgRoute.id) hn hq
    rw [e, h2] at h1; exact (Option.some.inj h1).symm
  simp only [optionsOk_iff, optionRange_iff]
  constructor
  · intro h
    refine ⟨fun f hf o ho => ?_, fun f hf o ho => ?_, fun r hr f hf hfr => ?_, fun f hf => ?_⟩
    · obtain ⟨r, hr, _, _, _, _, _, _, g⟩ := h f hf
      rcases g o ho with ⟨a, b, c⟩ | ⟨a, b, _⟩
      · exact ⟨hh c, .inr ⟨a, b⟩⟩
      · exact ⟨hh b, .inl a⟩
    · obtain ⟨r, hr, _, _, _, _, _, _, g⟩ := h f hf
      rcases g o ho with ⟨a, b, c⟩ | ⟨a, b, _⟩
      · rw [if_pos a]; exact c
      · rw [if_neg (by omega)]; exact b
    · obtain ⟨q, hq, e, _, _, _, n1, n2, g⟩ := h f hf
      obtain rfl := hu q hq r hr (e.trans hfr)
      refine ⟨n1, n2, fun o ho hk => ?_⟩
      rcases g o ho with ⟨a, _⟩ | ⟨_, _, c⟩
      · omega
      · exact c
    · obtain ⟨q, hq, e, i1, i2, gd, _⟩ := h f hf
      exact ⟨q, by rw [← e]; exact find?_key (key := ImgRoute.id) hn hq, i1, i2, gd⟩
  · rintro ⟨h1, h2, h3, h4⟩ f hf
    obtain ⟨r, hr, i1, i2, gd⟩ := h4 f hf
    have hm := List.mem_of_find?_eq_some hr
    have e : r.id = f.route := by simpa using List.find?_some hr
    obtain ⟨n1, n2, g⟩ := h3 r hm f hf e.symm
    refine ⟨r, hm, e, i1, i2, gd, n1, n2, fun o ho => ?_⟩
    have := h2 f hf o ho
    rcases (h1 f hf o ho).2 with k | ⟨k, kp⟩
    · right; rw [if_neg (by omega)] at this; exact ⟨k, this, g o ho k⟩
    · left; rw [if_pos k] at this; exact ⟨k, kp, this⟩

/-- Checks 3 to 12 pass exactly on the parts of a sound image (R163). -/
theorem checkParts_sound {m : Image} (hi : ∀ f ∈ m.flanks, f.index < 256) (hp : m.params.length = 16) :
    checkParts m = none ↔ m.Sound := by
  rw [checkParts_none, checkRange_none, checkKind_none, checkRoute_none, checkGuard_none hi, checkSlot_none,
    checkLink_none, checkTime_none,
    checkClass_none]
  unfold checkParams
  rw [params_iff hp]
  constructor
  · rintro ⟨hh, ⟨⟨e1, e2, e3, e4⟩, ⟨r1, r2⟩, ⟨f1, f2⟩, ⟨s1, s2⟩, l1, l2⟩, ⟨k1, k2, k3, k4⟩, p, ⟨g1, g2⟩, ⟨b1, b2⟩, c,
      ⟨t1, t2⟩, ⟨d1, d2⟩, q⟩
    have he : ∀ x ∈ m.elems, x.id < 512 := fun x hx => (e1 x hx).1
    refine ⟨hh, ⟨e2, fun x hx => ?_⟩, ⟨e3, e4, f2⟩, ⟨r2, fun r hr => ?_⟩, ⟨g2, ?_⟩, ⟨s2, fun x hx => ?_⟩, ⟨l2,
      fun l hl => ⟨l1 l hl, c l hl⟩⟩, d1, q⟩
    · have a := e1 x hx; have b := k1 x hx; have d := t1 x hx
      refine ⟨a.1, ?_⟩
      rcases (show x.kind = 1 ∨ x.kind = 2 ∨ x.kind = 3 by omega) with h | h | h
      · exact .inl h
      · exact .inr (.inl ⟨h, b.resolve_left (by omega), d h⟩)
      · exact .inr (.inr ⟨h, b.resolve_left (by omega)⟩)
    · refine (route_iff e2 he fun x hx => ⟨(s1 x hx).1, (s1 x hx).2.1, (b1 x hx).2⟩).2
        ⟨r1 r hr, k2 r hr, (p r hr).1, (p r hr).2.1, (p r hr).2.2.2, b2 r hr, d2 r hr⟩
    · exact (flank_iff r2 he).2 ⟨f1, k3, fun r hr => (p r hr).2.2.1, g1⟩
    · have := s1 x hx; have := k4 x hx; have := b1 x hx; have := t2 x hx
      tauto
  · rintro ⟨hh, ⟨e2, e1⟩, ⟨e3, e4, f2⟩, ⟨r2, rs⟩, ⟨g2, fs⟩, ⟨s2, ss⟩, ⟨l2, ls⟩, d1, q⟩
    have he : ∀ x ∈ m.elems, x.id < 512 := fun x hx => (e1 x hx).1
    have hb : ∀ {k id}, m.Has k id → id < 512 := by rintro k id ⟨x, hx, rfl, _⟩; exact he x hx
    have hr : ∀ r ∈ m.routes, _ := fun r hr => (route_iff e2 he fun x hx => ⟨(ss x hx).1, (ss x hx).2.1,
      (ss x hx).2.2.2.2.1⟩).1 (rs r hr)
    obtain ⟨f1, f3, f4, f5⟩ := (flank_iff r2 he).1 fs
    refine ⟨hh, ⟨⟨fun x hx => ?_, e2, e3, e4⟩, ⟨fun r h => (hr r h).1, r2⟩, ⟨f1, f2⟩, ⟨fun x hx => ?_, s2⟩,
      fun l hl => (ls l hl).1, l2⟩,
      ⟨fun x hx => ?_, fun r h => (hr r h).2.1, f3, fun x hx => (ss x hx).2.2.1⟩,
      fun r h => ⟨(hr r h).2.2.1, (hr r h).2.2.2.1, f4 r h, (hr r h).2.2.2.2.1⟩, ⟨f5, g2⟩,
      ⟨fun x hx => ⟨(ss x hx).2.2.2.1, (ss x hx).2.2.2.2.1⟩, fun r h => (hr r h).2.2.2.2.2.1⟩, fun l hl => (ls l hl).2,
      ⟨fun x hx hk => ?_, fun x hx => (ss x hx).2.2.2.2.2.2.2.2⟩, ⟨d1, fun r h => (hr r h).2.2.2.2.2.2⟩, q⟩
    · rcases (e1 x hx).2 with h | ⟨h, g, _⟩ | ⟨h, g⟩
      · exact ⟨he x hx, by omega, by omega, .inl h⟩
      · exact ⟨he x hx, by omega, by omega, .inr (hb g)⟩
      · exact ⟨he x hx, by omega, by omega, .inr (hb g)⟩
    · have := ss x hx; have := hb (ss x hx).2.2.1
      tauto
    · rcases (e1 x hx).2 with h | ⟨h, g, _⟩ | ⟨h, g⟩
      · exact .inl h
      · exact .inr g
      · exact .inr g
    · rcases (e1 x hx).2 with h | ⟨h, g⟩ | ⟨h, g⟩
      · omega
      · exact g.2
      · omega

end Sys2Proof.Machine
end

