-- ==== Sys2Proof/Laws/Lookup.lean ====
section
/-!
SUPPORT. Looking up a record after an update of the records with its id, and the two-byte fields of requests.
-/

namespace Sys2Proof.Machine

/-! ## Look-up after an update -/

theorem find?_map_same {α κ : Type} [DecidableEq κ] (key : α → κ) (k : κ) (f : α → α) (hf : ∀ x, key (f x) = key x)
    (xs : List α) :
    (xs.map (fun x => if key x = k then f x else x)).find? (fun x => key x == k) =
      (xs.find? (fun x => key x == k)).map f := by
  induction xs with
  | nil => rfl
  | cons x xs ih =>
    by_cases h : key x = k
    · simp [h, hf]
    · simp [h, ih]

theorem find?_map_other {α κ : Type} [DecidableEq κ] (key : α → κ) (k k' : κ) (hk : k ≠ k') (f : α → α)
    (hf : ∀ x, key (f x) = key x) (xs : List α) :
    (xs.map (fun x => if key x = k then f x else x)).find? (fun x => key x == k') =
      xs.find? (fun x => key x == k') := by
  induction xs with
  | nil => rfl
  | cons x xs ih =>
    by_cases h : key x = k
    · simp [h, hf, hk, ih]
    · simp only [List.map_cons, h, if_false, List.find?_cons, ih]

theorem sectionLookup_map {s : State} {id : Nat} {f : SectionRec → SectionRec} (hf : ∀ x, (f x).id = x.id) :
    (s.mapSection id f).section? id = (s.section? id).map f := find?_map_same _ _ f hf _

theorem point?_map {s : State} {id : Nat} {f : PointRec → PointRec} (hf : ∀ x, (f x).id = x.id) :
    (s.mapPoint id f).point? id = (s.point? id).map f := find?_map_same _ _ f hf _

theorem signal?_map {s : State} {id : Nat} {f : SignalRec → SignalRec} (hf : ∀ x, (f x).id = x.id) :
    (s.mapSignal id f).signal? id = (s.signal? id).map f := find?_map_same _ _ f hf _

theorem route?_map {s : State} {r : Nat} {f : ActiveRoute → ActiveRoute} (hf : ∀ x, (f x).id = x.id) :
    (s.mapRoute r f).route? r = (s.route? r).map f := find?_map_same _ _ f hf _

theorem link?_map {s : State} {l : Nat} {f : Link → Link} (hf : ∀ x, (f x).id = x.id) :
    (s.mapLink l f).link? l = (s.link? l).map f := find?_map_same _ _ f hf _

theorem slot?_map {s : State} {ref : SlotRef} {f : Slot → Slot} (hf : ∀ x, (f x).ref = x.ref) :
    (s.mapSlot ref f).slot? ref = (s.slot? ref).map f := find?_map_same _ _ f hf _

theorem sectionLookup_id {s : State} {id : Nat} {x : SectionRec} (h : s.section? id = some x) : x.id = id := by
  have := List.find?_some h; simpa using this

theorem point?_id {s : State} {id : Nat} {x : PointRec} (h : s.point? id = some x) : x.id = id := by
  have := List.find?_some h; simpa using this

theorem signal?_id {s : State} {id : Nat} {x : SignalRec} (h : s.signal? id = some x) : x.id = id := by
  have := List.find?_some h; simpa using this

theorem link?_id {s : State} {l : Nat} {x : Link} (h : s.link? l = some x) : x.id = l := by
  have := List.find?_some h; simpa using this

theorem slot?_ref {s : State} {ref : SlotRef} {x : Slot} (h : s.slot? ref = some x) : x.ref = ref := by
  have := List.find?_some h; simpa using this

/-! ## The state in which a frame is decided -/

@[simp] theorem State.served_sections (s : State) (f : RequestFrame) : (s.served f).sections = s.sections := by
  unfold State.served; split <;> cases hf : f.ch <;> simp [State.opened, State.setChan, State.setPort, hf]

@[simp] theorem State.served_points (s : State) (f : RequestFrame) : (s.served f).points = s.points := by
  unfold State.served; split <;> cases hf : f.ch <;> simp [State.opened, State.setChan, State.setPort, hf]

@[simp] theorem State.served_signals (s : State) (f : RequestFrame) : (s.served f).signals = s.signals := by
  unfold State.served; split <;> cases hf : f.ch <;> simp [State.opened, State.setChan, State.setPort, hf]

@[simp] theorem State.served_routes (s : State) (f : RequestFrame) : (s.served f).routes = s.routes := by
  unfold State.served; split <;> cases hf : f.ch <;> simp [State.opened, State.setChan, State.setPort, hf]

@[simp] theorem State.served_store (s : State) (f : RequestFrame) : (s.served f).store = s.store := by
  unfold State.served; split <;> cases hf : f.ch <;> simp [State.opened, State.setChan, State.setPort, hf]

@[simp] theorem State.served_speeds (s : State) (f : RequestFrame) : (s.served f).speeds = s.speeds := by
  unfold State.served; split <;> cases hf : f.ch <;> simp [State.opened, State.setChan, State.setPort, hf]

@[simp] theorem State.served_links (s : State) (f : RequestFrame) : (s.served f).links = s.links := by
  unfold State.served; split <;> cases hf : f.ch <;> simp [State.opened, State.setChan, State.setPort, hf]

@[simp] theorem State.served_slots (s : State) (f : RequestFrame) : (s.served f).slots = s.slots := by
  unfold State.served; split <;> cases hf : f.ch <;> simp [State.opened, State.setChan, State.setPort, hf]

@[simp] theorem State.paired_sections (s : State) (f : RequestFrame) : (s.paired f).sections = s.sections := State.served_sections s f

@[simp] theorem State.paired_points (s : State) (f : RequestFrame) : (s.paired f).points = s.points := State.served_points s f

@[simp] theorem State.paired_signals (s : State) (f : RequestFrame) : (s.paired f).signals = s.signals := State.served_signals s f

@[simp] theorem State.paired_routes (s : State) (f : RequestFrame) : (s.paired f).routes = s.routes := State.served_routes s f

@[simp] theorem State.paired_store (s : State) (f : RequestFrame) : (s.paired f).store = s.store := State.served_store s f

@[simp] theorem State.paired_speeds (s : State) (f : RequestFrame) : (s.paired f).speeds = s.speeds := State.served_speeds s f

@[simp] theorem State.paired_links (s : State) (f : RequestFrame) : (s.paired f).links = s.links := State.served_links s f

@[simp] theorem State.paired_slots (s : State) (f : RequestFrame) : (s.paired f).slots = s.slots := State.served_slots s f

@[simp] theorem State.paired_dev (s : State) (f : RequestFrame) : (s.paired f).dev = s.dev := State.served_dev s f

@[simp] theorem State.served_param (s : State) (f : RequestFrame) (n : Nat) : param n (s.served f) = param n s := by
  unfold param; rw [State.served_dev]

@[simp] theorem State.paired_param (s : State) (f : RequestFrame) (n : Nat) : param n (s.paired f) = param n s := by
  unfold param; rw [State.paired_dev]

/-! Reads of records that a request's transfer does not touch. -/

@[simp] theorem State.served_section? (s : State) (f : RequestFrame) (id : Nat) : (s.served f).section? id = s.section? id := by
  unfold State.section?; rw [State.served_sections]

@[simp] theorem State.served_point? (s : State) (f : RequestFrame) (id : Nat) : (s.served f).point? id = s.point? id := by
  unfold State.point?; rw [State.served_points]

@[simp] theorem State.served_signal? (s : State) (f : RequestFrame) (id : Nat) : (s.served f).signal? id = s.signal? id := by
  unfold State.signal?; rw [State.served_signals]

@[simp] theorem State.served_route? (s : State) (f : RequestFrame) (r : Nat) : (s.served f).route? r = s.route? r := by
  unfold State.route?; rw [State.served_routes]

@[simp] theorem State.served_def? (s : State) (f : RequestFrame) (r : Nat) : (s.served f).def? r = s.def? r := by
  unfold State.def?; rw [State.served_store]

@[simp] theorem State.served_link? (s : State) (f : RequestFrame) (l : Nat) : (s.served f).link? l = s.link? l := by
  unfold State.link?; rw [State.served_links]

@[simp] theorem State.served_slot? (s : State) (f : RequestFrame) (ref : SlotRef) : (s.served f).slot? ref = s.slot? ref := by
  unfold State.slot?; rw [State.served_slots]

@[simp] theorem State.paired_section? (s : State) (f : RequestFrame) (id : Nat) : (s.paired f).section? id = s.section? id := by
  unfold State.section?; rw [State.paired_sections]

@[simp] theorem State.paired_point? (s : State) (f : RequestFrame) (id : Nat) : (s.paired f).point? id = s.point? id := by
  unfold State.point?; rw [State.paired_points]

@[simp] theorem State.paired_signal? (s : State) (f : RequestFrame) (id : Nat) : (s.paired f).signal? id = s.signal? id := by
  unfold State.signal?; rw [State.paired_signals]

@[simp] theorem State.paired_route? (s : State) (f : RequestFrame) (r : Nat) : (s.paired f).route? r = s.route? r := by
  unfold State.route?; rw [State.paired_routes]

@[simp] theorem State.paired_def? (s : State) (f : RequestFrame) (r : Nat) : (s.paired f).def? r = s.def? r := by
  unfold State.def?; rw [State.paired_store]

@[simp] theorem State.paired_link? (s : State) (f : RequestFrame) (l : Nat) : (s.paired f).link? l = s.link? l := by
  unfold State.link?; rw [State.paired_links]

@[simp] theorem State.paired_slot? (s : State) (f : RequestFrame) (ref : SlotRef) : (s.paired f).slot? ref = s.slot? ref := by
  unfold State.slot?; rw [State.paired_slots]

/-! ## Two-byte fields -/

/-- The bytes of a two-byte field give it back. -/
theorem num2_b2 (e : Half) : ∃ hi lo : Byte, b2 e.toNat = [hi, lo] ∧ num2 hi lo = e.toNat := by
  refine ⟨_, _, rfl, ?_⟩
  have := e.isLt
  simp only [num2, BitVec.toNat_ofNat]
  omega

end Sys2Proof.Machine
end

