-- ==== Sys2Proof/Laws/PerInstr.lean ====
section
/-!
SUPPORT. The family WireForm, command by command: a well-formed request has a body that passes the length test of R150 and
the range test of R151, and a well-formed link frame decodes to its fields (R175, R176).
-/

namespace Sys2Proof.Laws.WireForm

open Sys2Proof.Machine

/-- What the port or the link makes of a well-formed command before any unit sees it (R150, R151, R175, R176). -/
def Statement (i : Instr) : Prop :=
  i.wellFormed = true →
    match requestOf i, i with
    | some f, _ => f.body.length ≤ 200 ∧ lengthOk f.kind f.body.length = true ∧ inRange f.kind f.body = true
    | none, .linkTrainFrame _ s r o fl => ∃ c, trainFrame s.toNat r.toNat o.toNat fl.toNat = some (.train c) ∧ c.offer = o.toNat
    | none, .linkCyclicFrame _ s r c fs => ∃ ps, cyclicFrame s.toNat r.toNat c fs = some (.cyclic s.toNat r.toNat c ps)
    | none, .linkLoopFrame _ k p => loopFrame k p = some (.loop k p)
    | none, _ => True

/-- Two bytes of a number below 65536 give it back (R171). -/
theorem num2_b2 (e : Half) : ∃ hi lo, b2 e.toNat = [hi, lo] ∧ num2 hi lo = e.toNat := by
  refine ⟨_, _, rfl, ?_⟩
  have := e.isLt
  simp [num2]
  omega

/-- A report of one to thirty-two items has three bytes an item. -/
theorem length_items (items : List ReportItem) : (items.flatMap itemBytes).length = 3 * items.length := by
  induction items with
  | nil => rfl
  | cons x xs ih => rw [List.flatMap_cons, List.length_append, ih]; simp [itemBytes, b2]; omega

/-- Items whose ids are element ids pass the range test. -/
theorem items_inRange : ∀ items : List ReportItem, items.all (fun i => elementOk i.element) = true →
    itemsInRange (items.flatMap itemBytes) = true
  | [], _ => rfl
  | x :: xs, h => by
    obtain ⟨hi, lo, e, n⟩ := num2_b2 x.element
    simp only [List.all_cons, Bool.and_eq_true, elementOk, decide_eq_true_eq] at h
    have ih := items_inRange xs (by simpa [elementOk] using h.2)
    simp only [List.flatMap_cons, itemBytes, e, List.cons_append, List.nil_append, itemsInRange, n]
    simp [h.1, ih]

theorem reportFieldStatus (ch : Channel) (tag : Byte) (items : List ReportItem) :
    Statement (.reportFieldStatus ch tag items) := by
  intro h
  simp only [Instr.wellFormed, Bool.and_eq_true, decide_eq_true_eq] at h
  have hl := length_items items
  refine ⟨?_, ?_, items_inRange items h.2⟩
  · show (items.flatMap itemBytes).length ≤ 200
    omega
  · show lengthOk .reportFieldStatus (items.flatMap itemBytes).length = true
    rw [hl]
    simp [lengthOk, fixedLength]
    omega

theorem readElement (ch : Channel) (tag : Byte) (element : Half) : Statement (.readElement ch tag element) := by
  intro h
  obtain ⟨hi, lo, e, m⟩ := num2_b2 element
  simp only [Instr.wellFormed, elementOk, decide_eq_true_eq] at h
  simp [requestOf, e, inRange, m, h, lengthOk, fixedLength]

theorem readRoute (ch : Channel) (tag : Byte) (route : Byte) : Statement (.readRoute ch tag route) :=
    fun _ => ⟨Nat.le_of_ble_eq_true rfl, rfl, rfl⟩

theorem readRoutes (ch : Channel) (tag : Byte) : Statement (.readRoutes ch tag) := fun _ => ⟨Nat.le_of_ble_eq_true rfl, rfl, rfl⟩

theorem readSlot (ch : Channel) (tag : Byte) (link : Byte) (slot : Byte) : Statement (.readSlot ch tag link slot) := by
  intro h
  simpa [Instr.wellFormed, slotOk, requestOf, inRange, lengthOk, fixedLength, and_assoc] using h

theorem readLink (ch : Channel) (tag : Byte) (link : Byte) : Statement (.readLink ch tag link) := by
  intro h
  simpa [Instr.wellFormed, slotOk, requestOf, inRange, lengthOk, fixedLength, and_assoc] using h

theorem readParameters (ch : Channel) (tag : Byte) : Statement (.readParameters ch tag) :=
    fun _ => ⟨Nat.le_of_ble_eq_true rfl, rfl, rfl⟩

theorem readStatus (ch : Channel) (tag : Byte) : Statement (.readStatus ch tag) := fun _ => ⟨Nat.le_of_ble_eq_true rfl, rfl, rfl⟩

theorem readEvents (ch : Channel) (tag : Byte) (count : Byte) : Statement (.readEvents ch tag count) := by
  intro h
  simpa [Instr.wellFormed, slotOk, requestOf, inRange, lengthOk, fixedLength, and_assoc] using h

theorem pause (ch : Channel) (tag : Byte) : Statement (.pause ch tag) := fun _ => ⟨Nat.le_of_ble_eq_true rfl, rfl, rfl⟩

theorem resume (ch : Channel) (tag : Byte) : Statement (.resume ch tag) := fun _ => ⟨Nat.le_of_ble_eq_true rfl, rfl, rfl⟩

theorem setRoute (ch : Channel) (tag : Byte) (route : Byte) (variant : Byte) : Statement (.setRoute ch tag route variant) :=
    fun _ => ⟨Nat.le_of_ble_eq_true rfl, rfl, rfl⟩

theorem cancelRoute (ch : Channel) (tag : Byte) (route : Byte) : Statement (.cancelRoute ch tag route) :=
    fun _ => ⟨Nat.le_of_ble_eq_true rfl, rfl, rfl⟩

theorem emergencyRelease (ch : Channel) (tag : Byte) (route : Byte) : Statement (.emergencyRelease ch tag route) :=
    fun _ => ⟨Nat.le_of_ble_eq_true rfl, rfl, rfl⟩

theorem setApproachSpeed (ch : Channel) (tag : Byte) (route : Byte) (speed : Byte) : Statement (.setApproachSpeed ch tag route speed) :=
    fun _ => ⟨Nat.le_of_ble_eq_true rfl, rfl, rfl⟩

theorem movePoint (ch : Channel) (tag : Byte) (element : Half) (position : Byte) :
    Statement (.movePoint ch tag element position) := by
  intro h
  obtain ⟨hi, lo, e, m⟩ := num2_b2 element
  simp only [Instr.wellFormed, elementOk, Bool.and_eq_true, decide_eq_true_eq, posOf] at h
  have hp : position.toNat = 1 ∨ position.toNat = 2 := by
    have := h.2; repeat' split at this
    all_goals first | (simp at this; done) | omega
  simp [requestOf, e, inRange, m, h.1, hp, lengthOk, fixedLength]

theorem blockElement (ch : Channel) (tag : Byte) (element : Half) : Statement (.blockElement ch tag element) := by
  intro h
  obtain ⟨hi, lo, e, m⟩ := num2_b2 element
  simp only [Instr.wellFormed, elementOk, decide_eq_true_eq] at h
  simp [requestOf, e, inRange, m, h, lengthOk, fixedLength]

theorem unblockElement (ch : Channel) (tag : Byte) (element : Half) : Statement (.unblockElement ch tag element) := by
  intro h
  obtain ⟨hi, lo, e, m⟩ := num2_b2 element
  simp only [Instr.wellFormed, elementOk, decide_eq_true_eq] at h
  simp [requestOf, e, inRange, m, h, lengthOk, fixedLength]

theorem inhibitSet (ch : Channel) (tag : Byte) (element : Half) : Statement (.inhibitSet ch tag element) := by
  intro h
  obtain ⟨hi, lo, e, m⟩ := num2_b2 element
  simp only [Instr.wellFormed, elementOk, decide_eq_true_eq] at h
  simp [requestOf, e, inRange, m, h, lengthOk, fixedLength]

theorem inhibitClear (ch : Channel) (tag : Byte) (element : Half) : Statement (.inhibitClear ch tag element) := by
  intro h
  obtain ⟨hi, lo, e, m⟩ := num2_b2 element
  simp only [Instr.wellFormed, elementOk, decide_eq_true_eq] at h
  simp [requestOf, e, inRange, m, h, lengthOk, fixedLength]

theorem elementRestore (ch : Channel) (tag : Byte) (element : Half) : Statement (.elementRestore ch tag element) := by
  intro h
  obtain ⟨hi, lo, e, m⟩ := num2_b2 element
  simp only [Instr.wellFormed, elementOk, decide_eq_true_eq] at h
  simp [requestOf, e, inRange, m, h, lengthOk, fixedLength]

theorem requestPermit (ch : Channel) (tag : Byte) (link : Byte) (slot : Byte) :
    Statement (.requestPermit ch tag link slot) := by
  intro h
  simpa [Instr.wellFormed, slotOk, requestOf, inRange, lengthOk, fixedLength, and_assoc] using h

theorem blockSlot (ch : Channel) (tag : Byte) (link : Byte) (slot : Byte) :
    Statement (.blockSlot ch tag link slot) := by
  intro h
  simpa [Instr.wellFormed, slotOk, requestOf, inRange, lengthOk, fixedLength, and_assoc] using h

theorem unblockSlot (ch : Channel) (tag : Byte) (link : Byte) (slot : Byte) :
    Statement (.unblockSlot ch tag link slot) := by
  intro h
  simpa [Instr.wellFormed, slotOk, requestOf, inRange, lengthOk, fixedLength, and_assoc] using h

theorem restoreSlot (ch : Channel) (tag : Byte) (link : Byte) (slot : Byte) (mode : Byte) :
    Statement (.restoreSlot ch tag link slot mode) := by
  intro h
  simpa [Instr.wellFormed, slotOk, requestOf, inRange, lengthOk, fixedLength, and_assoc] using h

theorem releaseReservation (ch : Channel) (tag : Byte) (link : Byte) (slot : Byte) :
    Statement (.releaseReservation ch tag link slot) := by
  intro h
  simpa [Instr.wellFormed, slotOk, requestOf, inRange, lengthOk, fixedLength, and_assoc] using h

theorem linkTest (ch : Channel) (tag : Byte) (link : Byte) (pattern : List Byte) (count : Byte) :
    Statement (.linkTest ch tag link pattern count) := by
  intro h
  simp only [Instr.wellFormed, Bool.and_eq_true, decide_eq_true_eq, beq_iff_eq] at h
  simp [requestOf, inRange, lengthOk, fixedLength, h.1, h.2]

theorem setParameter (ch : Channel) (tag : Byte) (id : Byte) (value : Half) : Statement (.setParameter ch tag id value) :=
    fun _ => ⟨Nat.le_of_ble_eq_true rfl, rfl, rfl⟩

theorem applyParameters (ch : Channel) (tag : Byte) : Statement (.applyParameters ch tag) :=
    fun _ => ⟨Nat.le_of_ble_eq_true rfl, rfl, rfl⟩

theorem acceptConfiguration (ch : Channel) (tag : Byte) (digest : Word) : Statement (.acceptConfiguration ch tag digest) :=
    fun _ => ⟨Nat.le_of_ble_eq_true rfl, rfl, rfl⟩

theorem deviceReset (ch : Channel) (tag : Byte) : Statement (.deviceReset ch tag) := fun _ => ⟨Nat.le_of_ble_eq_true rfl, rfl, rfl⟩

theorem invalidRequestFrame (ch : Channel) (bytes : List Byte) : Statement (.invalidRequestFrame ch bytes) :=
    fun _ => trivial

theorem selectRise (ch : Channel) : Statement (.selectRise ch) := fun _ => trivial

theorem eventRecordsRemoved (ch : Channel) : Statement (.eventRecordsRemoved ch) := fun _ => trivial

theorem crstAsserted (ch : Channel) : Statement (.crstAsserted ch) := fun _ => trivial

theorem crstReleased (ch : Channel) : Statement (.crstReleased ch) := fun _ => trivial

theorem drstAsserted : Statement (.drstAsserted) := fun _ => trivial

theorem drstReleased : Statement (.drstReleased) := fun _ => trivial

theorem imageReadComplete (bytes : List Byte) : Statement (.imageReadComplete bytes) := fun _ => trivial

theorem clearanceTimerExpiry (element : Nat) : Statement (.clearanceTimerExpiry element) := fun _ => trivial

theorem sectionDiscrepancyExpiry (element : Nat) : Statement (.sectionDiscrepancyExpiry element) := fun _ => trivial

theorem pointDiscrepancyExpiry (element : Nat) : Statement (.pointDiscrepancyExpiry element) := fun _ => trivial

theorem signalDiscrepancyExpiry (element : Nat) : Statement (.signalDiscrepancyExpiry element) := fun _ => trivial

theorem moveSupervisionExpiry (element : Nat) : Statement (.moveSupervisionExpiry element) := fun _ => trivial

theorem windowTimerExpiry (tag : Byte) : Statement (.windowTimerExpiry tag) := fun _ => trivial

theorem supervisionTimerExpiry (ch : Channel) : Statement (.supervisionTimerExpiry ch) := fun _ => trivial

theorem pauseLimitExpiry (ch : Channel) : Statement (.pauseLimitExpiry ch) := fun _ => trivial

theorem settingTimerExpiry (route : Nat) : Statement (.settingTimerExpiry route) := fun _ => trivial

theorem overlapTimerExpiry (route : Nat) : Statement (.overlapTimerExpiry route) := fun _ => trivial

theorem releaseTimerExpiry (route : Nat) : Statement (.releaseTimerExpiry route) := fun _ => trivial

theorem watchTimerExpiry (element : Nat) : Statement (.watchTimerExpiry element) := fun _ => trivial

theorem linkSendTimerExpiry (link : Nat) : Statement (.linkSendTimerExpiry link) := fun _ => trivial

theorem trainingTimerExpiry (link : Nat) : Statement (.trainingTimerExpiry link) := fun _ => trivial

theorem linkSupervisionExpiry (link : Nat) : Statement (.linkSupervisionExpiry link) := fun _ => trivial

theorem answerTimerExpiry (link : Nat) : Statement (.answerTimerExpiry link) := fun _ => trivial

theorem echoTimerExpiry (link : Nat) : Statement (.echoTimerExpiry link) := fun _ => trivial

theorem linkTrainFrame (link : Nat) (sender : Half) (receiver : Half) (offer : Half) (flags : Byte) :
    Statement (.linkTrainFrame link sender receiver offer flags) := by
  intro h
  simp only [Instr.wellFormed, Bool.and_eq_true, decide_eq_true_eq] at h
  exact ⟨_, by rw [trainFrame, if_pos ⟨h.1.2, h.2⟩], rfl⟩

theorem linkCyclicFrame (link : Nat) (sender : Half) (receiver : Half) (counter : Byte) (fields : List Byte) :
    Statement (.linkCyclicFrame link sender receiver counter fields) := by
  intro h
  simp only [Instr.wellFormed, Bool.and_eq_true, decide_eq_true_eq, beq_iff_eq, Option.isSome_iff_exists] at h
  obtain ⟨⟨-, hl⟩, ps, hp⟩ := h
  exact ⟨ps, by rw [cyclicFrame, if_pos hl, hp]⟩

theorem linkLoopFrame (link : Nat) (index : Byte) (pattern : List Byte) :
    Statement (.linkLoopFrame link index pattern) := by
  intro h
  simp only [Instr.wellFormed, Bool.and_eq_true, decide_eq_true_eq, beq_iff_eq] at h
  show loopFrame _ _ = _
  rw [loopFrame, if_pos h.2]

theorem linkBadFrame (link : Nat) (run : List Byte) : Statement (.linkBadFrame link run) := fun _ => trivial

theorem linkUnknownFrame (link : Nat) (run : List Byte) : Statement (.linkUnknownFrame link run) := fun _ => trivial

theorem reconciliationTimerExpiry (link : Nat) (slot : Nat) : Statement (.reconciliationTimerExpiry link slot) :=
    fun _ => trivial

theorem permitTransferExpiry (link : Nat) (slot : Nat) : Statement (.permitTransferExpiry link slot) := fun _ => trivial

theorem acceptanceTimerExpiry (link : Nat) (slot : Nat) : Statement (.acceptanceTimerExpiry link slot) :=
    fun _ => trivial

theorem transitTimerExpiry (link : Nat) (slot : Nat) : Statement (.transitTimerExpiry link slot) := fun _ => trivial

theorem reservationReleaseExpiry (link : Nat) (slot : Nat) : Statement (.reservationReleaseExpiry link slot) :=
    fun _ => trivial

theorem imageCheckTimerExpiry : Statement (.imageCheckTimerExpiry) := fun _ => trivial

theorem healthToggle : Statement (.healthToggle) := fun _ => trivial

theorem linkMismatchedFrame (link : Nat) (run : List Byte) : Statement (.linkMismatchedFrame link run) :=
    fun _ => trivial

theorem deviceTimeTick : Statement (.deviceTimeTick) := fun _ => trivial

end Sys2Proof.Laws.WireForm
end

