-- ==== Sys2Proof/Tests/Slice0.lean ====
section
/-!
SUPPORT. Tests of the model: ill-formed commands that the well-formedness test refuses, worked cases of the spec, one step
at a time, and for every statement with hypotheses a state and operands that meet them.
-/

open Sys2Proof Sys2Proof.Machine

set_option Elab.async false

namespace Sys2Proof.Tests

/-! ## A small yard -/

/-- A section that both channels report clear. -/
def clearSection (id : Nat) : SectionRec :=
  { newSection id with viewA := .clear, viewB := .clear, status := .clear }

/-- A section that both channels report occupied. -/
def occupiedSection (id : Nat) : SectionRec := { newSection id with viewA := .occupied, viewB := .occupied }

/-- A point at rest in NORMAL. -/
def normalPoint (id sec : Nat) : PointRec :=
  { newPoint id sec 60 with viewA := .normal, viewB := .normal, status := .normal }

/-- A signal at danger. -/
def dangerSignal (id sec : Nat) : SignalRec :=
  { newSignal id sec with viewA := .danger, viewB := .danger, status := .danger }

/-- A supervised channel. -/
def activeChannel : ChannelRec :=
  { state := .active, cause := some .firstFrame, supervision := ⟨.running, 500⟩, pauseLimit := .off, crst := false
    resetMark := none }

/-- Route 5 from signal 200 over sections 1 and 2 to signal 201, with point 100 in NORMAL, a flank entry for its first
section and an overlap. -/
def route5 : RouteDef :=
  { id := 5, entry := 200, exit := .signal 201, secs := [1, 2], points := [⟨100, .normal⟩]
    variants := [⟨[4], []⟩], flanks := [⟨1, .sec 1, [.point 101 .normal, .signal 202]⟩]
    approach := [3], length := 600, speed := 60, brake := 0, mode := .sequential }

/-- Route 6 from signal 201 over section 2 to slot 0 of link 0. -/
def route6 : RouteDef :=
  { id := 6, entry := 201, exit := .boundary ⟨0, 0⟩, secs := [2], points := [], variants := [], flanks := []
    approach := [1], length := 600, speed := 60, brake := 0, mode := .whole }

/-- A link in UP. -/
def upLink : Link :=
  { Link.initial 0 (some ⟨1, 9⟩) with
    state := .up, cause := .trained, offer := 100, period := some 100, sendTimer := ⟨.running, 100⟩
    supervision := ⟨.running, 400⟩ }

/-- A slot that holds its permit, reconciled, with nothing handed over. -/
def restingSlot (i b : Nat) : Slot := { newSlot ⟨⟨0, i⟩, b, 3, 1, 600⟩ with permit := .heldHere, reconciled := true }

/-- The yard: in service, both channels active, everything at rest. -/
def yard : State :=
  { State.reset with
    dev := { Device.loading false with
      state := .inService, area := 7, brakes := List.replicate 16 60
      active := [100, 500, 1000, 0, 20, 20, 10, 30, 100, 300, 200, 100, 100, 4, 80, 600]
      pendingParams := [100, 500, 1000, 0, 20, 20, 10, 30, 100, 300, 200, 100, 100, 4, 80, 600]
      digest := some (imageCrc []), checkTimer := ⟨.running, 100⟩ }
    sections := [clearSection 1, clearSection 2, clearSection 3, clearSection 4]
    points := [normalPoint 100 1, normalPoint 101 3]
    signals := [dangerSignal 200 1, dangerSignal 201 2, dangerSignal 202 3]
    store := [route5, route6]
    links := [upLink, .initial 1 none, .initial 2 none, .initial 3 none]
    slots := [restingSlot 0 4]
    chanA := activeChannel, chanB := activeChannel
    choices := List.replicate 24 0 }

/-- The active record of route 5 in a state. -/
def active5 (st : RouteState) : ActiveRoute :=
  { id := 5, variant := some 0, state := st, permittedBefore := st == .permitted || st == .entered, grantAllowed := true
    cursor := 1, released := [false, false], marks := [false, false], received := false, gapped := false
    transitLost := false, overlap := .held, options := [1]
    setting := .off, overlapTimer := .off, release := .off, releaseT := 0, saturated := false, exitSlot := none
    flanks := [⟨1, .sec 1, .point 101 .normal, true, true⟩] }

/-- The yard with route 5 set. -/
def setYard (a : ActiveRoute) : State :=
  { yard with
    sections := [{ clearSection 1 with holder := .route 5 }, { clearSection 2 with holder := .route 5 }, clearSection 3,
      { clearSection 4 with holder := .overlap 5 }]
    points := [{ normalPoint 100 1 with hold := .route 5 .normal },
      { normalPoint 101 3 with claims := [⟨5, 1⟩], claimPos := some .normal }]
    signals := [{ dangerSignal 200 1 with entryOf := some 5, perm := if a.state = .permitted then some 5 else none },
      dangerSignal 201 2, dangerSignal 202 3]
    routes := [a] }

/-- The events that a command leaves at channel A, oldest first. -/
def news : Host.Outcome State Fault Refusal → List Event
  | .next t => t.queueA.records.map (·.event)
  | _ => []

/-- The response that channel `ch` reads after a command. -/
def responseOf (ch : Channel) : Host.Outcome State Fault Refusal → Option (Status × List Byte)
  | .next t => ((t.port ch).response).map (fun r => (r.status, r.body))
  | _ => none

/-- A projection of the state after a command. -/
def after {α : Type} (g : State → α) : Host.Outcome State Fault Refusal → Option α
  | .next t => some (g t)
  | _ => none

/-- The state in which the other channel's half of a request waits. -/
def waiting (f : RequestFrame) (s : State) : State :=
  { s with table := [{ tag := f.tag, filler := f.ch.other, kind := f.kind, body := f.body, window := ⟨.running, 100⟩ }] }

/-- A concurred request completed on a state. -/
def concurred (c : Instr) (s : State) : Host.Outcome State Fault Refusal :=
  match requestOf c with
  | some f => exec c (waiting f s)
  | none => .next s

/-- The test that `Completes` makes, as a Boolean. -/
def completesB (f : RequestFrame) (s : State) : Bool :=
  !(s.chan f.ch).crst && (s.chan f.ch).state == .active && Nat.ble f.body.length 200 && lengthOk f.kind f.body.length
    && inRange f.kind f.body && isConcurred f.kind
    && (s.dev.state == .inService
      || (s.dev.state == .awaiting && (f.kind == .acceptConfiguration || f.kind == .deviceReset)))
    && (match s.table.find? (fun x => x.tag == f.tag) with
        | some h => h.filler == f.ch.other && h.kind == f.kind && h.body == f.body
        | none => false)

theorem completes_of {f : RequestFrame} {s : State} (h : completesB f s = true) : Completes f s := by
  simp only [completesB, Bool.and_eq_true, Bool.not_eq_true', beq_iff_eq, Bool.or_eq_true] at h
  obtain ⟨⟨⟨⟨⟨⟨⟨h1, h2⟩, h3⟩, h4⟩, h5⟩, h6⟩, h7⟩, h8⟩ := h
  refine ⟨⟨h1, h2, Nat.le_of_ble_eq_true h3, h4, h5⟩, h6, h7, ?_⟩
  split at h8
  · next x hx => simp only [Bool.and_eq_true, beq_iff_eq] at h8; exact ⟨x, hx, h8.1.1, h8.1.2, h8.2⟩
  · cases h8

/-- The test that `Serves` makes, as a Boolean. -/
def servesB (f : RequestFrame) (s : State) : Bool :=
  !(s.chan f.ch).crst && (s.chan f.ch).state == .active && Nat.ble f.body.length 200 && lengthOk f.kind f.body.length
    && inRange f.kind f.body

theorem serves_of {f : RequestFrame} {s : State} (h : servesB f s = true) : Serves f s := by
  simp only [servesB, Bool.and_eq_true, Bool.not_eq_true', beq_iff_eq] at h
  obtain ⟨⟨⟨⟨h1, h2⟩, h3⟩, h4⟩, h5⟩ := h
  exact ⟨h1, h2, Nat.le_of_ble_eq_true h3, h4, h5⟩

/-! ## Ill-formed commands: one for each check of `Instr.wellFormed` -/

/-- Element ids, link and slot numbers, positions, counts and modes out of range (R1, R135, R151, R172). -/
theorem test_wellFormed_requests : [
    Instr.reportFieldStatus .A 0 [], .reportFieldStatus .A 0 (List.replicate 33 ⟨1, 1⟩), .reportFieldStatus .A 0 [⟨512, 1⟩],
    .readElement .A 0 512, .readSlot .A 0 4 0, .readSlot .A 0 0 8, .readLink .A 0 4, .readEvents .A 0 0, .readEvents .A 0 9,
    .movePoint .A 0 512 1, .movePoint .A 0 0 3, .blockElement .A 0 512, .unblockElement .A 0 512, .inhibitSet .A 0 512,
    .inhibitClear .A 0 512, .elementRestore .A 0 512, .requestPermit .A 0 4 0, .blockSlot .A 0 0 8, .unblockSlot .A 0 4 0,
    .restoreSlot .A 0 0 0 0, .restoreSlot .A 0 4 0 1, .releaseReservation .A 0 0 8, .linkTest .A 0 4 (List.replicate 16 0) 1,
    .linkTest .A 0 0 [] 1].all (fun i => !i.wellFormed) = true := by decide +kernel

/-- Timers of elements, routes, links and slots that do not exist, and link frames that do not decode (R175, R176). -/
theorem test_wellFormed_others : [
    Instr.clearanceTimerExpiry 512, .sectionDiscrepancyExpiry 512, .pointDiscrepancyExpiry 512, .signalDiscrepancyExpiry 512,
    .moveSupervisionExpiry 512, .settingTimerExpiry 256, .overlapTimerExpiry 256, .releaseTimerExpiry 256,
    .watchTimerExpiry 512, .linkSendTimerExpiry 4, .trainingTimerExpiry 4, .linkSupervisionExpiry 4, .answerTimerExpiry 4,
    .echoTimerExpiry 4, .linkTrainFrame 4 0 0 50 0, .linkTrainFrame 0 0 0 49 0, .linkTrainFrame 0 0 0 1001 0,
    .linkCyclicFrame 0 0 0 0 [], .linkCyclicFrame 0 0 0 0 (List.replicate 24 9), .linkLoopFrame 0 0 [],
    .linkUnknownFrame 0 [], .linkMismatchedFrame 0 [], .linkBadFrame 4 [], .reconciliationTimerExpiry 4 0,
    .permitTransferExpiry 0 8, .acceptanceTimerExpiry 4 0, .transitTimerExpiry 0 8, .reservationReleaseExpiry 4 0,
    .invalidRequestFrame .A ([0, 8, 1] ++ b2 (crc16 [0, 8, 1]))].all (fun i => !i.wellFormed) = true := by
  decide +kernel

/-! ## Check values and worked cases of the spec -/

/-- The check values of the two polynomials over the nine digits (R173, R174). -/
theorem test_crc : crc16 ([49, 50, 51, 52, 53, 54, 55, 56, 57].map (BitVec.ofNat 8)) = 0x29B1
    ∧ crc32 ([49, 50, 51, 52, 53, 54, 55, 56, 57].map (BitVec.ofNat 8)) = 0xCBF43926 := by decide +kernel

/-- Worked cases A and B of the release time (R119, R120). -/
theorem test_release_time : limitReleaseTime 150 (rawReleaseTime 1200 120 60 30) = (669, false)
    ∧ limitReleaseTime 150 (rawReleaseTime 3000 10 40 30) = (6000, true)
    ∧ limitReleaseTime 150 (rawReleaseTime 500 120 60 30) = (586, false)
    ∧ limitReleaseTime 150 (rawReleaseTime 0 40 150 0) = (150, false) := by decide +kernel

/-- Steps 2, 3, 6 and 8 of the overflowing queue: 62 events, six offers, 9 records read (section 10.5). -/
theorem test_queue :
    let e (n : Nat) : Event := .parametersApplied n
    let q : EventQueue := ⟨List.replicate 62 ⟨e 0, 0⟩, 0⟩
    let full := ((((q.offer .B 0 (e 1)).offer .B 0 (e 2)).offer .B 0 (e 3)).offer .B 0 (e 4))
    let six := EventQueue.offer ⟨full.records.drop 1, full.lost⟩ .B 0 (e 5)
    let last := EventQueue.offer ⟨six.records.drop 8, six.lost⟩ .B 0 (e 6)
    (full.records.length, full.lost, six.records.length, six.lost, last.records.length, last.lost) = (64, 2, 64, 1, 58, 0)
      ∧ (last.records.map (·.event)).drop 53 = [e 1, e 2, .lost .B 2, .lost .B 1, e 6] := by decide +kernel

/-- An image of no elements for area 4120 with links 0 and 2, its CRC-32 computed outside the model. -/
def smallImage : List Byte :=
  [0, 1, 16, 24, 0, 0, 0, 0, 0, 0, 0, 2, 0, 0, 0, 68, 98, 17, 66, 122, 0, 1, 0, 9, 2, 2, 0, 11, 60, 60, 60, 60, 60, 60, 60,
   60, 0, 100, 1, 44, 1, 244, 0, 20, 0, 20, 0, 30, 0, 20, 0, 30, 0, 150, 2, 88, 0, 150, 0, 50, 0, 100, 0, 4, 0, 80, 1, 44]

/-- Start-up at the end of the image read, and an image whose last byte is another (section 11.6, R163). -/
theorem test_image : news (exec (.imageReadComplete smallImage) State.reset) =
      [.deviceState .awaiting .loaded none, .linkState 0 .down .start, .linkState 2 .down .start]
    ∧ news (exec (.imageReadComplete (smallImage.dropLast ++ [45])) { State.reset with choices := [0, 0, 0, 0, 0, 0] }) =
      [.deviceState .safeHalt .config (some .imageCrc)] := by decide +kernel

/-! ## Witnesses: elements -/

/-- The parts of an image with a route of each exit, an overlap, a flank entry, a slot and a link. -/
def wholeImage : Image :=
  let h : ImgHeader := { format := 1, area := 7, elems := 7, routes := 2, flanks := 1, slots := 1, links := 1, length := 0, crc := 0 }
  let r : ImgRoute := { id := 5, entry := 200, exitKind := 1, exitId := 201, nSecs := 2, secs := [1, 2], nPoints := 1
                        points := [(100, 1)], nVariants := 1, variants := [⟨1, [4], 0, []⟩], nFlanks := 1, nApproach := 1
                        approach := [3], length := 600, speed := 60, brake := 0, mode := 1 }
  { header := { h with length := lengthFor h }
    elems := [⟨1, 1, 0, 0⟩, ⟨2, 1, 0, 0⟩, ⟨3, 1, 0, 0⟩, ⟨4, 1, 0, 0⟩, ⟨100, 2, 1, 60⟩, ⟨200, 3, 1, 0⟩, ⟨201, 3, 2, 0⟩]
    routes := [r, { r with id := 6, entry := 201, exitKind := 2, exitId := 0, nSecs := 2, secs := [2, 4], nPoints := 0
                           points := [], nVariants := 0, variants := [], nFlanks := 0 }]
    flanks := [⟨5, 1, 0, 1, [⟨2, 201, 0⟩]⟩], slots := [⟨⟨0, 0⟩, 4, 3, 1, 600⟩], links := [⟨0, 1, 9⟩]
    rates := List.replicate 8 60, params := yard.dev.active }

/-- Such parts pass; one fault in each of checks 4 to 12 names its item and index (R163). -/
theorem test_image_parts :
    let m := wholeImage
    let withRoute (f : ImgRoute → ImgRoute) : Image := { m with routes := m.routes.map f }
    [m, { m with elems := m.elems ++ [⟨512, 1, 0, 0⟩] }, { m with slots := [⟨⟨0, 0⟩, 200, 3, 1, 600⟩] },
      withRoute (fun r => { r with approach := [2] }), { m with flanks := [⟨5, 2, 0, 1, [⟨2, 201, 0⟩]⟩] },
      { m with slots := [⟨⟨0, 0⟩, 1, 3, 1, 600⟩] }, { m with links := [⟨0, 5, 9⟩] },
      { m with slots := [⟨⟨0, 0⟩, 4, 3, 1, 49⟩] }, withRoute (fun r => { r with speed := 61 }),
      { m with params := m.params.set 15 49 }].map checkParts =
      [none, some (.idRange, 7), some (.kind, 10), some (.route, 5), some (.guard, 5 * 256 + 2), some (.slot, 0),
       some (.link, 0), some (.time, 0), some (.route, 5), some (.parameter, 16)] := by decide +kernel

/-- The point 100 in a move toward REVERSE. -/
def movingYard : State := yard.mapPoint 100 (fun x =>
  { x with move := some ⟨.reverse, 0⟩, status := .moving, moveTimer := ⟨.running, 60⟩ })

/-- A section, a point and a signal whose views differ, with their timers; section 2 in CLEARING. -/
def discYard : State :=
  { yard with
    sections := [{ clearSection 1 with viewB := .occupied, status := .occupied, disc := ⟨.running, 20⟩ },
      { clearSection 2 with status := .clearing, clearance := ⟨.running, 20⟩ }, clearSection 3, clearSection 4]
    points := [{ normalPoint 100 1 with viewB := .reverse, status := .undetected, disc := ⟨.running, 20⟩ }, normalPoint 101 3]
    signals := [{ dangerSignal 200 1 with
      viewB := .proceed, status := .proceed, disc := ⟨.running, 10⟩, watch := ⟨.running, 10⟩ }, dangerSignal 201 2] }

theorem witness_StepRunsFrontCommand :
    { yard with pending := [Instr.selectRise .A] }.pending = .selectRise .A :: [] ∧ yard.pending = [] := ⟨rfl, rfl⟩

theorem witness_SectionFollowsViews : (clearSection 1).Lawful ∧ (clearSection 1).view .A ≠ .occupied :=
  ⟨⟨by decide, by decide, by decide⟩, by decide⟩

/-- The three columns of R5: to OCCUPIED, then to CLEARING with P4, or straight to CLEAR with a delay of 0; R6 between. -/
theorem test_section_views :
    let x := (clearSection 1).withView 20 30 .A .occupied
    let y := (x.withView 20 30 .A .clear)
    let z := (x.withView 0 30 .A .clear)
    (x.status, x.disc) = (.occupied, ⟨.running, 30⟩) ∧ (y.status, y.clearance, y.disc) = (.clearing, ⟨.running, 20⟩, ⟨.stopped, 0⟩)
      ∧ (z.status, z.clearance) = (.clear, ⟨.stopped, 0⟩) := by decide +kernel

theorem witness_PointFollowsViews : (normalPoint 100 1).view .B ≠ .reverse := by decide

/-- Both views UNKNOWN, and a view of DARK under a mask, are no DARK (R13). -/
theorem test_signal_status :
    (newSignal 200 1).derivedStatus = .unproven ∧ { dangerSignal 200 1 with viewA := .dark }.derivedStatus = .dark
      ∧ { dangerSignal 200 1 with viewA := .dark, mask := true }.derivedStatus = .danger
      ∧ { dangerSignal 200 1 with viewA := .proceed, mask := true }.derivedStatus = .proceed := by decide +kernel

theorem witness_FieldReportSetsViews :
    Serves ⟨.A, .reportFieldStatus, 9, [⟨1, 2⟩, ⟨100, 2⟩, ⟨200, 2⟩].flatMap itemBytes⟩ yard
      ∧ yard.section? 1 = some (clearSection 1) ∧ yard.point? 100 = some (normalPoint 100 1)
      ∧ yard.section? 200 = none ∧ yard.point? 200 = none ∧ yard.signal? 200 = some (dangerSignal 200 1) :=
  ⟨serves_of (by decide +kernel), by decide +kernel⟩

/-- A change of the record of channel B. -/
def withB (g : ChannelRec → ChannelRec) (s : State) : State := { s with chanB := g s.chanB }

/-- The same yard with channel B PAUSED: its line is low, and a report of one and of 32 items may come, with ids up to 511 in
range (R4, R151). -/
theorem witness_FieldReportSetsViews_paused :
    let s := withB (fun c => { c with state := .paused }) yard
    let one : List ReportItem := [⟨511, 2⟩]
    let most : List ReportItem := List.replicate 32 ⟨1, 2⟩
    (s.chan .B).crst = false ∧ (s.chan .B).state = .paused ∧ one.length = 1 ∧ most.length = 32
      ∧ inRange .reportFieldStatus (one.flatMap itemBytes) = true
      ∧ inRange .reportFieldStatus (most.flatMap itemBytes) = true := by decide +kernel

/-- A report of a PAUSED channel is skipped whole and changes no view (R4), one with an id out of range is BAD_VALUE (R151), and its
reads are served (R35). -/
theorem test_paused_report :
    let s := withB (fun c => { c with state := .paused, supervision := .off }) yard
    let o := exec (.reportFieldStatus .B 9 [⟨1, 2⟩, ⟨100, 2⟩]) s
    responseOf .B o = some (.done, [0, 2]) ∧ after (fun t => (t.sections == s.sections, t.points == s.points)) o = some (true, true)
      ∧ after (fun t => (t.chanB.supervision, (t.portB.response.map (·.status)))) (exec (.readElement .B 9 1) s) =
        some (.off, some .done)
      ∧ responseOf .B (exec (.reportFieldStatus .B 9 [⟨512, 2⟩]) s) = some (.badValue, []) := by decide +kernel

/-- An item of an unused id and one of a state that its kind does not have are skipped (R4). -/
theorem test_report_skips : responseOf .A (exec (.reportFieldStatus .A 9 [⟨1, 2⟩, ⟨300, 1⟩, ⟨2, 3⟩]) yard) =
    some (.done, [1, 2]) := by decide +kernel

theorem witness_OneReportedState :
    (Serves ⟨.A, .reportFieldStatus, 9, itemBytes ⟨1, 2⟩⟩ yard ∧ yard.section? 1 = some (clearSection 1)
      ∧ secViewOf 2 = some .occupied)
    ∧ (Serves ⟨.A, .reportFieldStatus, 9, itemBytes ⟨200, 2⟩⟩ yard ∧ yard.section? 200 = none ∧ yard.point? 200 = none
      ∧ yard.signal? 200 = some (dangerSignal 200 1) ∧ signalViewOf 2 = some .proceed)
    ∧ (Serves ⟨.A, .reportFieldStatus, 9, itemBytes ⟨100, 3⟩⟩ yard ∧ yard.section? 100 = none
      ∧ yard.point? 100 = some (normalPoint 100 1) ∧ (normalPoint 100 1).move = none
      ∧ pointViewOf 3 = some .noDetection) :=
  ⟨⟨serves_of (by decide +kernel), by decide +kernel⟩, ⟨serves_of (by decide +kernel), by decide +kernel⟩,
    ⟨serves_of (by decide +kernel), by decide +kernel⟩⟩

/-- A point at rest loses its detection (R7). -/
theorem test_detection_lost : news (exec (.reportFieldStatus .A 9 [⟨100, 3⟩]) yard) = [.detectionLost 100 .normal] := by
  decide +kernel

/-- The last report of a move: both views at the target. -/
def arrivingYard : State := { movingYard.mapPoint 100 (fun x => { x with viewA := .reverse, viewB := .noDetection }) with
  dev := { yard.dev with time := 49 } }

theorem witness_MoveCompletesAtBothViews :
    Serves ⟨.B, .reportFieldStatus, 9, itemBytes ⟨100, 2⟩⟩ arrivingYard ∧ arrivingYard.section? 100 = none
      ∧ (∃ x, arrivingYard.point? 100 = some x ∧ x.move = some ⟨.reverse, 0⟩ ∧ x.view .B ≠ .reverse)
      ∧ pointViewOf 2 = some .reverse :=
  ⟨serves_of (by decide +kernel), by decide +kernel, ⟨_, rfl, by decide +kernel⟩, by decide +kernel⟩

/-- The worked slow move: 49 ds of 60 ds at a threshold of 80 % (section 1.4). -/
theorem test_slow_move : news (exec (.reportFieldStatus .B 9 [⟨100, 2⟩]) arrivingYard) =
    [.moveDone 100 .reverse 49, .pointSlow 100 49 60] := by decide +kernel

theorem witness_ElementTimersExpire :
    (∃ x, discYard.section? 2 = some x ∧ x.status = .clearing ∧ x.clearance.mode = .running)
    ∧ (∃ x, yard.section? 2 = some x ∧ ¬ (x.status = .clearing ∧ x.clearance.mode = .running))
    ∧ (∃ x, discYard.section? 1 = some x ∧ x.disc.mode = .running ∧ x.faulted = false)
    ∧ (∃ x, discYard.point? 100 = some x ∧ x.disc.mode = .running ∧ x.faulted = false)
    ∧ (∃ x, discYard.signal? 200 = some x ∧ x.disc.mode = .running ∧ x.faulted = false)
    ∧ (∃ x, movingYard.point? 100 = some x ∧ x.move = some ⟨.reverse, 0⟩ ∧ x.moveTimer.mode = .running) :=
  ⟨⟨_, rfl, by decide +kernel⟩, ⟨_, rfl, by decide +kernel⟩, ⟨_, rfl, by decide +kernel⟩, ⟨_, rfl, by decide +kernel⟩,
    ⟨_, rfl, by decide +kernel⟩, ⟨_, rfl, by decide +kernel⟩⟩

/-- A failed move (R11) and the three discrepancies (R6, R8, R14). -/
theorem test_element_expiries :
    news (exec (.moveSupervisionExpiry 100) movingYard) = [.moveFailed 100 .reverse]
      ∧ [exec (.sectionDiscrepancyExpiry 1) discYard, exec (.pointDiscrepancyExpiry 100) discYard,
          exec (.signalDiscrepancyExpiry 200) discYard].map news =
        [[.elementFault 1], [.elementFault 100], [.elementFault 200]] := by decide +kernel

/-- MOVE POINT of point 100 to REVERSE with its half waiting. -/
def moves (s : State) : List Event := news (concurred (.movePoint .A 9 100 2) s)

theorem witness_MovePointTable :
    Completes ⟨.A, .movePoint, 9, b2 100 ++ [2]⟩ (waiting ⟨.A, .movePoint, 9, b2 100 ++ [2]⟩ yard) ∧ posOf 2 = some .reverse :=
  ⟨completes_of (by decide +kernel), by decide +kernel⟩

/-- The eight lines of the table of R20. -/
theorem test_move_point : [
    news (concurred (.movePoint .A 9 1 2) yard), moves (yard.mapPoint 100 (fun x => { x with hold := .route 5 .normal })),
    moves (yard.mapPoint 100 (fun x => { x with block := true })), moves (yard.mapSection 1 (fun _ => occupiedSection 1)),
    moves (yard.mapPoint 100 (fun x => { x with faulted := true })), news (concurred (.movePoint .A 9 100 1) yard),
    moves movingYard, moves yard] =
    [[.requestDone 9 .movePoint .notConfigured 1], [.requestDone 9 .movePoint .held 100],
     [.requestDone 9 .movePoint .blocked 100], [.requestDone 9 .movePoint .occupied 100],
     [.requestDone 9 .movePoint .faulted 100], [.requestDone 9 .movePoint .done 0], [.requestDone 9 .movePoint .done 0],
     [.requestDone 9 .movePoint .done 0, .moveCall 100 .reverse]] := by decide +kernel

theorem witness_BlocksAndMasks :
    Completes ⟨.A, .blockElement, 9, b2 1⟩ (waiting ⟨.A, .blockElement, 9, b2 1⟩ yard)
    ∧ Completes ⟨.A, .unblockElement, 9, b2 100⟩ (waiting ⟨.A, .unblockElement, 9, b2 100⟩ yard)
    ∧ Completes ⟨.A, .inhibitSet, 9, b2 200⟩ (waiting ⟨.A, .inhibitSet, 9, b2 200⟩ yard)
    ∧ Completes ⟨.A, .inhibitClear, 9, b2 300⟩ (waiting ⟨.A, .inhibitClear, 9, b2 300⟩ yard) :=
  ⟨completes_of (by decide +kernel), completes_of (by decide +kernel), completes_of (by decide +kernel),
    completes_of (by decide +kernel)⟩

/-- Block and mask of each kind of element, and of an unused id (R18, R19). -/
theorem test_blocks_and_masks :
    after (fun t => t.sections.map (·.block)) (concurred (.blockElement .A 9 1) yard) = some [true, false, false, false]
    ∧ after (fun t => t.points.map (·.block)) (concurred (.blockElement .A 9 101) yard) = some [false, true]
    ∧ after (fun t => t.sections.map (·.status)) (concurred (.inhibitSet .A 9 2) yard) =
      some [.clear, .occupied, .clear, .clear]
    ∧ after (fun t => t.points.map (·.status)) (concurred (.inhibitSet .A 9 100) yard) = some [.undetected, .normal]
    ∧ news (concurred (.inhibitClear .A 9 300) yard) = [.requestDone 9 .inhibitClear .notConfigured 0] := by decide +kernel

theorem witness_ElementRestores :
    Completes ⟨.A, .elementRestore, 9, b2 1⟩ (waiting ⟨.A, .elementRestore, 9, b2 1⟩ yard) :=
  completes_of (by decide +kernel)

/-- A FAULTED element of each kind with agreed views is restored; one whose views differ, one that is not FAULTED and an
unused id are refused (R17). -/
theorem test_restore : [
    news (concurred (.elementRestore .A 9 1) (yard.mapSection 1 (fun x => { x with faulted := true, status := .occupied }))),
    news (concurred (.elementRestore .A 9 100) (yard.mapPoint 100 (fun x => { x with faulted := true }))),
    news (concurred (.elementRestore .A 9 200) (yard.mapSignal 200 (fun x => { x with faulted := true }))),
    news (concurred (.elementRestore .A 9 100) (yard.mapPoint 100 (fun x => { x with faulted := true, viewA := .reverse }))),
    news (concurred (.elementRestore .A 9 2) yard), news (concurred (.elementRestore .A 9 300) yard)] =
    [[.requestDone 9 .elementRestore .done 0, .elementRestored 1], [.requestDone 9 .elementRestore .done 0, .elementRestored 100],
     [.requestDone 9 .elementRestore .done 0, .elementRestored 200], [.requestDone 9 .elementRestore .wrongState 0],
     [.requestDone 9 .elementRestore .wrongState 0], [.requestDone 9 .elementRestore .notConfigured 0]] := by decide +kernel

/-! ## Witnesses: channels, ports and the Concurrence Table -/

/-- The yard with a half of SET ROUTE (5, 0) from channel A under tag 9. -/
def heldYard : State := waiting ⟨.B, .setRoute, 9, [5, 0]⟩ yard

theorem witness_HalfIsDecidedByTable :
    requestOf (.setRoute .B 9 5 1) = some ⟨.B, .setRoute, 9, [5, 1]⟩ ∧ isConcurred .setRoute = true
      ∧ Serves ⟨.B, .setRoute, 9, [5, 1]⟩ heldYard :=
  ⟨rfl, rfl, serves_of (by decide +kernel)⟩

/-- The lines of R24 and R26: the response to the half. -/
theorem test_halves : [
    responseOf .B (exec (.setRoute .B 9 5 0) { heldYard with dev := { heldYard.dev with state := .awaiting } }),
    responseOf .B (exec (.setRoute .B 9 5 0) heldYard), responseOf .B (exec (.setRoute .B 9 5 1) heldYard),
    responseOf .A (exec (.setRoute .A 9 5 0) heldYard),
    responseOf .A (exec (.setRoute .A 8 5 0) (withB (fun c => { c with state := .lost }) heldYard)),
    responseOf .A (exec (.setRoute .A 200 5 0) { yard with table := (List.range 16).map (fun n =>
      { tag := BitVec.ofNat 8 n, filler := .A, kind := .setRoute, body := [], window := ⟨.running, 1⟩ }) }),
    responseOf .A (exec (.setRoute .A 8 5 0) heldYard)] =
    [some (.notInService, []), some (.concurred, [0x20, 0, 0, 0]), some (.disagree, []), some (.tagBusy, []),
     some (.channelLost, []), some (.tableFull, []), some (.halfHeld, [])] := by decide +kernel

theorem witness_FramesTurnedAway :
    requestOf (.readLink .B 9 4) = some ⟨.B, .readLink, 9, [4]⟩ ∧ [(4 : Byte)].length ≤ 200 := ⟨rfl, by decide⟩

/-- CRST asserted; a LOST channel; a field out of range; a half of a PAUSED channel; a body of another length (R39, R150, R151). -/
theorem test_turned_away : [
    responseOf .B (exec (.readLink .B 9 4) (withB (fun c => { c with crst := true }) yard)),
    responseOf .B (exec (.readLink .B 9 4) (withB (fun c => { c with state := .lost }) yard)),
    responseOf .B (exec (.readLink .B 9 4) yard), responseOf .B (exec (.readLink .B 9 4) (withB (fun c => { c with state := .paused }) yard)),
    responseOf .B (exec (.setRoute .B 9 5 0) (withB (fun c => { c with state := .paused }) yard)),
    responseOf .B (exec (.reportFieldStatus .B 9 []) yard)] =
    [none, some (.channelLost, []), some (.badValue, []), some (.badValue, []), some (.channelPaused, []),
     some (.badLength, [])] := by decide +kernel

/-- The window of the half of tag 9 lapses; a suspended window does not (R29, R30). -/
theorem test_window : news (exec (.windowTimerExpiry 9) heldYard) = [.requestDone 9 .setRoute .lapsed 0]
    ∧ news (exec (.windowTimerExpiry 9) { heldYard with table := heldYard.table.map (fun h =>
      { h with window := ⟨.suspended, 60⟩ }) }) = [] := by decide +kernel

/-- The loss of channel B and its reset with a half in the table (R37, R39): first the halves, then the channel. -/
theorem test_channel_leaves :
    (news (exec (.supervisionTimerExpiry .B) { heldYard with points := [], routes := [] })).take 2 =
      [.requestDone 9 .setRoute .withdrawn 0, .channelState .B .lost .supervision]
    ∧ (news (exec (.crstAsserted .B) { heldYard with points := [] })).take 2 =
      [.requestDone 9 .setRoute .withdrawn 0, .channelState .B .absent .channelReset]
    ∧ after (fun t => (t.queueB.records, t.chanB.crst)) (exec (.crstAsserted .B) { heldYard with points := [] }) =
      some ([], true) := by decide +kernel

/-- CRST_A and then CRST_B with nothing between them, as the free value decides: together, both queues are empty (R39), else
CHANNEL_STATE stands in the first channel's queue (R161). After an event, a decisecond or a release in between the first
channel's queue is kept whatever the free value (log 42). -/
theorem test_both_resets :
    let second (c : List Nat) (g : State → State) : Option (List Event × List Event) :=
      match exec (.crstAsserted .A) { heldYard with points := [] } with
      | .next t => after (fun t => (t.queueA.records.map (·.event), t.queueB.records.map (·.event)))
          (exec (.crstAsserted .B) { g t with choices := c })
      | _ => none
    let ones := List.replicate 64 1
    let lost : Event := .channelState .B .absent .channelReset
    second ones id = some ([], []) ∧ second (List.replicate 64 0) id = some ([lost], [])
      ∧ second ones tick = some ([lost], []) ∧ second ones (releaseCrst .A) = some ([lost], [])
      ∧ second ones (emit (.elementFault 4)) = some ([.elementFault 4, lost], []) := by decide +kernel

/-- An element whose status the loss of channel B changes, of each kind, and one that it leaves as it was. -/
theorem witness_SilentChannelIsLost_elements :
    let t := viewsUnknown .B yard
    (∃ x ∈ yard.sections, ∃ y, t.section? x.id = some y ∧ y.status ≠ x.status)
      ∧ (∃ x ∈ yard.points, ∃ y, t.point? x.id = some y ∧ y.viewB ≠ x.viewB ∧ y.move = none ∧ y.status = .undetected
        ∧ x.status.pos? = some .normal)
      ∧ (∃ x ∈ yard.signals, ∃ y, t.signal? x.id = some y ∧ y.status ≠ x.status)
      ∧ ∃ x ∈ movingYard.points, ∃ y, (viewsUnknown .B movingYard).point? x.id = some y ∧ y.move ≠ none ∧ y.viewB = .unknown :=
  ⟨⟨clearSection 1, by decide +kernel, _, rfl, by decide +kernel⟩, ⟨normalPoint 100 1, by decide +kernel, _, rfl, by decide +kernel⟩,
    ⟨dangerSignal 200 1, by decide +kernel, _, rfl, by decide +kernel⟩, ⟨movingYard.points.head (by decide +kernel),
      by decide +kernel, _, rfl, by decide +kernel⟩⟩

theorem witness_PauseAndResume :
    (yard.chan .B).crst = false ∧ (yard.chan .B).state = .active ∧ (yard.chan .A).state = .active
      ∧ ((withB (fun c => { c with state := .paused }) yard).chan .B).state = .paused
      ∧ ((withB (fun c => { c with state := .paused }) yard).chan .B).crst = false := by decide +kernel

/-- PAUSE, and PAUSE while the other channel is not ACTIVE (R35). -/
theorem test_pause : responseOf .B (exec (.pause .B 9) heldYard) = some (.done, [])
    ∧ after (fun t => t.table.map (·.window)) (exec (.pause .B 9) heldYard) = some [⟨.suspended, 100⟩]
    ∧ responseOf .A (exec (.pause .A 9) (withB (fun c => { c with state := .paused }) yard)) = some (.otherPaused, [])
    ∧ responseOf .B (exec (.resume .B 9) yard) = some (.wrongState, []) := by decide +kernel

theorem witness_FirstFrameActivates :
    let s := withB (fun _ => .initial false) yard
    (s.chan .B).crst = false ∧ (s.chan .B).state = .absent
      ∧ [Instr.pause .B 9, .movePoint .B 9 100 2, .readStatus .B 9, .moveSupervisionExpiry 0].map requestOf =
        [some ⟨.B, .pause, 9, []⟩, some ⟨.B, .movePoint, 9, [0, 100, 2]⟩, some ⟨.B, .readStatus, 9, []⟩, none]
      ∧ lengthOk .pause 0 = true ∧ lengthOk .movePoint 3 = true := by decide +kernel

/-- The first frame of channel B is a half of MOVE POINT: CHANNEL_STATE first, and the half is held (R26, R33). -/
theorem test_first_half :
    let o := exec (.movePoint .B 9 100 2) (withB (fun _ => .initial false) yard)
    news o = [.channelState .B .active .firstFrame] ∧ responseOf .B o = some (.halfHeld, []) := by decide +kernel

/-- The response of PAUSE as it is clocked out, its CRC-16 computed outside the model, and a rise at an idle port, which
leaves the count of bad frames (R149, R173). -/
theorem test_data_out :
    after (fun t => ((t.port .A).phase == .decide, (List.range 9).map (t.dataOut .A))) (exec (.pause .A 9) yard) =
      some (true, [0xFF, 0xFF, 0, 0, 9, 0x5D, 0xB5, 0xFF, 0xFF])
    ∧ yard.dataOut .A 0 = 0xFF
    ∧ after (fun t => t.portA.badFrames) (exec (.selectRise .A) { yard with portA := { yard.portA with badFrames := 3 } }) =
      some 3 := by decide +kernel

theorem witness_ReadsChangeNothing : (yard.chan .A).crst = false ∧ (yard.chan .A).state = .active
    ∧ (511 : Half).toNat < 512 ∧ (3 : Byte).toNat < 4 ∧ (7 : Byte).toNat < 8 ∧ (∃ x, yard.link? 3 = some x)
    ∧ yard.dev.active ≠ [] ∧ { yard with dev := Device.loading false }.dev.active = []
    ∧ ((withB (fun c => { c with state := .paused }) yard).chan .B).state = .paused :=
  ⟨rfl, rfl, by decide, by decide, by decide, ⟨_, rfl⟩, by decide, rfl, rfl⟩

/-- Reads of elements, routes, slots and parameters that are not there (R74, R153). -/
theorem test_reads : [
    responseOf .A (exec (.readElement .A 9 511) yard), responseOf .A (exec (.readRoute .A 9 5) yard),
    responseOf .A (exec (.readSlot .A 9 3 7) yard), responseOf .A (exec (.readRoutes .A 9) (setYard (active5 .entered))),
    responseOf .A (exec (.readParameters .A 9) { yard with dev := { Device.loading false with state := .loading } })] =
    [some (.notConfigured, []), some (.notActive, []), some (.notConfigured, []), some (.done, [1, 5, 4]),
     some (.wrongState, [])] := by decide +kernel

theorem witness_EventsAreReadOnce : (yard.chan .A).crst = false ∧ (yard.chan .A).state = .active ∧ 1 ≤ (8 : Byte).toNat
    ∧ (8 : Byte).toNat ≤ 8 ∧ ((withB (fun c => { c with state := .paused }) yard).chan .B).state = .paused := by decide +kernel

/-- The read cut short: three records are read, select rises, and all three are still there (section 10.6). -/
theorem test_read_cut_short :
    let s := { yard with queueA := ⟨[⟨.moveCall 1 .normal, 0⟩, ⟨.moveCall 2 .normal, 0⟩, ⟨.moveCall 3 .normal, 0⟩], 0⟩ }
    (responseOf .A (exec (.readEvents .A 9 8) s)).map (fun r => (r.1, r.2.take 4)) = some (.done, [3, 0, 0, 0])
      ∧ after (fun t => t.queueA) (exec (.selectRise .A) s) = some s.queueA := by decide +kernel

theorem witness_InvalidFramesAreAnswered : (yard.chan .A).crst = false := rfl

/-- An incomplete frame, one with a wrong CRC, one of an unknown kind and one of a wrong length, their CRCs computed outside
the model (R149, R150). -/
theorem test_invalid_frames :
    after (fun t => (t.portA.phase, t.portA.badFrames)) (exec (.invalidRequestFrame .A [0, 8, 1, 0]) yard) = some (.request, 0)
    ∧ after (fun t => (t.portA.phase, t.portA.badFrames)) (exec (.invalidRequestFrame .A [0, 8, 1, 0, 0]) yard) = some (.decide, 1)
    ∧ responseOf .A (exec (.invalidRequestFrame .A [0, 8, 1, 0, 0]) yard) = some (.badFrame, [])
    ∧ responseOf .A (exec (.invalidRequestFrame .A [0, 0x40, 1, 209, 113]) yard) = some (.unknownKind, [])
    ∧ responseOf .A (exec (.invalidRequestFrame .A [0, 9, 1, 102, 37]) yard) = some (.badLength, []) := by decide +kernel

theorem witness_EventOffersAreCounted :
    (EventQueue.mk (List.replicate 64 ⟨.moveCall 1 .normal, 0⟩) 3).records.length ≤ 64
      ∧ ∀ c n, Event.moveCall 1 .normal ≠ .lost c n := ⟨by decide, by simp⟩

/-! ## Witnesses: routes and permission -/

/-- SET ROUTE (5, 0) with its half waiting. -/
def sets (s : State) : List Event := news (concurred (.setRoute .A 9 5 0) s)

/-- The refusal of SET ROUTE. -/
def refusedSet (out : Status) (detail : Nat) : List Event := [.requestDone 9 .setRoute out detail]

theorem witness_SetRouteExamination :
    Completes ⟨.A, .setRoute, 9, [5, 0]⟩ (waiting ⟨.A, .setRoute, 9, [5, 0]⟩ yard) ∧ yard.def? 5 = some route5
      ∧ yard.route? 5 = none ∧ yard.signal? route5.entry = some (dangerSignal 200 1)
      ∧ allSecs route5 (some 0) = [1, 2] ++ 4 :: [] ∧ allPoints route5 (some 0) = [] ++ ⟨100, .normal⟩ :: [] :=
  ⟨completes_of (by decide +kernel), by decide +kernel⟩

/-- Steps 1 and 2 of SET ROUTE (R46, R47) and the re-request (R53). -/
theorem test_set_route_signal : [
    news (concurred (.setRoute .A 9 7 0) yard), news (concurred (.setRoute .A 9 5 1) yard), sets (setYard (active5 .calling)),
    sets (setYard { active5 .locked with permittedBefore := true, grantAllowed := false }),
    sets (yard.mapSignal 200 (fun x => { x with entryOf := some 6 })), sets (yard.mapSignal 200 (fun x => { x with claims := [⟨6, 1⟩] })),
    sets (yard.mapSignal 200 (fun x => { x with block := true })), sets (yard.mapSignal 200 (fun x => { x with faulted := true })),
    sets { yard with routes := (List.range 32).map (fun n => { active5 .calling with id := n + 100 }) }] =
    [refusedSet .notConfigured 7, refusedSet .badVariant 1, refusedSet .alreadyActive 5,
     [.requestDone 9 .setRoute .done 0, .permissionGranted 200 5, .routeState 5 (.state .permitted) .granted 0],
     refusedSet .signalBusy 200, refusedSet .held 200, refusedSet .blocked 200, refusedSet .faulted 200, refusedSet .listFull 0] := by
  decide +kernel

/-- Steps 3 to 6 of SET ROUTE (R48, R49). -/
theorem test_set_route_elements : [
    sets (yard.mapSection 2 (fun x => { x with holder := .entry 0 0 })), sets (yard.mapSection 2 (fun x => { x with block := true })),
    sets (yard.mapSection 4 (fun x => { x with faulted := true })),
    sets (yard.mapPoint 100 (fun x => { x with hold := .route 6 .normal })),
    sets (yard.mapPoint 100 (fun x => { x with claims := [⟨6, 1⟩], claimPos := some .reverse })),
    sets (yard.mapPoint 100 (fun x => { x with faulted := true })),
    sets (yard.mapPoint 100 (fun x => { x with status := .reverse, block := true })),
    sets ((yard.mapSection 1 (fun _ => occupiedSection 1)).mapPoint 100 (fun x => { x with status := .reverse })),
    sets ((yard.mapPoint 101 (fun x => { x with faulted := true })).mapSignal 202 (fun x => { x with perm := some 7 })),
    news (concurred (.setRoute .A 9 6 0) (yard.mapSlot ⟨0, 0⟩ (fun x => { x with permit := .heldThere }))),
    news (concurred (.setRoute .A 9 6 0) (yard.mapSlot ⟨0, 0⟩ (fun x => { x with block := true })))] =
    [refusedSet .held 2, refusedSet .blocked 2, refusedSet .faulted 4, refusedSet .held 100, refusedSet .held 100,
     refusedSet .faulted 100, refusedSet .blocked 100, refusedSet .occupied 100, refusedSet .noFlank 1,
     refusedSet .noPermit 0, refusedSet .blocked 0] := by decide +kernel

theorem witness_FirstObtainableOption :
    chooseFlanks yard route5 (some 0) route5.flanks [] [] = .ok ([⟨1, .sec 1, .point 101 .normal, true, true⟩], [1])
      ∧ chooseFlanks (setYard (active5 .permitted)) route5 (some 0) [⟨2, .overlap, [.signal 200]⟩] [] [] = .error 2 :=
  ⟨rfl, rfl⟩

/-- A point with a move in flight to where both views lie, to where neither lies, and one with none (R9, R10). -/
theorem witness_SetRouteTakes_settle :
    let called (p : Pos) := yard.mapPoint 100 (fun x => { x with move := some ⟨p, yard.dev.time⟩, status := .moving })
    ((called .normal).point? 100).map (fun x => (x.move.map (·.target), x.viewA, x.viewB)) = some (some .normal, .normal, .normal)
      ∧ ((called .reverse).point? 100).map (fun x => (x.move.map (·.target), x.viewA, x.viewB)) =
        some (some .reverse, .normal, .normal)
      ∧ (yard.point? 100).map (·.move) = some none ∧ (yard.point? 99).isNone = true
      ∧ news (.next (settleCall 100 (called .normal))) = [.moveDone 100 .normal 0]
      ∧ news (.next (settleCall 100 (called .reverse))) = [] := by decide +kernel

theorem witness_SetRouteTakes :
    Completes ⟨.A, .setRoute, 9, [5, 0]⟩ (waiting ⟨.A, .setRoute, 9, [5, 0]⟩ yard) ∧ yard.def? 5 = some route5
      ∧ (0 : Byte).toNat < route5.variants.length ∧ yard.route? 5 = none ∧ EntryReady yard 200 ∧ yard.routes.length < 32
      ∧ (∀ i ∈ allSecs route5 (some 0), SectionReady yard i) ∧ (∀ q ∈ allPoints route5 (some 0), PointReady yard q)
      ∧ ExitReady yard route5 ∧ ExitReady yard route6 := by
  refine ⟨completes_of (by decide +kernel), by decide +kernel, by decide +kernel, by decide +kernel,
    ⟨_, rfl, by decide +kernel⟩, by decide +kernel, ?_, ?_, ?_, ?_⟩
  · intro i hi
    have h : i = 1 ∨ i = 2 ∨ i = 4 := by simpa [allSecs, route5, overlapSecs] using hi
    rcases h with rfl | rfl | rfl <;> exact ⟨_, rfl, by decide +kernel⟩
  · intro q hq
    have h : q = ⟨100, .normal⟩ := by simpa [allPoints, route5, overlapPoints] using hq
    subst h
    exact ⟨_, rfl, by decide +kernel, .inl rfl, by decide +kernel, .inl (.inl rfl)⟩
  · intro ref h; cases h
  · intro ref h; cases h; exact ⟨_, rfl, by decide +kernel⟩

/-- Route 5 set with everything at rest: taken, proven, locked and permitted in one request (R50, R59, R64, R95), with its
holds in place. -/
theorem test_set_route : sets yard =
      [.requestDone 9 .setRoute .done 0, .routeState 5 (.state .calling) .set 0, .routeState 5 (.state .locked) .pointsProven 0,
       .permissionGranted 200 5, .routeState 5 (.state .permitted) .granted 0]
    ∧ after (fun t => (t.sections.map (·.holder), t.points.map (·.hold), t.points.map (·.claims)))
      (concurred (.setRoute .A 9 5 0) yard) =
      some ([.route 5, .route 5, .none, .overlap 5], [.route 5 .normal, .none], [[], [⟨5, 1⟩]]) := by decide +kernel

theorem witness_RouteIsGivenUp :
    Completes ⟨.A, .cancelRoute, 9, [5]⟩ (waiting ⟨.A, .cancelRoute, 9, [5]⟩ (setYard (active5 .permitted)))
      ∧ Completes ⟨.A, .emergencyRelease, 9, [5]⟩ (waiting ⟨.A, .emergencyRelease, 9, [5]⟩ (setYard (active5 .permitted)))
      ∧ (setYard (active5 .permitted)).def? 5 = some route5
      ∧ (setYard (active5 .permitted)).route? 5 = some (active5 .permitted) :=
  ⟨completes_of (by decide +kernel), completes_of (by decide +kernel), by decide +kernel⟩

/-- A train stands on the approach of route 5. -/
def approached (s : State) : State := s.mapSection 3 (fun _ => occupiedSection 3)

/-- CANCEL ROUTE (5) with its half waiting. -/
def cancels (s : State) : List Event := (news (concurred (.cancelRoute .A 9 5) s)).take 3

/-- The table of R70: the route in each state, with the approach clear and occupied. -/
theorem test_cancel : [
    cancels yard, cancels (setYard (active5 .calling)), cancels (approached (setYard (active5 .locked))),
    cancels (approached (setYard { active5 .locked with permittedBefore := true })), cancels (setYard (active5 .permitted)),
    cancels (approached (setYard (active5 .permitted))), cancels (setYard (active5 .entered)),
    cancels (setYard (active5 .approachHeld)), cancels (setYard (active5 .emergencyTiming))] =
    [[.requestDone 9 .cancelRoute .notActive 0],
     [.requestDone 9 .cancelRoute .done 0, .routeState 5 .released .cancelled 0],
     [.requestDone 9 .cancelRoute .done 0, .routeState 5 .released .cancelled 0],
     [.requestDone 9 .cancelRoute .done 0, .routeState 5 (.state .approachHeld) .cancelled 0, .releaseTiming 5 530 false],
     [.requestDone 9 .cancelRoute .done 0, .permissionWithdrawn 200 5 .cancelled, .routeState 5 .released .cancelled 0],
     [.requestDone 9 .cancelRoute .done 0, .permissionWithdrawn 200 5 .cancelled,
      .routeState 5 (.state .approachHeld) .cancelled 0],
     [.requestDone 9 .cancelRoute .trainOnRoute 0], [.requestDone 9 .cancelRoute .wrongState 0],
     [.requestDone 9 .cancelRoute .wrongState 0]] := by decide +kernel

/-- EMERGENCY RELEASE of a route that is entered, and of one in CALLING (R115). -/
theorem test_emergency : [
    news (concurred (.emergencyRelease .A 9 5) (setYard (active5 .entered))),
    news (concurred (.emergencyRelease .A 9 5) (setYard (active5 .calling)))] =
    [[.requestDone 9 .emergencyRelease .done 0, .routeState 5 (.state .emergencyTiming) .emergency 0, .releaseTiming 5 530 false],
     [.requestDone 9 .emergencyRelease .wrongState 0]] := by decide +kernel

theorem witness_ApproachSpeedTable :
    Completes ⟨.A, .setApproachSpeed, 9, [5, 251]⟩ (waiting ⟨.A, .setApproachSpeed, 9, [5, 251]⟩ yard)
      ∧ yard.def? 5 ≠ none := ⟨completes_of (by decide +kernel), by decide +kernel⟩

/-- The table of R117 at the ends of its lines, with the detail that carries the restriction. -/
theorem test_approach_speed : ([0, 1, 4, 5, 6, 249, 250, 251, 255] : List Byte).map (fun v =>
    news (concurred (.setApproachSpeed .A 9 5 v) yard)) =
    [(.done, 0), (.clamped, 5), (.clamped, 5), (.done, 5), (.clamped, 10), (.clamped, 250), (.done, 250), (.clamped, 250),
     (.clamped, 250)].map (fun r => [.requestDone 9 .setApproachSpeed r.1 r.2]) := by decide +kernel

/-- Route 5 with one of its timers running. -/
def timedRoute (st : RouteState) : ActiveRoute :=
  { active5 st with setting := ⟨.running, 1⟩, release := ⟨.running, 1⟩, overlapTimer := ⟨.running, 1⟩ }

theorem witness_RouteTimersExpire :
    (setYard (timedRoute .calling)).route? 5 = some (timedRoute .calling)
      ∧ (timedRoute .calling).setting.mode = .running ∧ (timedRoute .approachHeld).release.mode = .running
      ∧ (timedRoute .entered).overlapTimer.mode = .running ∧ (timedRoute .entered).overlap = .held
      ∧ ¬ ((active5 .calling).setting.mode = .running) := by decide +kernel

/-- The setting timer, the release timer in its two states, and the overlap timer (R62, R112, R114, R116). -/
theorem test_route_timers : [
    news (exec (.settingTimerExpiry 5) (setYard (timedRoute .calling))),
    news (exec (.releaseTimerExpiry 5) (setYard (timedRoute .approachHeld))),
    news (exec (.releaseTimerExpiry 5) (setYard (timedRoute .emergencyTiming))),
    news (exec (.overlapTimerExpiry 5) (setYard (timedRoute .entered)))] =
    [[.routeState 5 .abandoned .settingTime 0], [.routeState 5 .released .releaseTimer 0], [.routeState 5 .released .emergency 0], []]
    ∧ after (fun t => t.sections.map (·.holder)) (exec (.overlapTimerExpiry 5) (setYard (timedRoute .entered))) =
      some [.route 5, .route 5, .none, .none] := by decide +kernel

theorem witness_ReleaseTimeLimits : 0 < 5 ∧ 0 < 20 ∧ param 9 yard ≤ 1200 ∧ yard.def? 5 = some route5
    ∧ yard.dev.brakes[route5.brake]? = some 60 ∧ yard.speeds.find? (fun q => q.1 == 5) = none
    ∧ { yard with speeds := [(5, 40)] }.speeds.find? (fun q => q.1 == 5) = some (5, 40) := by decide +kernel

/-- Route 5 in LOCKED with every condition of R94 holding; a change of section 1 concerns it, one of section 3 does not. -/
theorem witness_PermissionFollowsConditions :
    let a := active5 .locked
    let s := setYard a
    let d := s.defOf a.id
    s.route? a.id = some a ∧ Touches s a (.sec 1) ∧ ¬ Touches s a (.sec 3) ∧ a.grantAllowed = true
      ∧ (∀ i ∈ allSecs d a.variant, secStatusIs s i .clear = true)
      ∧ (∀ q ∈ allPoints d a.variant, ∃ x, s.point? q.point = some x ∧ x.status = statusOfPos q.pos)
      ∧ (∀ g ∈ a.flanks, g.standing = true → g.satisfied = true) ∧ SignalFit s d.entry
      ∧ (∀ ch, (s.chan ch).state = .active ∨ (s.chan ch).state = .paused) ∧ s.dev.state = .inService
      ∧ ∀ ref, a.exitSlot = some ref → ∃ x, s.slot? ref = some x ∧ x.outb = .accepted := by
  refine ⟨by decide +kernel, (by decide +kernel : 1 ∈ [1, 2, 4]), (by decide +kernel : 3 ∉ [1, 2, 4]), rfl,
    by decide +kernel, ?_, by decide +kernel, ⟨_, rfl, by decide +kernel⟩, by intro ch; cases ch <;> exact .inl rfl, rfl, ?_⟩
  · intro q hq
    obtain rfl : q = ⟨100, .normal⟩ := by revert hq; decide +kernel +revert
    exact ⟨_, rfl, rfl⟩
  · intro ref h; exact nomatch h

/-- Each change that finds a condition failing for route 5 in PERMITTED, with the cause of R94; S1 OCCUPIED is none. -/
theorem witness_PermissionFollowsConditions_breaks :
    let a := active5 .permitted
    let s := setYard a
    let b : ActiveRoute := { a with flanks := [⟨1, .sec 1, .point 101 .normal, true, false⟩], exitSlot := some ⟨0, 0⟩ }
    Breaks (s.mapSection 2 (fun _ => occupiedSection 2)) a (.sec 2) (.sec 2)
      ∧ Breaks (s.mapSection 1 (fun x => { x with status := .clearing })) a (.sec 1) (.sec 1)
      ∧ (∀ cause, ¬ Breaks (s.mapSection 1 (fun _ => occupiedSection 1)) a (.sec 1) cause)
      ∧ Breaks (s.mapPoint 100 (fun x => { x with status := .undetected })) a (.point 100) (.point 100)
      ∧ Breaks (setYard b) b (.flank [5]) (.flank 1)
      ∧ Breaks (s.mapSignal 200 (fun x => { x with mask := true })) a (.signals [200]) (.entrySignal 200)
      ∧ Breaks (withB (fun x => { x with state := .lost }) s) a (.channel .B) (.channel .B)
      ∧ Breaks { s with dev := { s.dev with state := .safeHalt } } a .device .deviceState
      ∧ Breaks (setYard b) b (.slot ⟨0, 0⟩) (.boundary ⟨0, 0⟩) := by
  refine ⟨.sec 2 (by decide +kernel) (by decide +kernel) (by decide +kernel),
    .sec 1 (by decide +kernel) (by decide +kernel) (by decide +kernel), ?_,
    .point ⟨100, .normal⟩ (by decide +kernel) ?_, .flank [5] [] ⟨1, .sec 1, .point 101 .normal, true, false⟩ [] (List.mem_singleton_self 5) rfl
      (fun _ h => nomatch h) rfl rfl,
    .signal [200] (by decide +kernel) ?_, .channel .B (by decide +kernel) (by decide +kernel), .device (by decide +kernel),
    .slot ⟨0, 0⟩ rfl ?_⟩
  · intro cause h
    cases h with
    | sec _ _ _ h => exact h (by decide +kernel)
  · intro x hx; obtain rfl := Option.some.inj hx; decide +kernel
  · rintro ⟨x, hx, -, h, -⟩; obtain rfl := Option.some.inj hx; exact nomatch h
  · intro x hx; obtain rfl := Option.some.inj hx; decide +kernel

/-- A route in CALLING whose points are agreed in position, one whose point is not, and a flank that a change of its point
leaves unsatisfied. -/
theorem witness_PermissionFollowsConditions_locking :
    let a := active5 .calling
    let s := setYard a
    let t := setYard (active5 .permitted) |>.mapPoint 101 (fun x => { x with status := .undetected })
    s.route? 5 = some a ∧ proven s a = true
      ∧ proven (s.mapPoint 101 (fun x => { x with status := .undetected })) a = false
      ∧ (∃ b ∈ t.routes, ¬ ((∀ f ∈ (rederiveFlank t 101 b).flanks, f.standing = true → f.satisfied = true)
        ↔ ∀ f ∈ b.flanks, f.standing = true → f.satisfied = true)) := by decide +kernel

/-- The route is proven, locked and granted in one change, or abandoned by a failed move (R64, R65, R95). -/
theorem test_locking :
    news (.next (testProven 5 (setYard (active5 .calling)))) =
      [.routeState 5 (.state .locked) .pointsProven 0, .permissionGranted 200 5, .routeState 5 (.state .permitted) .granted 0]
    ∧ news (.next (abandonRoute .moveFailed 100 5 (setYard (active5 .calling)))) = [.routeState 5 .abandoned .moveFailed 100] := by
  decide +kernel

/-- A section of a permitted route that is faulted takes its permission (R96). -/
theorem test_withdrawn : news (exec (.inhibitSet .A 9 2) (waiting ⟨.A, .inhibitSet, 9, b2 2⟩ (setYard (active5 .permitted)))) =
    [.requestDone 9 .inhibitSet .done 0, .permissionWithdrawn 200 5 (.sec 2), .routeState 5 (.state .locked) .withdrawn 0] := by
  decide +kernel

theorem witness_WatchExpires : ∃ x, discYard.signal? 200 = some x ∧ x.watch.mode = .running := ⟨_, rfl, by decide +kernel⟩

/-- Signal 201 shows PROCEED without permission: route 5, which holds its protected section, loses its own (R102). -/
theorem test_watch : news (exec (.watchTimerExpiry 201) ((setYard (active5 .permitted)).mapSignal 201 (fun x =>
      { x with viewA := .proceed, status := .proceed, watch := ⟨.running, 1⟩ }))) =
    [.unauthorizedProceed 201 2, .permissionWithdrawn 200 5 (.unauthorized 201), .routeState 5 (.state .locked) .withdrawn 0] := by
  decide +kernel

/-- Route 5 entered, its first section marked, the train on the second. -/
def enteredYard : State :=
  (setYard { active5 .entered with marks := [true, true] }).mapSection 2 (fun x =>
    { x with viewA := .occupied, viewB := .occupied, status := .occupied })

theorem witness_SectionReleasesBehindTrain :
    enteredYard.route? 5 = some { active5 .entered with marks := [true, true] } ∧ (enteredYard.defOf 5).mode = .sequential
      ∧ hasEntered { active5 .entered with marks := [true, true] } = true ∧ 1 < (enteredYard.defOf 5).secs.length
      ∧ (enteredYard.defOf 5).secs[1]? = some 2 ∧ (enteredYard.defOf 5).secs[0]? = some 1
      ∧ secStatusIs enteredYard 2 .occupied = true := by decide +kernel

/-- Route 5 in WHOLE mode. -/
def wholeYard (s : State) : State := { s with store := [{ route5 with mode := .whole }] }

/-- Route 5 before the release of its last section, in both modes, and in APPROACH_HELD with its approach clear. -/
theorem witness_SectionReleasesBehindTrain_cleared :
    let a : ActiveRoute := { active5 .entered with marks := [true, true], released := [true, false], cursor := 2 }
    let s := setYard a
    s.route? 5 = some a ∧ hasEntered a = true ∧ a.marks[(s.defOf 5).secs.length - 1]? = some true ∧ a.exitSlot = none
      ∧ (s.defOf 5).mode = .sequential ∧ a.cursor = (s.defOf 5).secs.length ∧ (s.defOf 5).secs[1]? = some 2
      ∧ secStatusIs s 2 .clear = true ∧ ((wholeYard s).defOf 5).mode = .whole
      ∧ (∀ i ∈ ((wholeYard s).defOf 5).secs, secStatusIs (wholeYard s) i .clear = true)
      ∧ (setYard (active5 .approachHeld)).route? 5 = some (active5 .approachHeld) ∧ (3 : Nat) ∈ (s.defOf 5).approach
      ∧ (∀ i ∈ (s.defOf 5).approach, secStatusIs (setYard (active5 .approachHeld)) i .clear = true)
      ∧ hasEntered (active5 .locked) = false := by decide +kernel

/-- S1 occupied under a permission, with S2 clear and with S2 occupied. -/
theorem witness_SectionReleasesBehindTrain_entry :
    let s := (setYard (active5 .permitted)).mapSection 1 (fun _ => occupiedSection 1)
    s.route? 5 = some (active5 .permitted) ∧ (s.routes.map (·.id)).Nodup ∧ (s.defOf 5).secs.head? = some 1
      ∧ secStatusIs s 1 .occupied = true ∧ (active5 .permitted).marks = List.replicate 2 false
      ∧ (active5 .permitted).released = List.replicate 2 false ∧ (active5 .permitted).cursor = 1
      ∧ secStatusIs (s.mapSection 2 (fun _ => occupiedSection 2)) 2 .occupied = true := by decide +kernel

/-- S2 occupied after entry: S1 marked and CLEAR is a GAP, S1 not marked is AHEAD. -/
theorem witness_SectionReleasesBehindTrain_passing :
    let a : ActiveRoute := { active5 .entered with marks := [true, false] }
    let s := (setYard a).mapSection 2 (fun _ => occupiedSection 2)
    s.route? 5 = some a ∧ hasEntered a = true ∧ (s.defOf 5).secs.findIdx? (fun i => i == 2) = some 1
      ∧ secStatusIs s 2 .occupied = true ∧ a.marks.length = (s.defOf 5).secs.length
      ∧ a.released.length = (s.defOf 5).secs.length ∧ a.marks[0]? = some true ∧ secStatusIs s 1 .clear = true
      ∧ secStatusIs s 1 .occupied = false := by decide +kernel

/-- Entry with S2 already OCCUPIED starts the overlap timer; a GAP; and the release of the last section (R69, R109, R110,
R112). -/
theorem test_entry :
    let s := (setYard (active5 .permitted)).mapSection 1 (fun _ => occupiedSection 1)
    let t := routeSectionOccupied 1 5 (s.mapSection 2 (fun _ => occupiedSection 2))
    (news (.next t), t.routes.map (fun a => (a.marks, a.overlapTimer)), t.signals.map (·.entryOf)) =
      ([.permissionWithdrawn 200 5 .entered, .routeState 5 (.state .entered) .trainEntered 0],
        [([true, true], ⟨.running, 300⟩)], [none, none, none])
    ∧ news (.next (routeSectionOccupied 2 5 ((setYard { active5 .entered with marks := [true, false] }).mapSection 2
      (fun _ => occupiedSection 2)))) = [.sequenceAnomaly 5 2 .gap]
    ∧ news (.next (routeSectionClear 2 5 (setYard { active5 .entered with
      marks := [true, true], released := [true, false], cursor := 2 }))) = [.routeState 5 .released .trainCleared 0] := by
  decide +kernel

/-- After a GAP the cursor section is not released, though it clears with the next one OCCUPIED; without one it is (R107,
R109). -/
theorem test_gap_keeps_section :
    let s := (setYard { active5 .entered with marks := [true, false] }).mapSection 2 (fun _ => occupiedSection 2)
    (routeSectionClear 1 5 (routeSectionOccupied 2 5 s)).routes.map (fun a => (a.gapped, a.marks, a.cursor)) =
      [(true, [true, true], 1)]
    ∧ (routeSectionClear 1 5 { s with routes := [{ active5 .entered with marks := [true, true] }] }).routes.map (·.cursor) =
      [2] := by decide +kernel

/-- The overlap timer of a route with a claim that guards its overlap: the claim goes (R86, R112), but in WHOLE mode it may
stand (R87), whichever the free value says (log 34), and goes with the whole route. -/
theorem test_overlap_modes :
    let a : ActiveRoute :=
      { active5 .entered with
        overlapTimer := ⟨.running, 5⟩, marks := [true, true], flanks := [⟨1, .overlap, .point 101 .normal, true, true⟩] }
    let shown (t : State) := (t.sections.map (·.holder), t.points.map (fun x => x.claims.length), t.routes.map (·.overlap))
    let expires (k : Nat) (s : State) := after shown (exec (.overlapTimerExpiry 5) { s with choices := List.replicate 24 k })
    let freed (n : Nat) := some ([.route 5, .route 5, .none, .none], [0, n], [OverlapStatus.released])
    [expires 0 (setYard a), expires 1 (setYard a)] = [freed 0, freed 0]
    ∧ [expires 0 (wholeYard (setYard a)), expires 1 (wholeYard (setYard a))] = [freed 0, freed 1]
    ∧ shown (testCleared 5 (freeOverlap true a (wholeYard (setYard a)))) = ([.none, .none, .none, .none], [0, 0], []) := by
  intro a shown expires freed; refine ⟨?_, ?_, ?_⟩ <;> decide +kernel

/-- Route 7 gives up claims on both entry signals at once: the older route is granted first, whatever the free values
(R95). -/
theorem test_grants_oldest_first :
    let claimed (x : SignalRec) : SignalRec := { x with claims := [⟨7, 1⟩] }
    let s : State := { setYard (active5 .locked) with
      store := [route5, { route6 with exit := .signal 202 }, { route5 with id := 7, entry := 202 }]
      signals := [claimed (dangerSignal 201 2), claimed (dangerSignal 200 1), dangerSignal 202 3]
      routes := [active5 .locked, { active5 .locked with id := 6, variant := none, flanks := [] },
        { active5 .approachHeld with id := 7, release := ⟨.running, 1⟩ }]
      choices := List.replicate 24 1 }
    (news (exec (.releaseTimerExpiry 7) s)).filterMap (fun e => match e with
      | .permissionGranted g r => some (g, r)
      | _ => none) = [(200, 5), (201, 6)] := by decide +kernel

/-- The release of S1 with its point and the claim that guards it (R85, R108). -/
theorem test_section_release :
    after (fun t => (t.sections.map (·.holder), t.points.map (·.hold), t.points.map (·.claims), t.routes.map (·.cursor)))
      (exec (.clearanceTimerExpiry 1) (enteredYard.mapSection 1 (fun x =>
        { x with status := .clearing, clearance := ⟨.running, 1⟩ }))) =
      some ([.none, .route 5, .none, .overlap 5], [.none, .none], [[], []], [2]) := by decide +kernel

/-- A cursor section that clears unmarked is not released (R109); occupied again it is marked (R106), and its next clearance
releases it, here the last one with the route (R110; log 45). -/
theorem test_unmarked_cursor :
    let a (marked : Bool) : ActiveRoute := { active5 .entered with cursor := 2, released := [true, false], marks := [true, marked] }
    let clearing (x : SectionRec) : SectionRec := { x with status := .clearing, clearance := ⟨.running, 1⟩ }
    [false, true].map (fun marked => after (fun t => t.routes.map (·.released))
      (exec (.clearanceTimerExpiry 2) ((setYard (a marked)).mapSection 2 clearing))) = [some [[true, false]], some []]
    ∧ after (fun t => t.routes.map (·.marks)) (exec (.reportFieldStatus .A 9 [⟨2, 2⟩]) (setYard (a false))) =
      some [[true, true]] := by decide +kernel

/-! ## Witnesses: links and slots -/

/-- A change of link 0. -/
def withLink (g : Link → Link) : State := yard.mapLink 0 g

/-- A change of slot 0 of link 0. -/
def withSlot (g : Slot → Slot) : State := yard.mapSlot ⟨0, 0⟩ g

/-- Link 0 in TRAINING, having heard the peer. -/
def trainingLink (x : Link) : Link :=
  { x with state := .training, cause := .peerHeard, trainCount := 1, lastTrain := some ⟨9, 7, 200, true, false⟩, sentHeard := true
           period := none, training := ⟨.running, 2000⟩, sendTimer := ⟨.running, 200⟩, supervision := .off }

/-- Link 0 as master of a test of three frames, in the given phase. -/
def masterLink (ph : TestPhase) (x : Link) : Link :=
  { x with state := .loopback, cause := .test, answer := ⟨.running, 400⟩, echo := ⟨.running, 400⟩
           test := { TestRec.idle with role := .master, phase := ph, pattern := List.replicate 16 7, count := 3 } }

/-- Link 0 as slave. -/
def slaveLink (x : Link) : Link :=
  { x with state := .loopback, cause := .peerTest, echo := ⟨.running, 400⟩, test := { TestRec.idle with role := .slave } }

theorem witness_LinkTimersExpire :
    (∃ x, (withLink trainingLink).link? 0 = some x ∧ x.training.mode = .running ∧ x.state = .training)
    ∧ (∃ x, yard.link? 0 = some x ∧ x.supervision.mode = .running ∧ x.state = .up)
    ∧ (∃ x, (withLink (masterLink .asking)).link? 0 = some x ∧ x.answer.mode = .running ∧ x.state = .loopback)
    ∧ (∃ x, (withLink slaveLink).link? 0 = some x ∧ x.echo.mode = .running ∧ x.state = .loopback ∧ x.test.role ≠ .master) :=
  ⟨⟨_, rfl, by decide +kernel⟩, ⟨_, rfl, by decide +kernel⟩, ⟨_, rfl, by decide +kernel⟩, ⟨_, rfl, by decide +kernel⟩⟩

/-- The four timers that end a link's state (R125, R129, R131, R133). -/
theorem test_link_timers : [
    news (exec (.trainingTimerExpiry 0) (withLink trainingLink)), news (exec (.linkSupervisionExpiry 0) yard),
    news (exec (.answerTimerExpiry 0) (withLink (masterLink .asking))), news (exec (.echoTimerExpiry 0) (withLink slaveLink))] =
    [[.linkState 0 .down .trainingTimeout], [.linkState 0 .down .timeout],
     [.linkTestResult 0 ⟨.incomplete, 0, 0⟩, .linkState 0 .training .testEnd], [.linkState 0 .training .testEnd]] := by
  decide +kernel

theorem witness_LinkSendsByState : ∃ x, yard.link? 0 = some x ∧ x.sendTimer.mode = .running := ⟨_, rfl, by decide +kernel⟩

/-- What each state of a link sends (R124, R125, R127, R131, R133). -/
theorem test_link_sends :
    after (fun t => t.tx) (exec (.linkSendTimerExpiry 0) (withLink (fun x => { x with state := .down }))) =
      some [⟨0, .train ⟨7, 9, 100, false, false⟩⟩]
    ∧ after (fun t => t.tx) (exec (.linkSendTimerExpiry 0) (withLink trainingLink)) =
      some [⟨0, .train ⟨7, 9, 100, true, false⟩⟩]
    ∧ after (fun t => t.tx) (exec (.linkSendTimerExpiry 0) yard) = some [⟨0, .cyclic 7 9 0 (⟨.hold, .none, .none⟩ ::
      List.replicate 7 ⟨.notHold, .none, .none⟩)⟩]
    ∧ after (fun t => t.tx) (exec (.linkSendTimerExpiry 0) (withLink (masterLink .asking))) =
      some [⟨0, .train ⟨7, 9, 100, false, true⟩⟩]
    ∧ after (fun t => t.tx) (exec (.linkSendTimerExpiry 0) (withLink (masterLink .running))) =
      some [⟨0, .loop 0 (List.replicate 16 7)⟩] := by decide +kernel

theorem witness_TrainFramesByState : ∃ x, yard.link? 0 = some x ∧ x.conf ≠ none ∧ x.halted = false
    ∧ (9 : Half).toNat = peerArea x ∧ (7 : Half).toNat = yard.dev.area ∧ 50 ≤ (1000 : Half).toNat ∧ (1000 : Half).toNat ≤ 1000 :=
  ⟨_, rfl, by decide +kernel⟩

/-- A TRAIN in DOWN, the second identical one in TRAINING, a restart and a request for a test in UP (R124, R125, R128, R132). -/
theorem test_train : [
    news (exec (.linkTrainFrame 0 9 7 200 0) (withLink (fun x => { x with state := .down }))),
    news (exec (.linkTrainFrame 0 9 7 200 1) (withLink trainingLink)), news (exec (.linkTrainFrame 0 9 7 200 0) yard),
    news (exec (.linkTrainFrame 0 9 7 200 2) yard),
    (news (exec (.linkTrainFrame 0 9 7 200 2) (withSlot (fun x => { x with permit := .taking })))).take 1] =
    [[.linkState 0 .training .peerHeard], [.linkState 0 .up .trained], [.linkState 0 .training .peerRestart],
     [.linkState 0 .loopback .peerTest], [.linkState 0 .training .testRefused]] := by decide +kernel

theorem witness_TrainFramesInTest : ∃ x, (withLink slaveLink).link? 0 = some x ∧ x.conf ≠ none ∧ x.halted = false
    ∧ (9 : Half).toNat = peerArea x ∧ (7 : Half).toNat = (withLink slaveLink).dev.area ∧ 50 ≤ (50 : Half).toNat
    ∧ (50 : Half).toNat ≤ 1000 ∧ x.state = .loopback := ⟨_, rfl, by decide +kernel⟩

/-- Consent, refusal, and a slave that has left (R131, R133); the end of the test for a slave (R132). -/
theorem test_train_in_test :
    after (fun t => t.tx) (exec (.linkTrainFrame 0 9 7 50 3) (withLink (masterLink .asking))) =
      some [⟨0, .loop 0 (List.replicate 16 7)⟩]
    ∧ [news (exec (.linkTrainFrame 0 9 7 50 0) (withLink (masterLink .asking))),
       news (exec (.linkTrainFrame 0 9 7 50 0) (withLink (masterLink .running))),
       news (exec (.linkTrainFrame 0 9 7 50 0) (withLink slaveLink))] =
      [[.linkTestResult 0 ⟨.refused, 0, 0⟩, .linkState 0 .training .testEnd],
       [.linkTestResult 0 ⟨.incomplete, 0, 0⟩, .linkState 0 .training .testEnd], [.linkState 0 .training .testEnd]] := by
  decide +kernel

/-- Published fields with the given ones for slot 0. -/
def fieldBytes (p o i : Byte) : List Byte := [p, o, i] ++ (List.replicate 7 [2, 0, 0]).flatten

theorem witness_CyclicFramesByState : ∃ x ps, yard.link? 0 = some x ∧ x.conf ≠ none ∧ x.halted = false
    ∧ (9 : Half).toNat = peerArea x ∧ (7 : Half).toNat = yard.dev.area ∧ (fieldBytes 2 0 0).length = 24
    ∧ parseFields (fieldBytes 2 0 0) = some ps :=
  ⟨_, ⟨.notHold, .none, .none⟩ :: List.replicate 7 ⟨.notHold, .none, .none⟩, rfl, by decide +kernel⟩

/-- A CYCLIC that completes a training, a new counter and a repeated one (R125, R128). -/
theorem test_cyclic :
    after (fun t => t.links.map (fun x => (x.state, x.period, x.lastCounter, x.supervision)))
      (exec (.linkCyclicFrame 0 9 7 0 (fieldBytes 2 0 0)) { withLink trainingLink with links := [trainingLink upLink] }) =
      some [(.up, some 200, some 0, ⟨.running, 800⟩)]
    ∧ after (fun t => t.slots.map (·.peer)) (exec (.linkCyclicFrame 0 9 7 5 (fieldBytes 2 0 0)) yard) =
      some [some ⟨.notHold, .none, .none⟩]
    ∧ after (fun t => t.slots.map (·.peer))
      (exec (.linkCyclicFrame 0 9 7 5 (fieldBytes 2 0 0)) (withLink (fun x => { x with lastCounter := some 5 }))) =
      some [none] := by decide +kernel

theorem witness_LoopFramesByRole : ∃ x, (withLink slaveLink).link? 0 = some x ∧ x.conf ≠ none ∧ x.halted = false
    ∧ x.state ≠ .disabled ∧ (List.replicate 16 (7 : Byte)).length = 16 := ⟨_, rfl, by decide +kernel⟩

/-- A slave echoes; the last echo ends the test of a master, an altered one unmatched (R132, R133). -/
theorem test_loop :
    after (fun t => t.tx) (exec (.linkLoopFrame 0 4 (List.replicate 16 1)) (withLink slaveLink)) =
      some [⟨0, .loop 4 (List.replicate 16 1)⟩]
    ∧ news (exec (.linkLoopFrame 0 2 (List.replicate 16 1)) (withLink (fun x =>
      { masterLink .running x with
        test := { (masterLink .running x).test with sent := 3, echoes := 2, matched := 2, echoed := [0, 1] } }))) =
      [.linkTestResult 0 ⟨.complete, 3, 2⟩, .linkState 0 .training .testEnd] := by decide +kernel

theorem witness_RunsThatCarryNothing : ∃ x, yard.link? 0 = some x
    ∧ ¬ (x.conf = none ∨ x.state = .disabled ∨ x.halted = true) ∧ classifyRun [] = .bad
    ∧ classifyRun [4, 213, 111, 43, 148] = .unknown
    ∧ classifyRun [1, 0, 3, 0, 7, 0, 100, 0, 179, 90, 59, 67] = .known (.train ⟨3, 7, 100, false, false⟩)
    ∧ areasOf (.train ⟨3, 7, 100, false, false⟩) = some (3, 7) := ⟨_, rfl, by decide +kernel⟩

/-- The fourth bad run in a row, an unknown kind and a frame of another area (R123, R129). -/
theorem test_runs : [
    news (exec (.linkBadFrame 0 []) (withLink (fun x => { x with badRun := 3 }))),
    news (exec (.linkUnknownFrame 0 [4, 213, 111, 43, 148]) yard),
    news (exec (.linkMismatchedFrame 0 [1, 0, 3, 0, 7, 0, 100, 0, 179, 90, 59, 67]) yard)] =
    [[.linkState 0 .down .errors], [], [.linkMismatch 0 3 7]] := by decide +kernel

theorem witness_LinkTestTable :
    Completes ⟨.A, .linkTest, 9, 0 :: (List.replicate 16 7 ++ [3])⟩ (waiting ⟨.A, .linkTest, 9, 0 :: (List.replicate 16 7 ++ [3])⟩ yard)
      ∧ (List.replicate 16 (7 : Byte)).length = 16 ∧ yard.link? 0 = some upLink :=
  ⟨completes_of (by decide +kernel), by decide +kernel⟩

/-- The five lines of R131. -/
theorem test_link_test : [
    news (concurred (.linkTest .A 9 1 (List.replicate 16 7) 3) yard), news (concurred (.linkTest .A 9 0 (List.replicate 16 7) 0) yard),
    news (concurred (.linkTest .A 9 0 (List.replicate 16 7) 3) (withLink trainingLink)),
    news (concurred (.linkTest .A 9 0 (List.replicate 16 7) 3) (withSlot (fun x => { x with outb := .offered }))),
    news (concurred (.linkTest .A 9 0 (List.replicate 16 7) 3) yard)] =
    [[.requestDone 9 .linkTest .notConfigured 1], [.requestDone 9 .linkTest .badValue 0], [.requestDone 9 .linkTest .wrongState 0],
     [.requestDone 9 .linkTest .wrongState 0], [.requestDone 9 .linkTest .done 0, .linkState 0 .loopback .test]] := by decide +kernel

theorem witness_PermitRequestTable :
    Completes ⟨.A, .requestPermit, 9, [0, 0]⟩ (waiting ⟨.A, .requestPermit, 9, [0, 0]⟩ yard) := completes_of (by decide +kernel)

/-- REQUEST PERMIT on a changed slot 0 of link 0. -/
def asks (g : Slot → Slot) : List Event := news (concurred (.requestPermit .A 9 0 0) (withSlot g))

/-- The lines of R138. -/
theorem test_request_permit : [
    news (concurred (.requestPermit .A 9 0 7) yard), asks (fun x => { x with block := true }), asks (fun x => { x with cap := .inward }),
    asks (fun x => { x with permit := .heldThere, reconciled := false }), asks id,
    asks (fun x => { x with permit := .heldThere })] =
    [[.requestDone 9 .requestPermit .notConfigured 0], [.requestDone 9 .requestPermit .blocked 0],
     [.requestDone 9 .requestPermit .notCapable 0], [.requestDone 9 .requestPermit .wrongState 0],
     [.requestDone 9 .requestPermit .wrongState 0],
     [.requestDone 9 .requestPermit .done 0, .permitState ⟨0, 0⟩ .taking .requested]] := by decide +kernel

theorem witness_SlotBlocksAndRestores :
    Completes ⟨.A, .blockSlot, 9, [0, 0]⟩ (waiting ⟨.A, .blockSlot, 9, [0, 0]⟩ yard)
      ∧ Completes ⟨.A, .unblockSlot, 9, [3, 7]⟩ (waiting ⟨.A, .unblockSlot, 9, [3, 7]⟩ yard)
      ∧ Completes ⟨.A, .restoreSlot, 9, [0, 0, 2]⟩ (waiting ⟨.A, .restoreSlot, 9, [0, 0, 2]⟩ yard) :=
  ⟨completes_of (by decide +kernel), completes_of (by decide +kernel), completes_of (by decide +kernel)⟩

/-- RESTORE SLOT outside FAULT, YIELD, TAKE with the peer yielded, and TAKE without (R140). -/
theorem test_restore_slot : [
    news (concurred (.restoreSlot .A 9 0 0 1) yard), news (concurred (.restoreSlot .A 9 0 0 1) (withSlot (fun x => { x with permit := .fault }))),
    news (concurred (.restoreSlot .A 9 0 0 2) (withSlot (fun x =>
      { x with permit := .fault, peer := some ⟨.yielded, .none, .none⟩ }))),
    news (concurred (.restoreSlot .A 9 0 0 2) (withSlot (fun x => { x with permit := .fault })))] =
    [[.requestDone 9 .restoreSlot .wrongState 0],
     [.requestDone 9 .restoreSlot .done 0, .permitState ⟨0, 0⟩ .heldThere .yielded],
     [.requestDone 9 .restoreSlot .done 0, .permitState ⟨0, 0⟩ .heldHere .restored], [.requestDone 9 .restoreSlot .notYielded 0]] := by
  decide +kernel

theorem witness_ReservationReleases :
    Completes ⟨.A, .releaseReservation, 9, [0, 0]⟩ (waiting ⟨.A, .releaseReservation, 9, [0, 0]⟩ yard)
      ∧ (∃ x, (withSlot (fun x => { x with inb := .accepted, reserve := ⟨.running, 1⟩ })).slot? ⟨0, 0⟩ = some x
        ∧ x.reserve.mode = .running ∧ x.inb = .accepted) := ⟨completes_of (by decide +kernel), ⟨_, rfl, by decide +kernel⟩⟩

/-- RELEASE RESERVATION in ACCEPTED_ISOLATED and in NONE, and the expiry of its timer (R148). -/
theorem test_reservation : [
    news (concurred (.releaseReservation .A 9 0 0) (withSlot (fun x => { x with inb := .acceptedIsolated }))),
    news (concurred (.releaseReservation .A 9 0 0) yard),
    news (exec (.reservationReleaseExpiry 0 0) (withSlot (fun x => { x with inb := .accepted, reserve := ⟨.running, 1⟩ })))] =
    [[.requestDone 9 .releaseReservation .done 0, .slotIn ⟨0, 0⟩ .acceptedIsolated .releaseTiming],
     [.requestDone 9 .releaseReservation .wrongState 0], [.slotIn ⟨0, 0⟩ .none .reservationReleased]] := by decide +kernel

/-- A slot with every timer running. -/
def timedSlot (p : Permit) (o : Outbound) (x : Slot) : Slot :=
  { x with permit := p, outb := o, recon := ⟨.running, 1⟩, transfer := ⟨.running, 1⟩, accept := ⟨.running, 1⟩, transit := ⟨.running, 1⟩ }

theorem witness_SlotTimersExpire : ∃ x, (withSlot (timedSlot .taking .offered)).slot? ⟨0, 0⟩ = some x ∧ x.recon.mode = .running
    ∧ x.transfer.mode = .running ∧ x.permit = .taking ∧ x.accept.mode = .running ∧ x.transit.mode = .running :=
  ⟨_, rfl, by decide +kernel⟩

/-- The timers of a slot (R137 to R139, R143, R144). -/
theorem test_slot_timers : [
    news (exec (.reconciliationTimerExpiry 0 0) (withSlot (timedSlot .unknown .none))),
    news (exec (.permitTransferExpiry 0 0) (withSlot (timedSlot .taking .none))),
    news (exec (.permitTransferExpiry 0 0) (withSlot (timedSlot .giving .none))),
    news (exec (.acceptanceTimerExpiry 0 0) (withSlot (timedSlot .heldHere .offered))),
    news (exec (.transitTimerExpiry 0 0) { withSlot (timedSlot .heldHere .transit) with
      routes := [{ active5 .entered with id := 6, exitSlot := some ⟨0, 0⟩ }] })] =
    [[.permitState ⟨0, 0⟩ .fault .noHolder], [.permitState ⟨0, 0⟩ .heldThere .timeout], [.permitState ⟨0, 0⟩ .fault .timeout],
     [.slotOut ⟨0, 0⟩ .offered .noAnswer], [.transitOverdue ⟨0, 0⟩ 6]] := by decide +kernel

theorem witness_PermitComparison : yard.slot? ⟨0, 0⟩ = some (restingSlot 0 4) := by decide +kernel

/-- A slot that can give its permit, and one that cannot because B is held by a route. -/
theorem witness_PermitComparison_steps :
    let x := restingSlot 0 4
    yard.slot? x.ref = some x ∧ x.block = false ∧ x.cap = .both ∧ x.outb = .none
      ∧ (∃ b, yard.section? x.bsec = some b ∧ b.holder = .none) ∧ yard.routes = []
      ∧ (∃ b, (yard.mapSection 4 (fun y => { y with holder := .route 5 })).section? x.bsec = some b ∧ b.holder = .route 5) :=
  ⟨by decide +kernel, rfl, rfl, rfl, ⟨_, rfl, rfl⟩, rfl, ⟨_, rfl, rfl⟩⟩

/-- A delivery brings REQUEST to a slot that gives, and the comparing delivery leaves an isolated acceptance alone, which the
next one ends (R139, R148). -/
theorem test_deliveries :
    let isolated := withSlot (fun x => { x with permit := .heldThere, reconciled := false, inb := .acceptedIsolated })
    let once := deliverSlot ⟨0, 0⟩ ⟨.hold, .none, .none⟩ isolated
    news (.next (deliverSlot ⟨0, 0⟩ ⟨.request, .none, .none⟩ yard)) = [.permitState ⟨0, 0⟩ .giving .requested]
      ∧ (once.slot? ⟨0, 0⟩).map (fun x => (x.reconciled, x.inb)) = some (true, .acceptedIsolated)
      ∧ news (.next (deliverSlot ⟨0, 0⟩ ⟨.hold, .none, .none⟩ once)) = [.slotIn ⟨0, 0⟩ .none .withdrawn] := by decide +kernel

/-- First contact (section 9.6): initial holder HERE against NOT_HOLD, and both sides holding. -/
theorem test_permit_comparison :
    news (.next (reconcile { restingSlot 0 4 with permit := .unknown } .notHold yard)) = [.permitState ⟨0, 0⟩ .heldHere .reconciled]
    ∧ news (.next (reconcile (restingSlot 0 4) .hold yard)) = [.bothHeld ⟨0, 0⟩, .permitState ⟨0, 0⟩ .fault .bothHeld] := by
  decide +kernel

/-- A slot to which the peer offers a train. -/
def offeredSlot (x : Slot) : Slot := { x with permit := .heldThere, peer := some ⟨.hold, .offer, .none⟩ }

theorem witness_AcceptanceTest : ∃ x, (withSlot offeredSlot).slot? ⟨0, 0⟩ = some x ∧ (x.inb = .none ∨ x.inb = .declining)
    ∧ x.peer = some ⟨.hold, .offer, .none⟩ := ⟨_, rfl, by decide +kernel⟩

/-- Slots in each inbound state that a delivery or a change of B meets, at the boundary section 4. -/
theorem witness_AcceptanceTest_steps :
    [Inbound.none, .declining, .accepted, .acceptedIsolated, .receiving].all (fun i =>
        (withSlot (fun x => { x with inb := i })).slot? ⟨0, 0⟩ == some { restingSlot 0 4 with inb := i }) = true
      ∧ (restingSlot 0 4).peer = none ∧ (restingSlot 0 4).bsec = 4
      ∧ secStatusIs (yard.mapSection 4 (fun _ => occupiedSection 4)) 4 .occupied = true ∧ secStatusIs yard 4 .clear = true := by
  decide +kernel

/-- An offer accepted, and declined by each condition of the slot itself (R146). -/
theorem test_acceptance : [
    testAcceptance ⟨0, 0⟩ (withSlot offeredSlot), testAcceptance ⟨0, 0⟩ (withSlot (fun x => { offeredSlot x with cap := .out })),
    testAcceptance ⟨0, 0⟩ (withSlot (fun x => { offeredSlot x with block := true })),
    testAcceptance ⟨0, 0⟩ ((withSlot offeredSlot).mapSection 4 (fun _ => occupiedSection 4)),
    testAcceptance ⟨0, 0⟩ (withSlot (fun x => { offeredSlot x with permit := .heldHere }))].map (fun t => news (.next t)) =
    [[.slotIn ⟨0, 0⟩ .accepted .none], [.slotIn ⟨0, 0⟩ .declining (.condition 1)], [.slotIn ⟨0, 0⟩ .declining (.condition 2)],
     [.slotIn ⟨0, 0⟩ .declining (.condition 3)], [.slotIn ⟨0, 0⟩ .declining (.condition 4)]] := by decide +kernel

theorem witness_LinkLossTable : yard.slot? ⟨0, 0⟩ = some (restingSlot 0 4) := by decide +kernel

/-- Route 6, which ends at slot 0, in a state. -/
def exitRoute (st : RouteState) : ActiveRoute :=
  { active5 st with id := 6, variant := none, released := [false], marks := [true], overlap := .none, flanks := []
                    exitSlot := some ⟨0, 0⟩ }

/-- An offer may begin for a locked exit route; an entered one with B occupied brings the slot to TRANSIT. -/
theorem witness_LinkLossTable_outbound :
    let x := restingSlot 0 4
    (∃ a ∈ { yard with routes := [exitRoute .locked] }.routes, a.state = .locked ∧ a.exitSlot = some x.ref)
      ∧ x.permit = .heldHere ∧ x.outb = .none ∧ x.reconciled = true ∧ x.block = false ∧ x.cap = .both
      ∧ (∃ y, yard.link? x.ref.link = some y ∧ y.state = .up) ∧ yard.dev.state = .inService
      ∧ hasEntered (exitRoute .entered) = true
      ∧ secStatusIs (yard.mapSection 4 (fun _ => occupiedSection 4)) x.bsec .occupied = true :=
  ⟨⟨_, List.mem_singleton_self _, rfl, rfl⟩, rfl, rfl, rfl, rfl, rfl, ⟨_, rfl, rfl⟩, rfl, rfl, by decide +kernel⟩

/-- The offer, its acceptance, TRANSIT after a train without one, and its end with the route (R143 to R145). -/
theorem test_outbound :
    let s : State := { yard with routes := [exitRoute .locked] }
    news (.next (tryOffer ⟨0, 0⟩ s)) = [.slotOut ⟨0, 0⟩ .offered .none]
      ∧ news (.next (testTransit ⟨0, 0⟩ ({ s with routes := [exitRoute .entered] }.mapSection 4 (fun _ => occupiedSection 4)))) =
        [.slotOut ⟨0, 0⟩ .transit .unaccepted]
      ∧ news (.next (slotRouteGone .complete ⟨0, 0⟩ (withSlot (fun x => { x with outb := .transit })))) =
        [.slotOut ⟨0, 0⟩ .none .complete] := by decide +kernel

/-- A TRANSIT that ends with PERMIT_FAULT: the route is told no RECEIVED, in a new TRANSIT neither (R144, R145). -/
theorem test_lost_transit :
    let s : State := { (withSlot (fun x => { x with outb := .transit })).mapSection 4 (fun _ => occupiedSection 4) with
      routes := [exitRoute .entered] }
    let t := endOutbound ⟨0, 0⟩ s
    let u := testTransit ⟨0, 0⟩ (t.mapSlot ⟨0, 0⟩ (fun x => { x with peer := some ⟨.notHold, .none, .received⟩ }))
    (t.routes.map (·.transitLost), t.slots.map (·.outb)) = ([true], [.none])
      ∧ (u.routes.map (·.received), u.slots.map (fun x => (x.outb, x.receivedReported))) = ([false], [(.transit, true)]) := by
  decide +kernel

/-- Refusing ends at a delivery without REQUEST, at the one that reconciles the slot again too (R139). -/
theorem test_refusing_ends :
    let s (r : Bool) := withSlot (fun x => { x with permit := .heldHere, refusing := true, reconciled := r })
    let p : PubFields := ⟨.notHold, .none, .none⟩
    ([s true, s false].map (fun u => (deliverSlot ⟨0, 0⟩ p u).slots.map (·.refusing))) = [[false], [false]]
      ∧ ((deliverSlot ⟨0, 0⟩ { p with permit := .request } (s false)).slots.map (·.refusing)) = [true] := by decide +kernel

/-- The lines of R141 on a transfer, an offer and a reservation. -/
theorem test_link_loss :
    news (.next (loseSlot ⟨0, 0⟩ (withSlot (fun x => { x with permit := .taking, outb := .offered, inb := .accepted })))) =
    [.permitState ⟨0, 0⟩ .heldThere .linkLoss, .slotOut ⟨0, 0⟩ .none .linkLoss, .slotIn ⟨0, 0⟩ .acceptedIsolated .linkLoss] := by
  decide +kernel

/-! ## Witnesses: configuration and laws -/

theorem witness_ParametersWrittenAndApplied :
    Completes ⟨.A, .setParameter, 9, 11 :: b2 700⟩ (waiting ⟨.A, .setParameter, 9, 11 :: b2 700⟩ yard)
      ∧ Completes ⟨.A, .applyParameters, 9, []⟩ (waiting ⟨.A, .applyParameters, 9, []⟩ yard)
      ∧ yard.dev.active.length = yard.dev.pendingParams.length :=
  ⟨completes_of (by decide +kernel), completes_of (by decide +kernel), by decide +kernel⟩

/-- Ids and values at the ends of their ranges (R168), and the count of changed values (R169). -/
theorem test_parameters : [
    news (concurred (.setParameter .A 9 0 1) yard), news (concurred (.setParameter .A 9 17 1) yard),
    news (concurred (.setParameter .A 9 11 700) yard), news (concurred (.setParameter .A 9 11 600) yard),
    news (concurred (.setParameter .A 9 1 19) yard), news (concurred (.setParameter .A 9 16 3000) yard),
    news (concurred (.applyParameters .A 9) { yard with dev := { yard.dev with pendingParams := yard.dev.pendingParams.set 10 600 } })] =
    [[.requestDone 9 .setParameter .badValue 0], [.requestDone 9 .setParameter .badValue 0], [.requestDone 9 .setParameter .clamped 600],
     [.requestDone 9 .setParameter .done 0], [.requestDone 9 .setParameter .clamped 20], [.requestDone 9 .setParameter .done 0],
     [.requestDone 9 .applyParameters .done 0, .parametersApplied 1]] := by decide +kernel

/-- The yard before its configuration is accepted. -/
def awaitingYard : State := { yard with dev := { yard.dev with state := .awaiting } }

theorem witness_ConfigurationIsAccepted :
    Completes ⟨.A, .acceptConfiguration, 9, b4 5⟩ (waiting ⟨.A, .acceptConfiguration, 9, b4 5⟩ awaitingYard)
      ∧ Completes ⟨.A, .acceptConfiguration, 9, b4 5⟩ (waiting ⟨.A, .acceptConfiguration, 9, b4 5⟩ yard) :=
  ⟨completes_of (by decide +kernel), completes_of (by decide +kernel)⟩

/-- In IN_SERVICE, with the digest, and with another one (R164). The CRC-32 of no bytes is 0. -/
theorem test_accept : [
    news (concurred (.acceptConfiguration .A 9 0) yard), news (concurred (.acceptConfiguration .A 9 0) awaitingYard),
    news (concurred (.acceptConfiguration .A 9 1) awaitingYard)] =
    [[.requestDone 9 .acceptConfiguration .wrongState 0],
     [.requestDone 9 .acceptConfiguration .done 0, .deviceState .inService .accepted none],
     [.requestDone 9 .acceptConfiguration .digestMismatch 0]] := by decide +kernel

theorem witness_DeviceResetClears :
    Completes ⟨.A, .deviceReset, 9, []⟩ (waiting ⟨.A, .deviceReset, 9, []⟩ yard) ∧ yard.links.map (·.id) = [0, 1, 2, 3] :=
  ⟨completes_of (by decide +kernel), by decide +kernel⟩

/-- DEVICE RESET with its copy intact and with another copy (R170). -/
theorem test_device_reset :
    news (concurred (.deviceReset .A 9) yard) = [] ∧ responseOf .A (concurred (.deviceReset .A 9) yard) = some (.concurred, [0x33, 0, 0, 0])
    ∧ after (fun t => (t.dev.state, t.chanA.state, t.chanB.state)) (concurred (.deviceReset .A 9) yard) = some (.awaiting, .absent, .absent)
    ∧ news (concurred (.deviceReset .A 9) { yard with dev := { yard.dev with copy := [1] } }) =
      [.deviceState .safeHalt .imageCheck none, .linkState 0 .down .halt] := by decide +kernel

theorem witness_ImageFillsOrHalts : State.reset.dev.state = .loading ∧ State.reset.dev.drst = false
    ∧ validate smallImage = none ∧ validate [] = some (.memory, 0) ∧ State.reset.routes = [] ∧ State.reset.table = []
    ∧ State.reset.slots = [] ∧ (∀ x ∈ State.reset.links, x.conf = none) := by decide +kernel

theorem witness_ImageCheckHalts : yard.dev.checkTimer.mode = .running ∧ yard.dev.state = .inService
    ∧ some (imageCrc yard.dev.copy) = yard.dev.digest ∧ yard.links.map (·.id) = [0, 1, 2, 3]
    ∧ some (imageCrc [1]) ≠ yard.dev.digest := by decide +kernel

/-- A halt with routes 5 and 6 and their timers running, a half waiting and a slot that awaits an answer. -/
def haltYard : State :=
  { setYard { active5 .permitted with overlapTimer := ⟨.running, 6⟩ } with
    dev := { yard.dev with copy := [1] }, table := heldYard.table
    routes := [{ active5 .permitted with overlapTimer := ⟨.running, 6⟩ },
      { active5 .approachHeld with id := 6, release := ⟨.running, 7⟩ }]
    slots := [{ restingSlot 0 4 with outb := .offered, accept := ⟨.running, 5⟩, transit := ⟨.running, 8⟩ }] }

theorem witness_ImageCheckHalts_halt :
    haltYard.dev.checkTimer.mode = .running ∧ some (imageCrc haltYard.dev.copy) ≠ haltYard.dev.digest
      ∧ (haltYard.routes.map (·.id)).Nodup ∧ (∃ a ∈ haltYard.routes, a.state = .permitted)
      ∧ (∃ x, haltYard.link? 0 = some x ∧ x.conf ≠ none ∧ x.state = .up) ∧ haltYard.links.map (·.id) = [0, 1, 2, 3] :=
  ⟨by decide +kernel, by decide +kernel, by decide +kernel, ⟨_, List.mem_cons_self .., rfl⟩, ⟨_, rfl, by decide, rfl⟩,
    by decide +kernel⟩

/-- The halt keeps every holder and stops the timers with their time; the offer of the lost link ends (R73, R141, R167). -/
theorem test_halt_keeps :
    let o := exec .imageCheckTimerExpiry haltYard
    after (fun t => (t.sections == haltYard.sections, t.routes.map (fun a => (a.state, a.grantAllowed)))) o =
      some (true, [(.locked, false), (.approachHeld, true)])
    ∧ after (fun t => t.routes.map (fun a => (a.overlapTimer, a.release))) o =
      some [(⟨.stopped, 6⟩, .off), (.off, ⟨.stopped, 7⟩)]
    ∧ after (fun t => t.slots.map (fun x => (x.outb, x.accept, x.transit))) o = some [(.none, .off, ⟨.stopped, 8⟩)] := by
  decide +kernel

/-- The periodic check on another copy takes permission and halts the links (R166, R167). -/
theorem test_image_check :
    (news (exec .imageCheckTimerExpiry { setYard (active5 .permitted) with dev := { yard.dev with copy := [1] } })).take 1 =
      [.deviceState .safeHalt .imageCheck none]
    ∧ after (fun t => (t.dev.health, t.routes.map (·.state), t.links.map (·.halted)))
      (exec .imageCheckTimerExpiry { setYard (active5 .permitted) with dev := { yard.dev with copy := [1] } }) =
      some (false, [.locked], [true, false, false, false]) := by decide +kernel

theorem witness_ClockAndHealth : yard.dev.drst = false
    ∧ { yard with dev := { yard.dev with drst := true } }.dev.drst = true := ⟨rfl, rfl⟩

/-- Device time wraps, and a link timer loses a hundred milliseconds where a section timer loses a decisecond (R162). -/
theorem test_clock : after (fun t => (t.dev.time, t.chanA.supervision, t.dev.checkTimer))
    (exec .deviceTimeTick { yard with dev := { yard.dev with time := 0xFFFFFFFF } }) =
    some (0, ⟨.running, 400⟩, ⟨.running, 99⟩) := by decide +kernel

theorem reset_ElementLaw : ElementLaw State.reset :=
  ⟨by simp [State.reset, State.loading], by simp [State.reset, State.loading], by simp [State.reset, State.loading]⟩

theorem reset_HolderLaw : HolderLaw State.reset :=
  ⟨by simp [State.reset, State.loading], by simp [State.reset, State.loading], by simp [State.reset, State.loading],
    by simp [State.reset, State.loading], by simp [State.reset, State.loading]⟩

theorem reset_LockLaw : LockLaw State.reset :=
  ⟨by decide, fun _ => rfl, by simp [State.reset, State.loading], by simp [State.reset, State.loading],
    by simp [State.reset, State.loading], by simp [State.reset, State.loading], by simp [State.reset, State.loading],
    by simp [State.reset, State.loading], by simp [State.reset, State.loading]⟩

theorem reset_AuthorityLaw : AuthorityLaw State.reset :=
  ⟨by decide, fun _ => rfl, by simp [State.reset, State.loading], by simp [State.reset, State.loading, State.signal?],
    by simp [State.reset, State.loading], by simp [State.reset, State.loading]⟩

theorem reset_ProceedLaw : ProceedLaw State.reset :=
  ⟨by simp [State.reset, State.loading], by simp [State.reset, State.loading], by simp [State.reset, State.loading],
    by simp [State.reset, State.loading], by simp [State.reset, State.loading], by simp [State.reset, State.loading]⟩

theorem reset_ClaimLaw : ClaimLaw State.reset :=
  ⟨by simp [State.reset, State.loading, State.point?], by simp [State.reset, State.loading, State.point?],
    by simp [State.reset, State.loading], by simp [State.reset, State.loading, State.signal?]⟩

theorem reset_ChannelLaw : ChannelLaw State.reset :=
  ⟨by decide, by intro ch; cases ch <;> decide, by intro ch; cases ch <;> decide, by simp [State.reset, State.loading]⟩

theorem reset_ReservationLaw : ReservationLaw State.reset := ⟨by decide, by simp [State.reset, State.loading]⟩

theorem reset_StoreLaw : StoreLaw State.reset :=
  ⟨by intro ch; cases ch <;> decide, by decide, by decide, by decide, by decide, by decide⟩

/-- One step from reset with a command in front. -/
def resetStep : State := { State.reset with pending := [.drstReleased] }

/-- A section, a point and a signal with their discrepancy timers running, a section in CLEARING and a watched signal. -/
theorem witness_StepKeepsElementLaw :
    let s : State := { discYard with pending := [.clearanceTimerExpiry 2] }
    ElementLaw s ∧ ∃ t, step s = .next t := by
  refine ⟨⟨fun x hx => ?_, fun x hx => ?_, fun x hx => ?_⟩, _, rfl⟩
  · rcases List.mem_cons.1 hx with rfl | hx
    · constructor <;> decide
    rcases List.mem_cons.1 hx with rfl | hx
    · constructor <;> decide
    rcases List.mem_cons.1 hx with rfl | hx
    · constructor <;> decide
    · obtain rfl := List.mem_singleton.1 hx; constructor <;> decide
  · rcases List.mem_cons.1 hx with rfl | hx
    · constructor <;> decide
    · obtain rfl := List.mem_singleton.1 hx; constructor <;> decide
  · rcases List.mem_cons.1 hx with rfl | hx
    · constructor <;> decide
    · obtain rfl := List.mem_singleton.1 hx; constructor <;> decide

/-! ## A lawful state: route 5 in PERMITTED toward slot 0 in ACCEPTED -/

def lawRoute : ActiveRoute := { active5 .permitted with exitSlot := some ⟨0, 0⟩ }

/-- Point 100 held and claimed, point 101 claimed, a full claim set on signal 202; link 0 is about to be lost. -/
def lawYard : State :=
  { setYard lawRoute with
    points := [{ normalPoint 100 1 with hold := .route 5 .normal, claims := [⟨5, 2⟩], claimPos := some .normal },
      { normalPoint 101 3 with claims := [⟨5, 1⟩], claimPos := some .normal }]
    signals := [{ dangerSignal 200 1 with entryOf := some 5, perm := some 5 }, dangerSignal 201 2,
      { dangerSignal 202 3 with claims := (List.range 8).map (fun i => ⟨5, i + 1⟩) }]
    slots := [{ restingSlot 0 4 with outb := .accepted }]
    pending := [.linkSupervisionExpiry 0] }

theorem lawYard_steps : ∃ t, step lawYard = .next t := ⟨_, rfl⟩

theorem lawYard_route {p : ActiveRoute → Prop} (h : p lawRoute) : ∀ a ∈ lawYard.routes, p a := by
  intro a ha; obtain rfl := List.mem_singleton.1 ha; exact h

theorem lawYard_section {p : SectionRec → Prop} (h1 : p { clearSection 1 with holder := .route 5 })
    (h2 : p { clearSection 2 with holder := .route 5 }) (h3 : p (clearSection 3))
    (h4 : p { clearSection 4 with holder := .overlap 5 }) : ∀ x ∈ lawYard.sections, p x := by
  intro x hx
  rcases List.mem_cons.1 hx with rfl | hx
  · exact h1
  rcases List.mem_cons.1 hx with rfl | hx
  · exact h2
  rcases List.mem_cons.1 hx with rfl | hx
  · exact h3
  · obtain rfl := List.mem_singleton.1 hx; exact h4

theorem lawYard_point {p : PointRec → Prop}
    (h1 : p { normalPoint 100 1 with hold := .route 5 .normal, claims := [⟨5, 2⟩], claimPos := some .normal })
    (h2 : p { normalPoint 101 3 with claims := [⟨5, 1⟩], claimPos := some .normal }) : ∀ x ∈ lawYard.points, p x := by
  intro x hx
  rcases List.mem_cons.1 hx with rfl | hx
  · exact h1
  · obtain rfl := List.mem_singleton.1 hx; exact h2

theorem lawYard_signal {p : SignalRec → Prop} (h1 : p { dangerSignal 200 1 with entryOf := some 5, perm := some 5 })
    (h2 : p (dangerSignal 201 2)) (h3 : p { dangerSignal 202 3 with claims := (List.range 8).map (fun i => ⟨5, i + 1⟩) }) :
    ∀ x ∈ lawYard.signals, p x := by
  intro x hx
  rcases List.mem_cons.1 hx with rfl | hx
  · exact h1
  rcases List.mem_cons.1 hx with rfl | hx
  · exact h2
  · obtain rfl := List.mem_singleton.1 hx; exact h3

theorem lawYard_ElementLaw : ElementLaw lawYard :=
  ⟨lawYard_section (by constructor <;> decide) (by constructor <;> decide) (by constructor <;> decide)
      (by constructor <;> decide),
    lawYard_point (by constructor <;> decide) (by constructor <;> decide),
    lawYard_signal (by constructor <;> decide) (by constructor <;> decide) (by constructor <;> decide)⟩

theorem lawYard_HolderLaw : HolderLaw lawYard := by
  have h5 : ∃ a ∈ lawYard.routes, a.id = 5 := ⟨lawRoute, List.mem_singleton_self _, rfl⟩
  refine ⟨fun x hx r h => ?_, fun x hx r p h => ?_, fun x hx r h => ?_, fun x hx c hc => ?_, fun x hx c hc => ?_⟩
  · have : 5 = r := lawYard_section (p := fun x => x.holder = .route r ∨ x.holder = .overlap r → 5 = r)
      (by simp) (by simp) (by simp [clearSection, newSection]) (by simp) x hx h
    exact this ▸ h5
  · have : 5 = r := lawYard_point (p := fun x => x.hold = .route r p ∨ x.hold = .overlap r p → 5 = r)
      (by simp; exact fun e _ => e) (by simp [normalPoint, newPoint]) x hx h
    exact this ▸ h5
  · have : 5 = r := lawYard_signal (p := fun x => x.entryOf = some r → 5 = r) (by simp) nofun nofun x hx h
    exact this ▸ h5
  · have : c.route = 5 := lawYard_point (p := fun x => ∀ c ∈ x.claims, c.route = 5) (by simp) (by simp) x hx c hc
    exact this ▸ h5
  · have : c.route = 5 := lawYard_signal (p := fun x => ∀ c ∈ x.claims, c.route = 5) nofun nofun (by decide) x hx c hc
    exact this ▸ h5

theorem lawYard_LockLaw : LockLaw lawYard := by
  refine ⟨by decide +kernel, (fun e => nomatch e), ?_, lawYard_route ?_, lawYard_route ?_, lawYard_route ?_,
    lawYard_route ?_, lawYard_route (by decide), lawYard_route ?_⟩
  · intro d hd
    rcases List.mem_cons.1 hd with rfl | hd
    · constructor <;> decide
    · obtain rfl := List.mem_singleton.1 hd; constructor <;> decide
  · intro j id hj _
    match j with
    | 0 => obtain rfl : 1 = id := Option.some.inj hj
           exact ⟨_, rfl, rfl⟩
    | 1 => obtain rfl : 2 = id := Option.some.inj hj
           exact ⟨_, rfl, rfl⟩
    | _ + 2 => cases hj
  · intro q hq x hx _ _ _; obtain rfl := List.mem_singleton.1 hq; obtain rfl := Option.some.inj hx; rfl
  · intro _ id hid; obtain rfl := List.mem_singleton.1 hid; exact ⟨_, rfl, rfl⟩
  · intro _ q hq; cases hq
  · intro f hf _; obtain rfl := List.mem_singleton.1 hf; exact ⟨_, rfl, List.mem_singleton_self _⟩

theorem lawYard_AuthorityLaw : AuthorityLaw lawYard := by
  refine ⟨by decide +kernel, (fun e => nomatch e), fun _ _ _ => ⟨rfl, fun ch => .inl (by cases ch <;> rfl)⟩, ?_,
    lawYard_route (fun _ => ⟨_, rfl, rfl⟩), lawYard_route (fun _ => ⟨_, rfl, rfl⟩)⟩
  intro g x r hg hp
  have hi : x.id = g := by simpa using List.find?_some hg
  subst hi
  have h : ∀ y ∈ lawYard.signals, y.perm = some r → 5 = r ∧ y.id = 200 :=
    lawYard_signal (fun h => ⟨Option.some.inj h, rfl⟩) nofun nofun
  obtain ⟨rfl, h2⟩ := h x (List.mem_of_find?_eq_some hg) hp
  exact ⟨lawRoute, List.mem_singleton_self _, rfl, rfl, h2.symm⟩

theorem lawYard_ProceedLaw : ProceedLaw lawYard := by
  refine ⟨lawYard_route ?_, lawYard_route ?_, lawYard_route ?_, lawYard_route ?_, lawYard_route ?_, lawYard_route ?_⟩
  · intro f hf _; obtain rfl := List.mem_singleton.1 hf; rfl
  · intro _ id hid
    have hid : id ∈ [1, 2, 4] := hid
    simp only [List.mem_cons, List.not_mem_nil, or_false] at hid
    rcases hid with rfl | rfl | rfl <;> exact ⟨_, rfl, rfl⟩
  · intro _ q hq; obtain rfl := List.mem_singleton.1 hq; exact ⟨_, rfl, rfl⟩
  · intro _ f hf _; obtain rfl := List.mem_singleton.1 hf; exact ⟨_, rfl, rfl⟩
  · intro _; exact ⟨_, rfl, rfl, rfl, by decide, rfl⟩
  · intro _ ref h; obtain rfl := Option.some.inj h; exact ⟨_, rfl, rfl⟩

theorem lawYard_ClaimLaw : ClaimLaw lawYard := by
  have hp : ∀ id x, lawYard.point? id = some x → x ∈ lawYard.points := fun _ _ h => List.mem_of_find?_eq_some h
  refine ⟨fun id x h => ?_, fun id x r p h => ?_, lawYard_route ?_, fun id x h => ?_⟩
  · exact lawYard_point (p := fun x => x.claims.length ≤ 8 ∧ x.claims.Nodup ∧ (x.claims = [] ↔ x.claimPos = none))
      (by decide) (by decide) x (hp id x h)
  · refine lawYard_point (p := fun x => x.hold = .route r p ∨ x.hold = .overlap r p → x.claims ≠ [] → x.claimPos = some p)
      ?_ ?_ x (hp id x h) <;> intro e _ <;> rcases e with e | e <;> cases e
    rfl
  · intro f hf _ id p x ho hx
    obtain rfl := List.mem_singleton.1 hf
    cases ho; obtain rfl := Option.some.inj hx; rfl
  · exact lawYard_signal (p := fun x => x.claims.length ≤ 8 ∧ x.claims.Nodup) (by decide) (by decide) (by decide) x
      (List.mem_of_find?_eq_some h)

/-- Both sections, the point, the overlap and the flank claim of route 5 stand. -/
theorem witness_StepKeepsHolderLaw : HolderLaw lawYard ∧ LockLaw lawYard ∧ ∃ t, step lawYard = .next t :=
  ⟨lawYard_HolderLaw, lawYard_LockLaw, lawYard_steps⟩

/-- The loss of the link takes the permission of route 5. -/
theorem witness_StepKeepsHolderLaw_proceed :
    ElementLaw lawYard ∧ AuthorityLaw lawYard ∧ ProceedLaw lawYard ∧ (∃ t, step lawYard = .next t)
      ∧ (∃ a ∈ lawYard.routes, a.state = .permitted) ∧ after (fun t => t.routes.map (·.state)) (step lawYard) = some [.locked] :=
  ⟨lawYard_ElementLaw, lawYard_AuthorityLaw, lawYard_ProceedLaw, lawYard_steps,
    ⟨lawRoute, List.mem_singleton_self _, rfl⟩, by decide +kernel⟩

/-- Slot 0 in ACCEPTED, with ENTRY on its boundary section. -/
theorem witness_StepKeepsHolderLaw_reservation :
    let s : State := { (withSlot (fun x => { x with inb := .accepted })).mapSection 4
      (fun x => { x with holder := .entry 0 0 }) with pending := [.healthToggle] }
    ReservationLaw s ∧ (∃ t, step s = .next t) ∧ ∃ x, s.section? 4 = some x ∧ x.holder = .entry 0 0 := by
  refine ⟨⟨by decide +kernel, ?_⟩, ⟨_, rfl⟩, _, rfl, by decide +kernel⟩
  intro x hx l i h
  have : ∀ y ∈ ((withSlot (fun x => { x with inb := .accepted })).mapSection 4
      (fun x => { x with holder := .entry 0 0 })).sections, y.holder = .none ∨ (y.holder = .entry 0 0 ∧ y.id = 4) := by
    decide +kernel
  rcases this x hx with e | ⟨e, e4⟩
  · rw [e] at h; cases h
  · rw [e] at h; cases h
    exact ⟨_, List.mem_singleton_self _, rfl, e4.symm, .inl rfl⟩

theorem witness_StepKeepsStoreLaw : StoreLaw resetStep ∧ ∃ t, step resetStep = .next t :=
  ⟨⟨by intro ch; cases ch <;> decide, by decide, by decide, by decide, by decide, by decide⟩, _, rfl⟩

theorem witness_StepKeepsStoreLaw_claims :
    HolderLaw lawYard ∧ LockLaw lawYard ∧ ClaimLaw lawYard ∧ ∃ t, step lawYard = .next t :=
  ⟨lawYard_HolderLaw, lawYard_LockLaw, lawYard_ClaimLaw, lawYard_steps⟩

/-- Channel B PAUSED, with a half that waits for it and one that waits for A. -/
theorem witness_StepKeepsStoreLaw_channels :
    let s : State := { withB (fun c => { c with state := .paused, supervision := .off, pauseLimit := ⟨.running, 1000⟩ }) yard with
      table := [⟨1, .A, .blockElement, [0, 1], ⟨.suspended, 60⟩⟩, ⟨2, .B, .blockElement, [0, 1], ⟨.running, 60⟩⟩]
      pending := [.resume .B 9] }
    ChannelLaw s ∧ (∃ t, step s = .next t)
      ∧ after (fun t => t.table.map (·.window)) (step s) = some [⟨.running, 60⟩, ⟨.running, 60⟩] := by
  refine ⟨⟨by decide, by intro ch; cases ch <;> decide, by intro ch; cases ch <;> decide, ?_⟩, ⟨_, rfl⟩, by decide +kernel⟩
  intro h hh
  rcases List.mem_cons.1 hh with rfl | hh
  · rfl
  · obtain rfl := List.mem_singleton.1 hh; rfl

theorem witness_LayoutIsFixed : Instr.healthToggle ≠ .drstAsserted ∧ (∀ bs, Instr.healthToggle ≠ .imageReadComplete bs)
    ∧ ∃ t, exec .healthToggle yard = .next t := ⟨by decide, by simp, _, rfl⟩

end Sys2Proof.Tests
end

section
/-!
PROOFS. The agreed status of a signal, line by line of the table of R13, and O4.
-/

namespace Sys2Proof.Machine

variable {x : SignalRec}

/-- First line of R13: masked with no proceed reported, or danger reported by both channels. -/
theorem SignalRec.derivedStatus_of_danger
    (h : (x.mask = true ∧ x.viewA ≠ .proceed ∧ x.viewB ≠ .proceed) ∨ (x.viewA = .danger ∧ x.viewB = .danger)) :
    x.derivedStatus = .danger := by
  simp only [derivedStatus, not_or]
  exact if_pos h

/-- Second line of R13, whatever the mask: it never hides a proceed aspect that a channel reports. -/
theorem SignalRec.derivedStatus_of_proceed (h : x.viewA = .proceed ∨ x.viewB = .proceed) :
    x.derivedStatus = .proceed := by
  rcases h with hA | hB
  · simp [derivedStatus, hA]
  · simp [derivedStatus, hB]

/-- Third line of R13, below the second. -/
theorem SignalRec.derivedStatus_of_dark (hm : x.mask = false) (hp : ¬ (x.viewA = .proceed ∨ x.viewB = .proceed))
    (h : x.viewA = .dark ∨ x.viewB = .dark) : x.derivedStatus = .dark := by
  obtain ⟨hpA, hpB⟩ := not_or.1 hp
  rcases h with hA | hB
  · simp [derivedStatus, hm, hpB, hA]
  · simp [derivedStatus, hm, hpA, hB]

/-- Last line of R13, below the three others. -/
theorem SignalRec.derivedStatus_of_no_line (hm : x.mask = false) (hdd : ¬ (x.viewA = .danger ∧ x.viewB = .danger))
    (hp : ¬ (x.viewA = .proceed ∨ x.viewB = .proceed)) (hd : ¬ (x.viewA = .dark ∨ x.viewB = .dark)) :
    x.derivedStatus = .unproven := by
  simp [derivedStatus, hm, hdd, hp, hd]

/-- Settles O4, by the lines of the table in order: below the first two no channel reports proceed, so the signal is
not masked, and the test of the mask in the model's third line decides nothing. -/
theorem signalStatusTable : Obligations.SignalStatusTable := by
  unfold Obligations.SignalStatusTable
  intro x
  split_ifs with hdanger hproceed hdark
  · exact SignalRec.derivedStatus_of_danger hdanger
  · exact SignalRec.derivedStatus_of_proceed hproceed
  all_goals
    obtain ⟨hmask, hboth⟩ := not_or.1 hdanger
    have hunmasked : x.mask = false := Bool.eq_false_iff.2 fun hm => hmask ⟨hm, not_or.1 hproceed⟩
  · exact SignalRec.derivedStatus_of_dark hunmasked hproceed hdark
  · exact SignalRec.derivedStatus_of_no_line hunmasked hboth hproceed hdark

end Sys2Proof.Machine
end

section
/-!
PROOFS. An event queue: the four lines of the table of R158, the count of events that a queue accounts for, and O23.
-/

namespace Sys2Proof.Machine

/-! ## The count of events that a queue accounts for -/

@[simp] theorem EventQueue.account_nil (l : Nat) : account ⟨[], l⟩ = l := rfl

/-- A LOST record stands for the events that were dropped before it. -/
@[simp] theorem EventQueue.account_cons_lost (c : Channel) (n : Nat) (now : Word) (rs : List EventRec) (l : Nat) :
    account ⟨⟨.lost c n, now⟩ :: rs, l⟩ = n + account ⟨rs, l⟩ := by
  simp only [account, List.map_cons, List.sum_cons]
  omega

theorem EventQueue.account_cons_event {e : Event} (he : ∀ c n, e ≠ .lost c n) (now : Word) (rs : List EventRec)
    (l : Nat) : account ⟨⟨e, now⟩ :: rs, l⟩ = 1 + account ⟨rs, l⟩ := by
  cases e
  case lost c n => exact absurd rfl (he c n)
  all_goals
    simp only [account, List.map_cons, List.sum_cons]
    omega

/-- Wherever a queue is cut, its two parts together account for what it does. -/
theorem EventQueue.account_append (xs ys : List EventRec) (l : Nat) :
    account ⟨xs ++ ys, l⟩ = account ⟨xs, 0⟩ + account ⟨ys, l⟩ := by
  simp only [account, List.map_append, List.sum_append]
  omega

theorem EventQueue.account_eq_add_lost (q : EventQueue) : q.account = account ⟨q.records, 0⟩ + q.lost := by
  have h := account_append q.records [] q.lost
  rwa [List.append_nil, account_nil] at h

theorem EventQueue.account_take_add_drop (q : EventQueue) (k : Nat) :
    q.account = account ⟨q.records.take k, 0⟩ + account ⟨q.records.drop k, q.lost⟩ := by
  rw [← account_append, List.take_append_drop]

/-! ## The table of R158 -/

section Offer
variable {q : EventQueue} (ch : Channel) (now : Word) (e : Event)

/-- The four lines of R158: a full queue; no loss to tell; room for the LOST record and the event; room for the LOST
record alone. -/
theorem EventQueue.offer_cases (hq : q.records.length ≤ 64) :
    (q.records.length = 64 ∧ q.offer ch now e = ⟨q.records, min (q.lost + 1) 65535⟩)
    ∨ (q.records.length < 64 ∧ q.lost = 0 ∧ q.offer ch now e = ⟨q.records ++ [⟨e, now⟩], 0⟩)
    ∨ (q.records.length ≤ 62 ∧ q.lost ≠ 0
        ∧ q.offer ch now e = ⟨q.records ++ [⟨.lost ch q.lost, now⟩, ⟨e, now⟩], 0⟩)
    ∨ (q.records.length = 63 ∧ q.lost ≠ 0 ∧ q.offer ch now e = ⟨q.records ++ [⟨.lost ch q.lost, now⟩], 1⟩) := by
  unfold offer Config.maxEvents
  split_ifs with hfull hlost hroom
  · exact .inl ⟨by omega, rfl⟩
  · exact .inr (.inl ⟨by omega, hlost, by rw [hlost]⟩)
  · exact .inr (.inr (.inl ⟨by omega, hlost, rfl⟩))
  · exact .inr (.inr (.inr ⟨by omega, hlost, rfl⟩))

theorem EventQueue.offer_length_le (hq : q.records.length ≤ 64) : (q.offer ch now e).records.length ≤ 64 := by
  obtain ⟨hlen, h⟩ | ⟨hlen, -, h⟩ | ⟨hlen, -, h⟩ | ⟨hlen, -, h⟩ := offer_cases ch now e hq
  all_goals
    simp only [h, List.length_append, List.length_cons, List.length_nil]
    omega

theorem EventQueue.offer_lost_le (hq : q.records.length ≤ 64) : (q.offer ch now e).lost ≤ 65535 := by
  obtain ⟨-, h⟩ | ⟨-, -, h⟩ | ⟨-, -, h⟩ | ⟨-, -, h⟩ := offer_cases ch now e hq
  · simp only [h, Nat.min_le_right]
  all_goals simp [h]

variable {e}

/-- Below saturation no line of R158 lets an event go uncounted: it is placed as a record, or dropped into the lost
count, and a lost count that returns to 0 or 1 has been moved to a LOST record. -/
theorem EventQueue.account_offer (hq : q.records.length ≤ 64) (he : ∀ c n, e ≠ .lost c n) (hsat : q.lost < 65535) :
    (q.offer ch now e).account = q.account + 1 := by
  rw [account_eq_add_lost q]
  obtain ⟨-, h⟩ | ⟨-, hlost, h⟩ | ⟨-, -, h⟩ | ⟨-, -, h⟩ := offer_cases ch now e hq
  · have hcount : min (q.lost + 1) 65535 = q.lost + 1 := Nat.min_eq_left hsat
    rw [h, hcount, account_eq_add_lost, Nat.add_assoc]
  · rw [h, account_append, account_cons_event he, account_nil, hlost]
  · rw [h, account_append, account_cons_lost, account_cons_event he, account_nil, Nat.add_assoc]
  · rw [h, account_append, account_cons_lost, account_nil, Nat.add_assoc]

end Offer

/-- Settles O23, by the four lines of the table of R158. -/
theorem eventOffersAreCounted : Obligations.EventOffersAreCounted := by
  unfold Obligations.EventOffersAreCounted
  intro q ch now e hq he
  refine ⟨?table, EventQueue.offer_length_le ch now e hq, fun _ => EventQueue.offer_lost_le ch now e hq, rfl,
    EventQueue.account_offer ch now hq he, q.account_take_add_drop⟩
  obtain ⟨hlen, h⟩ | ⟨hlen, hlost, h⟩ | ⟨hlen, hlost, h⟩ | ⟨hlen, hlost, h⟩ := EventQueue.offer_cases ch now e hq
  · rwa [if_pos hlen]
  · rwa [if_neg hlen.ne, if_pos hlost]
  · rwa [if_neg (by omega), if_neg hlost, if_pos hlen]
  · rwa [if_neg (by omega), if_neg hlost, if_neg (by omega)]

end Sys2Proof.Machine
end

/-!
PROOFS. The laws whose every clause is about single records, or about the names and counts of records: each is closed under
the kinds of change of `StepClosed`, so every step keeps it. O1, O56, O59, O60.
-/

namespace Sys2Proof.Machine

/-! ## From a closed property to a law of the step -/

/-- What a property needs beyond `StepClosed` to be kept by every step: the waiting commands, DRST and the image. -/
structure StepKept (P : State → Prop) : Prop where
  closed : StepClosed P
  pending : ∀ s cs, P s → P { s with pending := cs }
  loading : ∀ s, P s → P (assertDrst s)
  fill : ∀ s bs, s.dev.state = .loading → P s → P (fillBlocks bs s)

/-- One step runs the command at the front of the queue, or idles. -/
theorem step_cases {s t : State} (h : step s = .next t) :
    (s.pending = [] ∧ t = s) ∨ ∃ c rest, s.pending = c :: rest ∧ exec c { s with pending := rest } = .next t := by
  unfold step at h
  split at h
  · next hp => exact .inl ⟨hp, by injection h with h; exact h.symm⟩
  · next c rest hp => exact .inr ⟨c, rest, hp, h⟩

theorem StepClosed.imageRead {P : State → Prop} (h : StepClosed P)
    (hfill : ∀ s bs, s.dev.state = .loading → P s → P (fillBlocks bs s)) {s : State} (bs : List Byte) (hs : P s) :
    P (imageRead bs s) := by
  unfold Machine.imageRead
  split
  · next hl =>
    split
    · exact h.enterAwaiting (hfill _ _ hl.1 hs)
    · exact h.enterSafeHalt _ _ _ hs
  · exact hs

theorem StepKept.exec {P : State → Prop} (h : StepKept P) {c : Instr} {s t : State} (e : exec c s = .next t) (hs : P s) :
    P t := by
  by_cases h1 : c = .drstAsserted
  · subst h1; injection e with e; subst e
    exact h.loading _ hs
  · by_cases h2 : ∃ bs, c = .imageReadComplete bs
    · obtain ⟨bs, rfl⟩ := h2
      injection e with e; subst e
      exact h.closed.imageRead h.fill bs hs
    · exact h.closed.exec h1 (fun bs hb => h2 ⟨bs, hb⟩) e hs

theorem StepKept.step {P : State → Prop} (h : StepKept P) {s t : State} (hs : P s) (e : step s = .next t) : P t := by
  obtain ⟨-, rfl⟩ | ⟨c, rest, -, e⟩ := step_cases e
  · exact hs
  · exact h.exec e (h.pending _ _ hs)

/-- Settles O1, by the two cases of `step`. -/
theorem stepRunsFrontCommand : Obligations.StepRunsFrontCommand := by
  unfold Obligations.StepRunsFrontCommand
  refine ⟨fun c rest s h => ?_, fun s h => ?_⟩
  · unfold step; rw [h]
  · unfold step; rw [h]

/-! ## The law of the elements -/

theorem newSection_lawful (id : Nat) : (newSection id).Lawful :=
  ⟨by simp [newSection, SectionRec.occupying], by simp [newSection, Timer.off],
    by simp [newSection, Timer.off, SectionRec.discrepant]⟩

theorem newPoint_lawful (id sec time : Nat) : (newPoint id sec time).Lawful :=
  ⟨by simp [newPoint, PointRec.derivedStatus], by simp [newPoint, Timer.off, PointRec.discrepant],
    by simp [newPoint, Timer.off]⟩

theorem newSignal_lawful (id sec : Nat) : (newSignal id sec).Lawful :=
  ⟨by simp [newSignal, SignalRec.derivedStatus], by simp [newSignal, Timer.off, SignalRec.discrepant],
    by simp [newSignal, Timer.off, SignalRec.watched]⟩

theorem SectionRec.reset_lawful (x : SectionRec) : x.reset.Lawful :=
  ⟨by simp [SectionRec.reset, newSection, SectionRec.occupying], by simp [SectionRec.reset, newSection, Timer.off],
    by simp [SectionRec.reset, newSection, Timer.off, SectionRec.discrepant]⟩

theorem PointRec.reset_lawful (x : PointRec) : x.reset.Lawful :=
  ⟨by simp [PointRec.reset, newPoint, PointRec.derivedStatus],
    by simp [PointRec.reset, newPoint, Timer.off, PointRec.discrepant], by simp [PointRec.reset, newPoint, Timer.off]⟩

theorem SignalRec.reset_lawful (x : SignalRec) : x.reset.Lawful :=
  ⟨rfl, by simp [SignalRec.reset, newSignal, Timer.off, SignalRec.discrepant],
    by simp [SignalRec.reset, newSignal, Timer.off, SignalRec.watched]⟩

/-- A change of every section that keeps each of them lawful. -/
theorem ElementLaw.mapSections {s : State} (h : ElementLaw s) {f : SectionRec → SectionRec}
    (hf : ∀ x, x.Lawful → (f x).Lawful) : ElementLaw { s with sections := s.sections.map f } :=
  ⟨List.forall_mem_map.2 fun x hx => hf x (h.sections x hx), h.points, h.signals⟩

theorem ElementLaw.mapPoints {s : State} (h : ElementLaw s) {f : PointRec → PointRec}
    (hf : ∀ x, x.Lawful → (f x).Lawful) : ElementLaw { s with points := s.points.map f } :=
  ⟨h.sections, List.forall_mem_map.2 fun x hx => hf x (h.points x hx), h.signals⟩

theorem ElementLaw.mapSignals {s : State} (h : ElementLaw s) {f : SignalRec → SignalRec}
    (hf : ∀ x, x.Lawful → (f x).Lawful) : ElementLaw { s with signals := s.signals.map f } :=
  ⟨h.sections, h.points, List.forall_mem_map.2 fun x hx => hf x (h.signals x hx)⟩

theorem ElementLaw.of_eq {s t : State} (h : ElementLaw s) (e1 : t.sections = s.sections) (e2 : t.points = s.points)
    (e3 : t.signals = s.signals) : ElementLaw t := ⟨e1 ▸ h.sections, e2 ▸ h.points, e3 ▸ h.signals⟩

/-- A change of one signal, of its entry-of, claims or permission. -/
theorem SignalRec.Lawful.perm {x : SignalRec} (h : x.Lawful) (p7 : Nat) (p : Option Nat) :
    SignalRec.Lawful { x with perm := p, watch := SignalRec.watchTimer p7 { x with perm := p } } :=
  ⟨h.status, h.disc, watchTimer_law p7 { x with perm := p }⟩

theorem elementLaw_unitClosed : UnitClosed ElementLaw where
  choice _ _ _ h := h.of_eq rfl rfl rfl
  emit _ _ h := h.of_eq rfl rfl rfl; sections _ _ hf h := h.mapSections fun x => (hf.step x).2.2
  points _ _ hf h := h.mapPoints fun x => (hf.step x).2.2
  signals _ _ hf h := h.mapSignals fun x => (hf.step x).2.2
  routes _ _ _ h := h.of_eq rfl rfl rfl
  slots _ _ _ h := h.of_eq rfl rfl rfl
  grant s a _ _ _ h := by
    have h1 := h.mapSignals (f := fun x => if x.id = (s.defOf a.id).entry then
      { x with perm := some a.id, watch := SignalRec.watchTimer (param 7 s) { x with perm := some a.id } } else x)
      (fun x hx => by split; exacts [hx.perm _ _, hx])
    exact h1.of_eq rfl rfl rfl
  dropRoute s r h := by
    have h1 := h.mapSections (f := fun x => if holderIs r x.holder then { x with holder := .none } else x)
      (fun x hx => by split; exacts [⟨hx.occupied, hx.clearance, hx.disc⟩, hx])
    have h2 := (h1.mapPoints (f := fun x => if holdIs r x.hold then { x with hold := .none } else x)
      (fun x hx => by split; exacts [⟨hx.status, hx.disc, hx.move⟩, hx])).mapPoints
      (f := (·.dropClaims (fun c => c.route == r))) (fun x hx => ⟨hx.status, hx.disc, hx.move⟩)
    have h3 := (h2.mapSignals (f := (·.dropClaims (fun c => c.route == r)))
      (fun x hx => ⟨hx.status, hx.disc, hx.watch⟩)).mapSignals
      (f := fun x => if x.entryOf = some r then { x with entryOf := none } else x)
      (fun x hx => by split; exacts [⟨hx.status, hx.disc, hx.watch⟩, hx])
    exact h3.of_eq rfl rfl rfl

theorem elementLaw_take (s : State) (d : RouteDef) (v : Option Nat) (flanks : List FlankRec) (opts : List Nat)
    (h : ElementLaw s) : ElementLaw (takeRoute d v flanks opts s) := by
  refine takeRoute_ind d v flanks opts s ?_ (fun t ht => ?_) (fun f _ t ht => ?_) (fun t _ ht => ht.of_eq rfl rfl rfl)
  · have h1 := h.mapSections (f := takenHolder d v) (fun x hx => by
      unfold takenHolder; repeat' split
      all_goals exact ⟨hx.occupied, hx.clearance, hx.disc⟩)
    exact h1.mapPoints (f := takenHold d v) (fun x hx => by
      unfold takenHold; repeat' split
      all_goals exact ⟨hx.status, hx.disc, hx.move⟩)
  · exact ht.mapSignals (fun x hx => by split; exacts [⟨hx.status, hx.disc, hx.watch⟩, hx])
  · unfold addClaim; split
    · exact ht.mapPoints (fun x hx => by split; exacts [⟨hx.status, hx.disc, hx.move⟩, hx])
    · exact ht.mapSignals (fun x hx => by split; exacts [⟨hx.status, hx.disc, hx.watch⟩, hx])

theorem elementLaw_stepClosed : StepClosed ElementLaw where
  toUnitClosed := elementLaw_unitClosed
  offer _ ch _ h := by cases ch <;> exact h.of_eq rfl rfl rfl
  drain _ ch _ _ _ h := by cases ch <;> exact h.of_eq rfl rfl rfl
  pointStep _ _ hf h := h.mapPoints fun x => (hf x).2.2; sectionStep _ _ hf h := h.mapSections fun x => (hf x).2.2
  signalStep _ _ hf h := h.mapSignals fun x => (hf x).2.2
  slotStep _ _ _ h := h.of_eq rfl rfl rfl
  linkStep _ _ _ h := h.of_eq rfl rfl rfl
  tx _ _ h := h.of_eq rfl rfl rfl
  device _ _ _ h := h.of_eq rfl rfl rfl
  chan _ ch _ h := by cases ch <;> exact h.of_eq rfl rfl rfl
  port _ ch _ h := by cases ch <;> exact h.of_eq rfl rfl rfl
  speeds _ _ h := h.of_eq rfl rfl rfl
  count _ _ h := h.of_eq rfl rfl rfl
  table _ _ _ h := h.of_eq rfl rfl rfl
  half _ _ _ _ h := h.of_eq rfl rfl rfl
  take s d v flanks opts _ _ h := elementLaw_take s d v flanks opts h
  blocks s ch h := by
    have h1 := ((h.mapSections (f := SectionRec.reset) fun x _ => x.reset_lawful).mapPoints
      (f := PointRec.reset) fun x _ => x.reset_lawful).mapSignals (f := SignalRec.reset) fun x _ => x.reset_lawful
    cases ch <;> exact h1.of_eq rfl rfl rfl

/-- With no element at all the law of the elements says nothing. -/
theorem elementLaw_loading (s : State) : ElementLaw (assertDrst s) :=
  ⟨List.forall_mem_nil _, List.forall_mem_nil _, List.forall_mem_nil _⟩

theorem elementLaw_kept : StepKept ElementLaw where
  closed := elementLaw_stepClosed
  pending _ _ h := h.of_eq rfl rfl rfl
  loading s _ := elementLaw_loading s
  fill _ _ _ _ := ⟨List.forall_mem_map.2 fun _ _ => newSection_lawful _,
    List.forall_mem_map.2 fun _ _ => newPoint_lawful _ _ _, List.forall_mem_map.2 fun _ _ => newSignal_lawful _ _⟩

/-- Settles O56: each kind of change that a command is made of keeps every element record lawful. -/
theorem stepKeepsElementLaw : Obligations.StepKeepsElementLaw := by
  unfold Obligations.StepKeepsElementLaw
  exact fun s t hs e => elementLaw_kept.step hs e

/-! ## The configured part -/

/-- The layout of `s` as a property of the states that come after it. -/
def HasLayout (y : Layout) (s : State) : Prop := s.layout = y

theorem HasLayout.of_eq {y : Layout} {s t : State} (h : HasLayout y s) (e1 : t.sections.map (·.id) = s.sections.map (·.id))
    (e2 : t.points.map PointRec.conf = s.points.map PointRec.conf)
    (e3 : t.signals.map SignalRec.conf = s.signals.map SignalRec.conf) (e4 : t.store = s.store)
    (e5 : t.slots.map Slot.conf = s.slots.map Slot.conf)
    (e6 : t.links.map (fun x => (x.id, x.conf)) = s.links.map (fun x => (x.id, x.conf)))
    (e7 : t.dev.conf = s.dev.conf) : HasLayout y t := by
  have e7' := e7
  simp only [Device.conf, Prod.mk.injEq] at e7'
  obtain ⟨ec, ed, ea, eb⟩ := e7'
  have : t.layout = s.layout := by
    unfold State.layout
    rw [e1, e4, ec, ed, ea, eb, e6]
    congr 1
  exact this.trans h

/-- The layout reads no more of a record than its configured part. -/
theorem hasLayout_unitClosed (y : Layout) : UnitClosed (HasLayout y) where
  choice _ _ _ h := h.of_eq rfl rfl rfl rfl rfl rfl rfl
  emit _ _ h := h.of_eq rfl rfl rfl rfl rfl rfl rfl; sections _ _ hf h :=
    h.of_eq (map_core_eq (fun x => (hf.step x).1) _) rfl rfl rfl rfl rfl rfl
  points _ _ hf h := h.of_eq rfl (map_core_eq (fun x => (hf.step x).1) _) rfl rfl rfl rfl rfl
  signals _ _ hf h := h.of_eq rfl rfl (map_core_eq (fun x => (hf.step x).1) _) rfl rfl rfl rfl
  routes _ _ _ h := h.of_eq rfl rfl rfl rfl rfl rfl rfl
  slots _ _ hf h := h.of_eq rfl rfl rfl rfl (map_core_eq (hf.step) _) rfl rfl
  grant _ _ _ _ _ h := h.of_eq rfl rfl (map_core_eq (fun x => by split <;> rfl) _) rfl rfl rfl rfl
  dropRoute s r h := by
    have e1 := map_core_eq (core := SectionRec.id) (f := fun x => if holderIs r x.holder then { x with holder := .none } else x)
      (fun x => by split <;> rfl) s.sections
    have e2 := map_core_eq (core := PointRec.conf) (f := fun x => if holdIs r x.hold then { x with hold := .none } else x)
      (fun x => by split <;> rfl) s.points
    have e2' := map_core_eq (core := PointRec.conf) (f := (·.dropClaims (fun c => c.route == r))) (fun _ => rfl)
      (s.points.map (fun x => if holdIs r x.hold then { x with hold := .none } else x))
    have e3 := map_core_eq (core := SignalRec.conf) (f := (·.dropClaims (fun c => c.route == r))) (fun _ => rfl) s.signals
    have e3' := map_core_eq (core := SignalRec.conf)
      (f := fun x => if x.entryOf = some r then { x with entryOf := none } else x) (fun x => by split <;> rfl)
      (s.signals.map (·.dropClaims (fun c => c.route == r)))
    exact h.of_eq e1 (e2'.trans e2) (e3'.trans e3) rfl rfl rfl rfl

theorem hasLayout_take (y : Layout) (s : State) (d : RouteDef) (v : Option Nat) (flanks : List FlankRec)
    (opts : List Nat) (h : HasLayout y s) : HasLayout y (takeRoute d v flanks opts s) := by
  refine takeRoute_ind d v flanks opts s ?_ (fun t ht => ?_) (fun f _ t ht => ?_)
    (fun t _ ht => ht.of_eq rfl rfl rfl rfl rfl rfl rfl)
  · exact h.of_eq (map_core_eq (fun x => by unfold takenHolder; (repeat' split) <;> rfl) _)
      (map_core_eq (fun x => by unfold takenHold; (repeat' split) <;> rfl) _) rfl rfl rfl rfl rfl
  · exact ht.of_eq rfl rfl (map_core_eq (fun x => by split <;> rfl) _) rfl rfl rfl rfl
  · unfold addClaim; split
    · exact ht.of_eq rfl (map_core_eq (fun x => by split <;> rfl) _) rfl rfl rfl rfl rfl
    · exact ht.of_eq rfl rfl (map_core_eq (fun x => by split <;> rfl) _) rfl rfl rfl rfl

theorem hasLayout_stepClosed (y : Layout) : StepClosed (HasLayout y) where
  toUnitClosed := hasLayout_unitClosed y
  offer _ ch _ h := by cases ch <;> exact h.of_eq rfl rfl rfl rfl rfl rfl rfl
  drain _ ch _ _ _ h := by cases ch <;> exact h.of_eq rfl rfl rfl rfl rfl rfl rfl
  pointStep _ _ hf h := h.of_eq rfl (map_core_eq (fun x => (hf x).1) _) rfl rfl rfl rfl rfl; sectionStep _ _ hf h :=
    h.of_eq (map_core_eq (fun x => (hf x).1) _) rfl rfl rfl rfl rfl rfl
  signalStep _ _ hf h := h.of_eq rfl rfl (map_core_eq (fun x => (hf x).1) _) rfl rfl rfl rfl
  slotStep _ _ hf h := h.of_eq rfl rfl rfl rfl (map_core_eq hf _) rfl rfl
  linkStep _ _ hf h := h.of_eq rfl rfl rfl rfl rfl (map_core_eq (core := fun x : Link => (x.id, x.conf)) hf _) rfl
  tx _ _ h := h.of_eq rfl rfl rfl rfl rfl rfl rfl
  device _ _ hd h := h.of_eq rfl rfl rfl rfl rfl rfl hd
  chan _ ch _ h := by cases ch <;> exact h.of_eq rfl rfl rfl rfl rfl rfl rfl
  port _ ch _ h := by cases ch <;> exact h.of_eq rfl rfl rfl rfl rfl rfl rfl
  speeds _ _ h := h.of_eq rfl rfl rfl rfl rfl rfl rfl
  count _ _ h := h.of_eq rfl rfl rfl rfl rfl rfl rfl
  table _ _ _ h := h.of_eq rfl rfl rfl rfl rfl rfl rfl
  half _ _ _ _ h := h.of_eq rfl rfl rfl rfl rfl rfl rfl
  take s d v flanks opts _ _ h := hasLayout_take y s d v flanks opts h
  blocks s ch h := by
    have e1 := map_core_eq (core := SectionRec.id) (f := SectionRec.reset) (fun _ => rfl) s.sections
    have e2 := map_core_eq (core := PointRec.conf) (f := PointRec.reset) (fun _ => rfl) s.points
    have e3 := map_core_eq (core := SignalRec.conf) (f := SignalRec.reset) (fun _ => rfl) s.signals
    have e4 := map_core_eq (core := Slot.conf) (f := Slot.fresh) (fun _ => rfl) s.slots
    cases ch <;> exact h.of_eq e1 e2 e3 rfl e4 rfl rfl

/-- Settles O59: no kind of change that a command is made of touches the configured part. -/
theorem layoutIsFixed : Obligations.LayoutIsFixed := by
  unfold Obligations.LayoutIsFixed
  exact fun c s t h1 h2 e => (hasLayout_stepClosed s.layout).exec h1 h2 e rfl

/-- Settles O60: right after reset there is no record that a law could fail for, and both channels are ABSENT. -/
theorem resetIsLawful : Obligations.ResetIsLawful := by
  unfold Obligations.ResetIsLawful
  have none_mem : ∀ {α : Type} {p : α → Prop}, ∀ x ∈ ([] : List α), p x := fun _ h => nomatch h
  have none_found : ∀ g, State.reset.signal? g = none := fun _ => rfl
  have no_point : ∀ g, State.reset.point? g = none := fun _ => rfl
  refine ⟨⟨none_mem, none_mem, none_mem⟩, ⟨none_mem, none_mem, none_mem, none_mem, none_mem⟩, ?lock, ?authority,
    ⟨none_mem, none_mem, none_mem, none_mem, none_mem, none_mem⟩, ⟨List.nodup_nil, none_mem⟩, ?store, ?claim, ?chan,
    rfl, rfl, rfl, rfl, rfl, rfl, rfl, fun ch => by cases ch <;> exact ⟨rfl, rfl, rfl⟩⟩
  case lock =>
    exact ⟨List.nodup_nil, fun _ => rfl, none_mem, none_mem, none_mem, none_mem, none_mem, none_mem, none_mem⟩
  case authority =>
    exact ⟨List.nodup_nil, fun _ => rfl, none_mem, fun g x r h => (nomatch h : False).elim, none_mem, none_mem⟩
  case store =>
    exact ⟨fun ch => by cases ch <;> exact ⟨Nat.zero_le _, Nat.zero_le _⟩, Nat.zero_le _, List.nodup_nil, Nat.zero_le _,
      List.nodup_nil, rfl⟩
  case claim =>
    exact ⟨fun id x h => (nomatch h : False).elim, fun id x r p h => (nomatch h : False).elim, none_mem, fun id x h => (nomatch h : False).elim⟩
  case chan =>
    exact ⟨by decide, fun ch => by cases ch <;> decide, fun ch => by cases ch <;> decide, none_mem⟩

end Sys2Proof.Machine

/-!
PROOFS. Elements: what a change of a view, of a mask or of FAULTED makes of one record, what it hands on, and the requests and
timers of elements. O2, O3, O8, O9, O10, O11.
-/

namespace Sys2Proof.Machine

/-! ## Reads that an event or an update of other records does not touch -/

@[simp] theorem emit_section? (e : Event) (s : State) (id : Nat) : (emit e s).section? id = s.section? id := rfl
@[simp] theorem emit_point? (e : Event) (s : State) (id : Nat) : (emit e s).point? id = s.point? id := rfl
@[simp] theorem param_emit (n : Nat) (e : Event) (s : State) : param n (emit e s) = param n s := rfl

/-! ## Looking up the record that an update has changed -/

theorem sectionLookup_mapped {s : State} {id : Nat} {x : SectionRec} (f : SectionRec → SectionRec) (hf : ∀ y, (f y).id = y.id)
    (hx : s.section? id = some x) : (s.mapSection id f).section? id = some (f x) := by
  rw [sectionLookup_map hf, hx]; rfl

theorem point?_mapped {s : State} {id : Nat} {x : PointRec} (f : PointRec → PointRec) (hf : ∀ y, (f y).id = y.id)
    (hx : s.point? id = some x) : (s.mapPoint id f).point? id = some (f x) := by
  rw [point?_map hf, hx]; rfl

theorem signal?_mapped {s : State} {id : Nat} {x : SignalRec} (f : SignalRec → SignalRec) (hf : ∀ y, (f y).id = y.id)
    (hx : s.signal? id = some x) : (s.mapSignal id f).signal? id = some (f x) := by
  rw [signal?_map hf, hx]; rfl

theorem route?_mapped {s : State} {r : Nat} {a : ActiveRoute} (f : ActiveRoute → ActiveRoute) (hf : ∀ b, (f b).id = b.id)
    (ha : s.route? r = some a) : (s.mapRoute r f).route? r = some (f a) := by
  rw [route?_map hf, ha]; rfl

theorem link?_mapped {s : State} {l : Nat} {x : Link} (f : Link → Link) (hf : ∀ y, (f y).id = y.id)
    (hx : s.link? l = some x) : (s.mapLink l f).link? l = some (f x) := by
  rw [link?_map hf, hx]; rfl

theorem slot?_mapped {s : State} {ref : SlotRef} {x : Slot} (f : Slot → Slot) (hf : ∀ y, (f y).ref = y.ref)
    (hx : s.slot? ref = some x) : (s.mapSlot ref f).slot? ref = some (f x) := by
  rw [slot?_map hf, hx]; rfl

/-! ## The record of a section -/

/-- The view of a channel set, and nothing derived from it. -/
def SectionRec.setView (ch : Channel) (v : SecView) (x : SectionRec) : SectionRec :=
  match ch with
  | .A => { x with viewA := v }
  | .B => { x with viewB := v }

theorem SectionRec.withView_of_ne {p4 p5 : Nat} {ch : Channel} {v : SecView} {x : SectionRec} (h : x.view ch ≠ v) :
    x.withView p4 p5 ch v = (x.setView ch v).derive p4 p5 := by
  cases ch <;> exact if_neg h

theorem SectionRec.withView_of_eq {p4 p5 : Nat} {ch : Channel} {v : SecView} {x : SectionRec} (h : x.view ch = v) :
    x.withView p4 p5 ch v = x := by
  cases ch <;> exact if_pos h

/-- Derivation writes status and the two timers alone. -/
theorem SectionRec.derive_eq (p4 p5 : Nat) (x : SectionRec) :
    x.derive p4 p5 = { x with
      status := (x.evaluate p4).status, clearance := (x.evaluate p4).clearance
      disc := x.disc.whileCond x.discrepant p5 } := by
  unfold SectionRec.derive SectionRec.evaluate
  dsimp only
  split
  · rfl
  · split
    · split <;> rfl
    · rfl
    · rfl

theorem SectionRec.evaluate_occupying {p4 : Nat} {x : SectionRec} (h : x.occupying = true) :
    x.evaluate p4 = { x with status := .occupied, clearance := .off } := by
  unfold SectionRec.evaluate; rw [if_pos h]

theorem SectionRec.evaluate_status_of_free {p4 : Nat} {x : SectionRec} (h : x.occupying = false) :
    (x.evaluate p4).status
      = if x.status = .occupied then (if p4 = 0 then .clear else .clearing) else x.status := by
  unfold SectionRec.evaluate
  rw [if_neg (by simp [h])]
  split
  · next e => rw [if_pos e]; split <;> rfl
  · next e => rw [e]; rfl
  · next e => rw [e]; rfl

/-- A section that comes free with a clearance delay begins to clear (R5). -/
theorem SectionRec.evaluate_clearance {p4 : Nat} {x : SectionRec} (h : x.status = .occupied)
    (hy : (x.evaluate p4).status = .clearing) : (x.evaluate p4).clearance = ⟨.running, p4⟩ := by
  have ho : ¬ x.occupying = true := fun ho => by rw [SectionRec.evaluate_occupying ho] at hy; exact nomatch hy
  unfold SectionRec.evaluate at hy ⊢
  rw [if_neg ho] at hy ⊢
  simp only [h] at hy ⊢
  split at hy
  · exact nomatch hy
  · next h0 => rw [if_neg h0]; rfl

theorem SectionRec.evaluate_off {p4 : Nat} {x : SectionRec} (h : x.occupying = false) :
    (x.evaluate p4).status = .occupied → False := by
  rw [SectionRec.evaluate_status_of_free h]
  split
  · split <;> exact fun h => nomatch h
  · next h' => exact h'

/-- The occupying condition after a change of one view (R5). -/
theorem SectionRec.occupying_setView (ch : Channel) (v : SecView) (x : SectionRec) :
    (x.setView ch v).occupying = false ↔ v = .clear ∧ x.view ch.other = .clear ∧ x.mask = false ∧ x.faulted = false := by
  cases ch
  all_goals
    simp only [SectionRec.setView, SectionRec.occupying, SectionRec.view, Channel.other, Bool.or_eq_false_iff,
      bne_eq_false_iff_eq]
    tauto

/-- The condition of the discrepancy timer after a change of one view (R6). -/
theorem SectionRec.discrepant_setView (ch : Channel) (v : SecView) (x : SectionRec) :
    (x.setView ch v).discrepant = true ↔
      ((v = .clear ∧ x.view ch.other = .occupied) ∨ (v = .occupied ∧ x.view ch.other = .clear)) ∧ x.faulted = false := by
  cases ch
  · simp only [SectionRec.setView, SectionRec.discrepant, SectionRec.view, Channel.other, Bool.or_eq_true,
      Bool.and_eq_true, beq_iff_eq, Bool.not_eq_true']
  · simp only [SectionRec.setView, SectionRec.discrepant, SectionRec.view, Channel.other, Bool.or_eq_true,
      Bool.and_eq_true, beq_iff_eq, Bool.not_eq_true']
    tauto

/-- Two views that differ by a discrepancy differ no longer once one of them has changed, or differ the other way. -/
theorem SectionRec.not_discrepant_of_changed {ch : Channel} {v : SecView} {x : SectionRec} (hv : x.view ch ≠ v)
    (h : (x.setView ch v).discrepant = true) : x.discrepant = false := by
  rw [SectionRec.discrepant_setView] at h
  obtain ⟨⟨rfl, ho⟩ | ⟨rfl, ho⟩, -⟩ := h <;> cases ch <;>
    simp_all [SectionRec.discrepant, SectionRec.view, Channel.other]

/-- Settles O2, by the occupying condition and the condition of R6 after the change. -/
theorem sectionFollowsViews : Obligations.SectionFollowsViews := by
  unfold Obligations.SectionFollowsViews
  intro p4 p5 ch v x hdisc hv
  dsimp only
  rw [SectionRec.withView_of_ne hv, SectionRec.derive_eq]
  have hst : (x.setView ch v).status = x.status := by cases ch <;> rfl
  have hd : (x.setView ch v).disc = x.disc := by cases ch <;> rfl
  refine ⟨by cases ch <;> rfl, by cases ch <;> rfl, ?status, ?clearing, ?occupied, ?disc, by cases ch <;> rfl⟩
  case status =>
    dsimp only
    split_ifs with hc
    all_goals try rw [SectionRec.evaluate_status_of_free ((SectionRec.occupying_setView ch v x).2 hc), hst]
    · rw [if_pos ‹_›, if_pos ‹_›]
    · rw [if_pos ‹_›, if_neg ‹_›]
    · rw [if_neg ‹_›]
    · rw [SectionRec.evaluate_occupying]
      exact Bool.eq_true_of_not_eq_false fun h => hc ((SectionRec.occupying_setView ch v x).1 h)
  case clearing => exact fun h hy => SectionRec.evaluate_clearance (hst.trans h) hy
  case occupied =>
    intro hy
    by_cases ho : (x.setView ch v).occupying = true
    · dsimp only; rw [SectionRec.evaluate_occupying ho]; rfl
    · exact (SectionRec.evaluate_off (Bool.eq_false_iff.2 ho) hy).elim
  case disc =>
    dsimp only
    rw [hd]
    split_ifs with hc
    · have hdis := (SectionRec.discrepant_setView ch v x).2 hc
      have hstop : ¬ x.disc.mode = .running := fun h => by
        have := hdisc h
        rw [SectionRec.not_discrepant_of_changed hv hdis] at this
        exact nomatch this
      unfold Timer.whileCond
      rw [if_pos hdis, if_neg hstop]; rfl
    · have hdis := mt (SectionRec.discrepant_setView ch v x).1 hc
      unfold Timer.whileCond
      rw [if_neg hdis]; rfl

/-! ## The record of a point -/

/-- The view of a channel set, and nothing derived from it. -/
def PointRec.setView (ch : Channel) (v : PointView) (x : PointRec) : PointRec :=
  match ch with
  | .A => { x with viewA := v }
  | .B => { x with viewB := v }

theorem PointRec.withView_of_ne {p6 : Nat} {ch : Channel} {v : PointView} {x : PointRec} (h : x.view ch ≠ v) :
    x.withView p6 ch v = (x.setView ch v).derive p6 := by
  cases ch <;> exact if_neg h

theorem PointRec.withView_of_eq {p6 : Nat} {ch : Channel} {v : PointView} {x : PointRec} (h : x.view ch = v) :
    x.withView p6 ch v = x := by
  cases ch <;> exact if_pos h

/-- The agreed status after a change of one view (R7). -/
theorem PointRec.derivedStatus_setView (ch : Channel) (v : PointView) (x : PointRec) :
    (x.setView ch v).derivedStatus =
      if x.move ≠ none then .moving else if x.mask = true ∨ x.faulted = true then .undetected
      else if v = .normal ∧ x.view ch.other = .normal then .normal
      else if v = .reverse ∧ x.view ch.other = .reverse then .reverse else .undetected := by
  unfold PointRec.derivedStatus
  simp only [Option.isSome_iff_ne_none, Bool.or_eq_true]
  cases ch
  · rfl
  · simp only [PointRec.setView, PointRec.view, Channel.other, and_comm]; congr

/-- The condition of the discrepancy timer after a change of one view (R8). -/
theorem PointRec.discrepant_setView (ch : Channel) (v : PointView) (x : PointRec) :
    (x.setView ch v).discrepant = true ↔ x.move = none ∧ v ≠ .unknown ∧ x.view ch.other ≠ .unknown
      ∧ v ≠ x.view ch.other ∧ x.faulted = false := by
  cases ch
  all_goals
    simp only [PointRec.setView, PointRec.discrepant, PointRec.view, Channel.other, Bool.and_eq_true, bne_iff_ne,
      Option.isNone_iff_eq_none, Bool.not_eq_true', ne_eq]
    grind

/-- Settles O3, by the agreed status and the condition of R8 after the change. -/
theorem pointFollowsViews : Obligations.PointFollowsViews := by
  unfold Obligations.PointFollowsViews
  intro p6 ch v x hv
  dsimp only
  rw [PointRec.withView_of_ne hv]
  have hd : (x.setView ch v).disc = x.disc := by cases ch <;> rfl
  refine ⟨by cases ch <;> rfl, by cases ch <;> rfl, PointRec.derivedStatus_setView ch v x, ?disc, by cases ch <;> rfl⟩
  show (x.setView ch v).disc.whileCond (x.setView ch v).discrepant p6 = _
  rw [hd]
  unfold Timer.whileCond
  by_cases hc : (x.setView ch v).discrepant = true
  · rw [if_pos hc, if_pos ((PointRec.discrepant_setView ch v x).1 hc)]; rfl
  · rw [if_neg hc, if_neg (mt (PointRec.discrepant_setView ch v x).2 hc)]; rfl

/-! ## What a change of an element hands on (R15) -/

theorem reacts_handPoint (id : Nat) (s : State) : Reacts s (handPoint id s) := (reacts_closed s).handPoint id (.refl s)

theorem reacts_handSignal (id : Nat) (s : State) : Reacts s (handSignal id s) := (reacts_closed s).handSignal id (.refl s)

theorem reacts_sectionChanged (old : SectionRec) (s : State) : Reacts s (sectionChanged old s) :=
  (reacts_closed s).sectionChanged old (.refl s)

theorem handSection_inSomeOrder (id : Nat) (old : SecStatus) (s : State) :
    InSomeOrder [routesOnSection id old, permOn (.sec id), slotsOnSection id old] s (handSection id old s) :=
  inAnyOrder_inSomeOrder _ s

theorem handPoint_inSomeOrder (id : Nat) (s : State) :
    InSomeOrder [routesOnPoint id, permOn (.point id), flanksOn id] s (handPoint id s) := inAnyOrder_inSomeOrder _ s

theorem handSignal_inSomeOrder (id : Nat) (s : State) :
    InSomeOrder [permOn (.signals [id]), flanksOn id] s (handSignal id s) := inAnyOrder_inSomeOrder _ s

section SectionChanged
variable {s : State} {old x : SectionRec} (h : s.section? old.id = some x)
include h

theorem sectionChanged_status (hs : x.status ≠ old.status) : sectionChanged old s = handSection old.id old.status s := by
  unfold sectionChanged; rw [h]; exact if_pos hs

/-- A change of FAULTED or block alone is handed to the slots. -/
theorem sectionChanged_flags (hs : x.status = old.status)
    (hf : x.faulted ≠ old.faulted ∨ x.block ≠ old.block) : sectionChanged old s = retestOver old.id s := by
  unfold sectionChanged; rw [h]; exact (if_neg (not_not.2 hs)).trans (if_pos hf)

theorem sectionChanged_same (hs : x.status = old.status) (hf : x.faulted = old.faulted)
    (hb : x.block = old.block) : sectionChanged old s = s := by
  unfold sectionChanged; rw [h]
  exact (if_neg (not_not.2 hs)).trans (if_neg (not_or.2 ⟨not_not.2 hf, not_not.2 hb⟩))

end SectionChanged

/-- What a section hands on after its FAULTED has changed: to the slots where its status stays, to the units where it does not. -/
theorem sectionChanged_faulted {s t : State} {id : Nat} {x y : SectionRec} (hx : s.section? id = some x)
    (hy : t.section? id = some y) (hf : y.faulted ≠ x.faulted) :
    if y.status = x.status then sectionChanged x t = retestOver id t
    else InSomeOrder [routesOnSection id x.status, permOn (.sec id), slotsOnSection id x.status] t (sectionChanged x t) := by
  obtain rfl := sectionLookup_id hx
  split
  · next h => exact sectionChanged_flags hy h (.inl hf)
  · next h => rw [sectionChanged_status hy h]; exact handSection_inSomeOrder _ _ _

/-! ## Timers of elements -/

/-- A FAULTED section is OCCUPIED, and no timer of it runs (R5, R6). -/
theorem SectionRec.derive_faulted (p4 p5 : Nat) (x : SectionRec) :
    SectionRec.derive p4 p5 { x with faulted := true }
      = { x with faulted := true, status := .occupied, clearance := ⟨.stopped, 0⟩, disc := ⟨.stopped, 0⟩ } := by
  have ho : SectionRec.occupying { x with faulted := true } = true := by simp [SectionRec.occupying]
  have hd : SectionRec.discrepant { x with faulted := true } = false := by simp [SectionRec.discrepant]
  rw [SectionRec.derive_eq, SectionRec.evaluate_occupying ho, hd]; rfl

/-- A FAULTED point is UNDETECTED unless it is moving, and no discrepancy timer of it runs (R7, R8). -/
theorem PointRec.derive_faulted (p6 : Nat) (x : PointRec) (hf : x.faulted = true) :
    x.derive p6 = { x with status := if x.move = none then .undetected else .moving, disc := ⟨.stopped, 0⟩ } := by
  unfold PointRec.derive
  have hs : x.derivedStatus = if x.move = none then .undetected else .moving := by
    unfold PointRec.derivedStatus
    cases hm : x.move <;> simp [hf]
  have hd : x.discrepant = false := by simp [PointRec.discrepant, hf]
  rw [hs, hd]; rfl

theorem SignalRec.derive_faulted (p7 : Nat) (x : SignalRec) (hf : x.faulted = true) :
    x.derive p7 = { x with status := x.derivedStatus, disc := ⟨.stopped, 0⟩, watch := x.watchTimer p7 } := by
  have hd : x.discrepant = false := by simp [SignalRec.discrepant, hf]
  unfold SignalRec.derive
  rw [hd]; rfl

theorem clearanceExpired_running {s : State} {id : Nat} {x : SectionRec} (hx : s.section? id = some x)
    (h : x.status = .clearing ∧ x.clearance.mode = .running) :
    clearanceExpired id s = sectionChanged x (s.mapSection id SectionRec.cleared) := by
  unfold clearanceExpired; rw [hx]; exact if_pos h

theorem SectionRec.cleared_id (x : SectionRec) : x.cleared.id = x.id := by unfold SectionRec.cleared; split <;> rfl

/-- A section that goes to CLEAR hands its change of status on (R5, R15). -/
theorem clearanceExpired_inSomeOrder {s : State} {id : Nat} {x : SectionRec} (hx : s.section? id = some x)
    (h : x.status = .clearing ∧ x.clearance.mode = .running) :
    InSomeOrder [routesOnSection id .clearing, permOn (.sec id), slotsOnSection id .clearing]
      (s.mapSection id SectionRec.cleared) (clearanceExpired id s) := by
  have hy := sectionLookup_mapped _ SectionRec.cleared_id hx
  have hs : x.cleared.status ≠ x.status := by
    unfold SectionRec.cleared; rw [if_pos h.1, h.1]; exact fun h => nomatch h
  obtain rfl := sectionLookup_id hx
  rw [clearanceExpired_running hx h, sectionChanged_status hy hs, h.1]
  exact handSection_inSomeOrder _ _ _

/-- A section set FAULTED by a discrepancy (R6). -/
theorem sectionDiscExpired_running {s : State} {id : Nat} {x : SectionRec} (hx : s.section? id = some x)
    (hr : x.disc.mode = .running) (hf : x.faulted = false) :
    Machine.sectionDiscExpired id s = sectionChanged x (emit (.elementFault id) (s.mapSection id (fun y =>
      { y with faulted := true, status := .occupied, clearance := ⟨.stopped, 0⟩, disc := ⟨.stopped, 0⟩ }))) := by
  obtain rfl := sectionLookup_id hx
  unfold sectionDiscExpired
  rw [hx]
  refine (if_pos ⟨hr, hf⟩).trans ?_
  unfold faultSection
  simp only [SectionRec.derive_faulted]

theorem pointDiscExpired_running {s : State} {id : Nat} {x : PointRec} (hx : s.point? id = some x)
    (hr : x.disc.mode = .running) (hf : x.faulted = false) :
    pointDiscExpired id s = handPoint id (emit (.elementFault id) (s.mapPoint id (fun y =>
      { y with faulted := true, status := if y.move = none then .undetected else .moving, disc := ⟨.stopped, 0⟩ }))) := by
  obtain rfl := point?_id hx
  unfold pointDiscExpired
  rw [hx]
  refine (if_pos ⟨hr, hf⟩).trans ?_
  unfold faultPoint
  have e (y : PointRec) := PointRec.derive_faulted (param 6 s) { y with faulted := true } rfl
  simp only [e]

theorem signalDiscExpired_running {s : State} {id : Nat} {x : SignalRec} (hx : s.signal? id = some x)
    (hr : x.disc.mode = .running) (hf : x.faulted = false) :
    signalDiscExpired id s = handSignal id (emit (.elementFault id) (s.mapSignal id (fun y =>
      { y with faulted := true, status := y.derivedStatus, disc := ⟨.stopped, 0⟩, watch := y.watchTimer (param 7 s) }))) := by
  obtain rfl := signal?_id hx
  unfold signalDiscExpired
  rw [hx]
  refine (if_pos ⟨hr, hf⟩).trans ?_
  unfold faultSignal
  have e (y : SignalRec) := SignalRec.derive_faulted (param 7 s) { y with faulted := true } rfl
  simp only [e]
  rfl

/-- A move in flight that has failed, with what it hands on (R11). -/
theorem moveExpired_running {s : State} {id : Nat} {x : PointRec} {m : Move} (hx : s.point? id = some x)
    (hm : x.move = some m) (hr : x.moveTimer.mode = .running) :
    moveExpired id s = inAnyOrder [routesOnMoveFailed id m.target, permOn (.point id), flanksOn id]
      (emit (.moveFailed id m.target) (s.mapPoint id (fun y =>
        { y with faulted := true, move := none, moveTimer := ⟨.stopped, 0⟩, status := .undetected, disc := ⟨.stopped, 0⟩ }))) := by
  unfold moveExpired
  rw [hx]
  dsimp only
  rw [hm]
  refine (if_pos hr).trans ?_
  have e (y : PointRec) := PointRec.derive_faulted (param 6 s) { y with faulted := true, move := none, moveTimer := .off } rfl
  simp only [e]
  rfl

theorem reacts_moveFailedWork (id : Nat) (p : Pos) (s : State) :
    Reacts s (inAnyOrder [routesOnMoveFailed id p, permOn (.point id), flanksOn id] s) := by
  have hc := reacts_closed s
  refine hc.inAnyOrder ?_ (.refl s)
  simp only [List.forall_mem_cons]
  exact ⟨fun _ => hc.routesOnMoveFailed _ _, fun _ => hc.permOn _, fun _ => hc.flanksOn _, fun _ h => nomatch h⟩

/-- Settles O8, timer by timer. -/
theorem elementTimersExpire : Obligations.ElementTimersExpire := by
  unfold Obligations.ElementTimersExpire
  refine ⟨fun id s x hx => ?clear, ⟨fun id s x hx hr hf => ?sec, fun id s x hx hr hf => ?point,
    fun id s x hx hr hf => ?signal⟩, fun id s x m hx hm hr => ?move, fun id s x hx hc hr => ?clearing,
    fun id s x m hx hm hr => ?failed⟩
  case clear =>
    split_ifs with h
    · refine ⟨_, rfl, ?_⟩
      rw [clearanceExpired_running hx h]
      exact reacts_sectionChanged _ _
    · show Host.Outcome.next (clearanceExpired id s) = _
      unfold clearanceExpired
      rw [hx]
      exact congrArg _ (if_neg h)
  case sec =>
    refine ⟨_, rfl, ?_⟩
    rw [sectionDiscExpired_running hx hr hf]
    refine ⟨reacts_sectionChanged _ _, ?_⟩
    have hy := sectionLookup_mapped (fun y =>
      { y with faulted := true, status := .occupied, clearance := ⟨.stopped, 0⟩, disc := ⟨.stopped, 0⟩ }) (fun _ => rfl) hx
    have h := sectionChanged_faulted hx ((emit_section? (.elementFault id) _ id).trans hy) (by simp [hf])
    simp only [eq_comm (a := SecStatus.occupied)] at h
    exact h
  case point =>
    refine ⟨_, rfl, ?_⟩
    rw [pointDiscExpired_running hx hr hf]
    exact ⟨reacts_handPoint _ _, handPoint_inSomeOrder _ _⟩
  case signal =>
    refine ⟨_, rfl, ?_⟩
    rw [signalDiscExpired_running hx hr hf]
    exact ⟨reacts_handSignal _ _, handSignal_inSomeOrder _ _⟩
  case move =>
    refine ⟨_, rfl, ?_⟩
    rw [moveExpired_running hx hm hr]
    exact reacts_moveFailedWork _ _ _
  case clearing => exact ⟨_, rfl, clearanceExpired_inSomeOrder hx ⟨hc, hr⟩⟩
  case failed =>
    refine ⟨_, rfl, ?_⟩
    rw [moveExpired_running hx hm hr]
    exact inAnyOrder_inSomeOrder _ _

end Sys2Proof.Machine

/-!
PROOFS. The requests of elements: MOVE POINT, BLOCK, UNBLOCK, INHIBIT and ELEMENT RESTORE. O9, O10, O11.
-/

namespace Sys2Proof.Machine

/-! ## What the owners are handed: the body of a request decoded (R172) -/

theorem num2_b2_eq (e : Half) : num2 (BitVec.ofNat 8 (e.toNat / 256)) (BitVec.ofNat 8 e.toNat) = e.toNat := by
  have := e.isLt
  simp only [num2, BitVec.toNat_ofNat]
  omega

theorem decide_movePoint (ch : Channel) (e : Half) (b : Byte) (p : Pos) (hp : posOf b = some p) (s : State) :
    decide ch .movePoint (b2 e.toNat ++ [b]) s = decideMovePoint e.toNat p s := by
  show (match posOf b with
    | some q => decideMovePoint (num2 _ _) q s
    | none => Verdict.plain .badValue 0) = _
  rw [hp, num2_b2_eq]

theorem decide_block (ch : Channel) (e : Half) (on : Bool) (s : State) :
    decide ch (if on then .blockElement else .unblockElement) (b2 e.toNat) s = decideBlock e.toNat on s := by
  cases on <;> exact congrArg (decideBlock · _ s) (num2_b2_eq e)

theorem decide_mask (ch : Channel) (e : Half) (on : Bool) (s : State) :
    decide ch (if on then .inhibitSet else .inhibitClear) (b2 e.toNat) s = decideMask e.toNat on s := by
  cases on <;> exact congrArg (decideMask · _ s) (num2_b2_eq e)

theorem decide_restore (ch : Channel) (e : Half) (s : State) :
    decide ch .elementRestore (b2 e.toNat) s = decideRestore e.toNat s := congrArg (decideRestore · s) (num2_b2_eq e)

/-! ## Tables of outcomes -/

/-- A line of a table that refuses: the next line is looked at only where this one does not apply. -/
theorem refuses_line {c : Instr} {f : RequestFrame} {s : State} (hc : requestOf c = some f) (h : Completes f s) {p : Prop}
    [Decidable p] {out : Status} {detail : Nat} {v : Verdict} {rest : Prop}
    (hdec : decide f.ch f.kind f.body (s.paired f) = if p then .plain out detail else v)
    (next : ¬ p → decide f.ch f.kind f.body (s.paired f) = v → rest) :
    if p then Refuses c f s out detail else rest := by
  split
  · next hp => exact refuses_of hc h (hdec.trans (if_pos hp))
  · next hp => exact next hp (hdec.trans (if_neg hp))

/-! ## MOVE POINT -/

theorem decideMovePoint_none {id : Nat} {p : Pos} {s : State} (h : s.point? id = none) :
    decideMovePoint id p s = .plain .notConfigured id := by
  unfold decideMovePoint; rw [h]

/-- The table of R20 for a configured point. -/
theorem decideMovePoint_some {id : Nat} {p : Pos} {s : State} {x : PointRec} (h : s.point? id = some x) :
    decideMovePoint id p s =
      if x.hold ≠ .none ∨ x.claims ≠ [] then .plain .held id
      else if x.block = true then .plain .blocked id
      else if secStatusIs s x.sec .clear = false then .plain .occupied id
      else if x.faulted = true then .plain .faulted id
      else if x.status = statusOfPos p ∨ x.move.map (·.target) = some p then .plain .done 0
      else { out := .done, detail := 0, act := fun t => settleCall id (issueCall id p t) } := by
  unfold decideMovePoint atOrMoving
  rw [h]
  simp only [Bool.or_eq_true, beq_iff_eq]

/-- A point called (R9, R12). -/
def PointRec.called (m : Move) (y : PointRec) : PointRec :=
  { y with move := some m, moveTimer := ⟨.running, y.supTime⟩, status := .moving, disc := ⟨.stopped, 0⟩ }

/-- A point whose move has ended at the moment of its call (R10). -/
def PointRec.arrived (p6 : Nat) (y : PointRec) : PointRec :=
  PointRec.derive p6 { y with move := none, moveTimer := ⟨.stopped, 0⟩, lastMove := 0 }

theorem issueCall_of_ne {id : Nat} {p : Pos} {s : State} {x : PointRec} (h : s.point? id = some x)
    (hm : x.move.map (·.target) ≠ some p) :
    issueCall id p s = emit (.moveCall id p) (s.mapPoint id (PointRec.called ⟨p, s.dev.time⟩)) := by
  unfold issueCall; rw [h]; exact if_neg hm

theorem bothAt_iff {x : PointRec} {p : Pos} : x.bothAt p = true ↔ x.viewA = viewOfPos p ∧ x.viewB = viewOfPos p := by
  unfold PointRec.bothAt; rw [Bool.and_eq_true, beq_iff_eq, beq_iff_eq]

/-- A move that ends at the moment of its call took no time, so it is not slow (R10). -/
theorem completeMove_at_once {x : PointRec} {m : Move} {s : State} (h : m.start = s.dev.time) :
    completeMove x m s =
      handPoint x.id (emit (.moveDone x.id m.target 0) (s.mapPoint x.id (PointRec.arrived (param 6 s)))) := by
  have hd : moveDuration s.dev.time m.start = 0 := by unfold moveDuration; rw [h, BitVec.sub_self]; rfl
  unfold completeMove
  simp only [hd, Nat.zero_mul, Nat.not_lt_zero, if_false]
  rfl

/-- What follows a call that has just been issued: the point whose views report the target completes, any other hands its
change to MOVING on (R9, R15). -/
theorem settleCall_issued {id : Nat} {p : Pos} {s : State} {x : PointRec} (h : s.point? id = some x)
    (hm : x.move = some ⟨p, s.dev.time⟩) :
    settleCall id s = handPoint id (if x.viewA = viewOfPos p ∧ x.viewB = viewOfPos p then
      emit (.moveDone id p 0) (s.mapPoint id (PointRec.arrived (param 6 s))) else s) := by
  obtain rfl := point?_id h
  unfold settleCall
  rw [h]
  dsimp only
  rw [hm]
  dsimp only
  by_cases hb : x.viewA = viewOfPos p ∧ x.viewB = viewOfPos p
  · rw [if_pos hb, if_pos (bothAt_iff.2 hb)]; exact completeMove_at_once rfl
  · rw [if_neg hb, if_neg (mt bothAt_iff.1 hb)]

/-- A call carried out and settled: MOVE_CALL, the completion where the views report the target already, and the handing on. -/
theorem settleCall_issueCall {id : Nat} {p : Pos} {s : State} {x : PointRec} (h : s.point? id = some x)
    (hm : x.move.map (·.target) ≠ some p) :
    settleCall id (issueCall id p s) =
      let called := emit (.moveCall id p) (s.mapPoint id (PointRec.called ⟨p, s.dev.time⟩))
      handPoint id (if x.viewA = viewOfPos p ∧ x.viewB = viewOfPos p then
        emit (.moveDone id p 0) (called.mapPoint id (PointRec.arrived (param 6 s))) else called) := by
  rw [issueCall_of_ne h hm]
  exact settleCall_issued (x := x.called ⟨p, s.dev.time⟩)
    ((emit_point? _ _ _).trans (point?_mapped _ (fun _ => rfl) h)) rfl

/-- Settles O9, line by line of the table of R20. -/
theorem movePointTable : Obligations.MovePointTable := by
  unfold Obligations.MovePointTable
  intro ch tag e b p s c f hf hp
  have hc : requestOf c = some f := rfl
  have hdec : decide f.ch f.kind f.body (s.paired f) = decideMovePoint e.toNat p (s.paired f) :=
    decide_movePoint ch e b p hp _
  have hlook : (s.paired f).point? e.toNat = s.point? e.toNat := State.paired_point? _ _ _
  have hsec : ∀ i st, secStatusIs (s.paired f) i st = secStatusIs s i st := fun i st => by
    unfold secStatusIs; rw [State.paired_section?]
  split
  · next h => exact refuses_of hc hf (hdec.trans (decideMovePoint_none (hlook.trans h)))
  · next x h =>
    rw [decideMovePoint_some (hlook.trans h), hsec] at hdec
    refine refuses_line hc hf hdec fun _ hdec => refuses_line hc hf hdec fun _ hdec => refuses_line hc hf hdec fun _ hdec =>
      refuses_line hc hf hdec fun _ hdec => refuses_line hc hf hdec fun hat hdec => ?_
    refine concurs_of (v := ⟨.done, 0, _⟩) hc hf hdec ?_
    dsimp only
    generalize hu : emit (.requestDone f.tag f.kind .done 0) (s.paired f) = u
    have hux : u.point? e.toNat = some x := by rw [← hu]; exact hlook.trans h
    have hdev : u.dev = s.dev := by rw [← hu]; exact State.paired_dev _ _
    have h6 : param 6 u = param 6 s := by unfold param; rw [hdev]
    rw [settleCall_issueCall hux fun hm => hat (.inr hm), hdev, h6]
    exact ⟨reacts_handPoint _ _, handPoint_inSomeOrder _ _⟩

/-! ## Blocks and masks -/

theorem setBlock_section {id : Nat} {b : Bool} {s : State} {x : SectionRec} (h : s.section? id = some x) :
    setBlock id b s = sectionChanged x (s.mapSection id (fun y => { y with block := b })) := by
  unfold setBlock; rw [h]

/-- A changed block of a section is handed to the slots over it, an unchanged one to nobody (R18). -/
theorem setBlock_section_eq {id : Nat} {b : Bool} {s : State} {x : SectionRec} (h : s.section? id = some x) :
    setBlock id b s = if x.block = b then s.mapSection id (fun y => { y with block := b })
      else retestOver id (s.mapSection id (fun y => { y with block := b })) := by
  rw [setBlock_section h]
  have hy := sectionLookup_mapped (fun y => { y with block := b }) (fun _ => rfl) h
  obtain rfl := sectionLookup_id h
  split
  · next hb => exact sectionChanged_same hy rfl rfl hb.symm
  · next hb => exact sectionChanged_flags hy rfl (.inr (Ne.symm hb))

theorem setBlock_other {id : Nat} {b : Bool} {s : State} (h : s.section? id = none) :
    setBlock id b s = (s.mapPoint id (fun y => { y with block := b })).mapSignal id (fun y => { y with block := b }) := by
  unfold setBlock; rw [h]

theorem setMask_section {id : Nat} {b : Bool} {s : State} {x : SectionRec} (h : s.section? id = some x) :
    setMask id b s = if x.mask = b then s else sectionChanged x
      (s.mapSection id (fun y => SectionRec.derive (param 4 s) (param 5 s) { y with mask := b })) := by
  unfold setMask; rw [h]

theorem setMask_point {id : Nat} {b : Bool} {s : State} {x : PointRec} (h : s.section? id = none)
    (hx : s.point? id = some x) :
    setMask id b s = if x.mask = b then s
      else handPoint id (s.mapPoint id (fun y => PointRec.derive (param 6 s) { y with mask := b })) := by
  unfold setMask; rw [h, hx]

theorem setMask_signal {id : Nat} {b : Bool} {s : State} {x : SignalRec} (h : s.section? id = none)
    (hp : s.point? id = none) (hx : s.signal? id = some x) :
    setMask id b s = if x.mask = b then s
      else handSignal id (s.mapSignal id (fun y => SignalRec.derive (param 7 s) { y with mask := b })) := by
  unfold setMask; rw [h, hp, hx]

theorem SectionRec.derive_kept (p4 p5 : Nat) (x : SectionRec) :
    (x.derive p4 p5).id = x.id ∧ (x.derive p4 p5).faulted = x.faulted ∧ (x.derive p4 p5).block = x.block := by
  rw [SectionRec.derive_eq]; exact ⟨rfl, rfl, rfl⟩

/-- What a section hands on after a change that leaves FAULTED and block: its status, where that changes. -/
theorem sectionChanged_derived {s t : State} {id : Nat} {x y : SectionRec} (hx : s.section? id = some x)
    (hy : t.section? id = some y) (hf : y.faulted = x.faulted) (hb : y.block = x.block) :
    if y.status = x.status then sectionChanged x t = t
    else InSomeOrder [routesOnSection id x.status, permOn (.sec id), slotsOnSection id x.status] t (sectionChanged x t) := by
  obtain rfl := sectionLookup_id hx
  split
  · next h => exact sectionChanged_same hy h hf hb
  · next h => rw [sectionChanged_status hy h]; exact handSection_inSomeOrder _ _ _

theorem configured_section {s : State} {id : Nat} {x : SectionRec} (h : s.section? id = some x) :
    configured s id = true := by simp [configured, h]

theorem configured_point {s : State} {id : Nat} {x : PointRec} (h : s.point? id = some x) :
    configured s id = true := by simp [configured, h]

theorem configured_signal {s : State} {id : Nat} {x : SignalRec} (h : s.signal? id = some x) :
    configured s id = true := by simp [configured, h]

theorem not_configured {s : State} {id : Nat} (h1 : s.section? id = none) (h2 : s.point? id = none)
    (h3 : s.signal? id = none) : configured s id = false := by simp [configured, h1, h2, h3]

theorem paired_configured (s : State) (f : RequestFrame) (id : Nat) : configured (s.paired f) id = configured s id := by
  simp [configured]

theorem decideBlock_configured {id : Nat} {b : Bool} {s : State} (h : configured s id = true) :
    decideBlock id b s = { out := .done, detail := 0, act := setBlock id b } := if_pos h

theorem decideBlock_none {id : Nat} {b : Bool} {s : State} (h : ¬ configured s id = true) :
    decideBlock id b s = .plain .notConfigured 0 := if_neg h

theorem decideMask_configured {id : Nat} {b : Bool} {s : State} (h : configured s id = true) :
    decideMask id b s = { out := .done, detail := 0, act := setMask id b } := if_pos h

theorem decideMask_none {id : Nat} {b : Bool} {s : State} (h : ¬ configured s id = true) :
    decideMask id b s = .plain .notConfigured 0 := if_neg h

/-- The state in which a completed pair is carried out reads like `s`: its REQUEST_DONE is queued, its half is gone. -/
structure CarriedFrom (s u : State) : Prop where
  atSection : ∀ id, u.section? id = s.section? id
  atPoint : ∀ id, u.point? id = s.point? id
  atSignal : ∀ id, u.signal? id = s.signal? id
  dev : u.dev = s.dev

theorem carriedFrom_paired (s : State) (f : RequestFrame) (e : Event) : CarriedFrom s (emit e (s.paired f)) where
  atSection := State.paired_section? s f
  atPoint := State.paired_point? s f
  atSignal := State.paired_signal? s f
  dev := State.paired_dev s f

theorem CarriedFrom.param {s u : State} (h : CarriedFrom s u) (n : Nat) : param n u = param n s := by
  unfold Machine.param; rw [h.dev]

/-- Settles O10, kind of element by kind of element. -/
theorem blocksAndMasks : Obligations.BlocksAndMasks := by
  unfold Obligations.BlocksAndMasks
  refine ⟨?block, ?mask⟩
  case block =>
    intro ch tag e on s c f hf
    have hc : requestOf c = some f := by cases on <;> rfl
    have hdec : decide f.ch f.kind f.body (s.paired f) = decideBlock e.toNat on (s.paired f) := decide_block ch e on _
    split
    · next h =>
      rw [decideBlock_configured ((paired_configured _ _ _).trans h)] at hdec
      refine concurs_of (v := ⟨.done, 0, _⟩) hc hf hdec ?_
      dsimp only
      have hu := carriedFrom_paired s f (.requestDone f.tag f.kind .done 0)
      refine ⟨fun hs => ?_, fun x hx => setBlock_section_eq ((hu.atSection _).trans hx),
        fun hs => setBlock_other ((hu.atSection _).trans hs)⟩
      obtain ⟨x, hx⟩ := Option.ne_none_iff_exists'.1 hs
      rw [setBlock_section ((hu.atSection _).trans hx)]
      exact reacts_sectionChanged _ _
    · next h => exact refuses_of hc hf (hdec.trans (decideBlock_none ((paired_configured _ _ _).symm ▸ h)))
  case mask =>
    intro ch tag e on s c f hf
    have hc : requestOf c = some f := by cases on <;> rfl
    have hdec : decide f.ch f.kind f.body (s.paired f) = decideMask e.toNat on (s.paired f) := decide_mask ch e on _
    have hu := carriedFrom_paired s f (.requestDone f.tag f.kind .done 0)
    have carries : configured s e.toNat = true → ∀ effect : State → State → Prop,
        (∀ u, CarriedFrom s u → effect u (setMask e.toNat on u)) → Concurs c f s .done 0 effect := fun h effect he =>
      concurs_of (v := ⟨.done, 0, _⟩) hc hf
        (hdec.trans (decideMask_configured ((paired_configured _ _ _).trans h))) (he _ hu)
    rcases hs : s.section? e.toNat with _ | x
    rcases hp : s.point? e.toNat with _ | x
    rcases hx : s.signal? e.toNat with _ | x
    · exact refuses_of hc hf (hdec.trans (decideMask_none (by
        rw [paired_configured, not_configured hs hp hx]; exact Bool.false_ne_true)))
    · refine carries (configured_signal hx) _ fun u hu => ?_
      rw [setMask_signal ((hu.atSection _).trans hs) ((hu.atPoint _).trans hp) ((hu.atSignal _).trans hx), hu.param]
      by_cases hm : x.mask = on
      · simp only [if_pos hm]
      · simp only [if_neg hm]
        exact ⟨reacts_handSignal _ _, handSignal_inSomeOrder _ _⟩
    · refine carries (configured_point hp) _ fun u hu => ?_
      rw [setMask_point ((hu.atSection _).trans hs) ((hu.atPoint _).trans hp), hu.param]
      by_cases hm : x.mask = on
      · simp only [if_pos hm]
      · simp only [if_neg hm]
        exact ⟨reacts_handPoint _ _, handPoint_inSomeOrder _ _⟩
    · refine carries (configured_section hs) _ fun u hu => ?_
      rw [setMask_section ((hu.atSection _).trans hs), hu.param, hu.param]
      by_cases hm : x.mask = on
      · simp only [if_pos hm]
      · simp only [if_neg hm]
        refine ⟨reacts_sectionChanged _ _, ?_⟩
        have hk := SectionRec.derive_kept (param 4 s) (param 5 s) { x with mask := on }
        exact sectionChanged_derived hs (sectionLookup_mapped _ (fun y => (SectionRec.derive_kept _ _ _).1)
          ((hu.atSection _).trans hs)) hk.2.1 hk.2.2

/-! ## ELEMENT RESTORE -/

theorem decideRestore_eq {id : Nat} {s : State} (h : configured s id = true) :
    decideRestore id s = if restorable s id = true then { out := .done, detail := 0, act := restoreElement id }
      else .plain .wrongState 0 := by
  unfold decideRestore; rw [h]; rfl

theorem decideRestore_none {id : Nat} {s : State} (h : configured s id = false) :
    decideRestore id s = .plain .notConfigured 0 := by
  unfold decideRestore; rw [h]; rfl

theorem restorable_section {s : State} {id : Nat} {x : SectionRec} (h : s.section? id = some x) :
    restorable s id = true ↔ x.faulted = true ∧ x.viewA = .clear ∧ x.viewB = .clear := by
  unfold restorable; rw [h]; simp [and_assoc]

theorem restorable_point {s : State} {id : Nat} {x : PointRec} (hs : s.section? id = none) (h : s.point? id = some x) :
    restorable s id = true ↔ x.faulted = true
      ∧ ((x.viewA = .normal ∧ x.viewB = .normal) ∨ (x.viewA = .reverse ∧ x.viewB = .reverse)) := by
  unfold restorable
  rw [hs, h]
  simp only [Bool.and_eq_true, Bool.or_eq_true, bothAt_iff, viewOfPos]

theorem restorable_signal {s : State} {id : Nat} {x : SignalRec} (hs : s.section? id = none) (hp : s.point? id = none)
    (h : s.signal? id = some x) :
    restorable s id = true ↔ x.faulted = true ∧ x.viewA = .danger ∧ x.viewB = .danger := by
  unfold restorable; rw [hs, hp, h]; simp [and_assoc]

/-- Settles O11, kind of element by kind of element. -/
theorem elementRestores : Obligations.ElementRestores := by
  unfold Obligations.ElementRestores
  intro ch tag e s c f hf
  have hc : requestOf c = some f := rfl
  have hdec : decide f.ch f.kind f.body (s.paired f) = decideRestore e.toNat (s.paired f) := decide_restore ch e _
  have hu := carriedFrom_paired s f (.requestDone f.tag f.kind .done 0)
  have hconf : configured (s.paired f) e.toNat = configured s e.toNat := paired_configured _ _ _
  have outcome : ∀ {p : Prop} [Decidable p], configured s e.toNat = true → (restorable (s.paired f) e.toNat = true ↔ p) →
      ∀ effect : State → State → Prop, (p → ∀ u, CarriedFrom s u → effect u (restoreElement e.toNat u)) →
      if p then Concurs c f s .done 0 effect else Refuses c f s .wrongState 0 := by
    intro p _ h hp effect he
    rw [decideRestore_eq (hconf.trans h)] at hdec
    split
    · next h' => exact concurs_of (v := ⟨.done, 0, _⟩) hc hf (hdec.trans (if_pos (hp.2 h'))) (he h' _ hu)
    · next h' => exact refuses_of hc hf (hdec.trans (if_neg (mt hp.1 h')))
  rcases hs : s.section? e.toNat with _ | x
  rcases hp : s.point? e.toNat with _ | x
  rcases hx : s.signal? e.toNat with _ | x
  · exact refuses_of hc hf (hdec.trans (decideRestore_none (hconf.trans (not_configured hs hp hx))))
  · refine outcome (configured_signal hx) (restorable_signal ((State.paired_section? _ _ _).trans hs)
      ((State.paired_point? _ _ _).trans hp) ((State.paired_signal? _ _ _).trans hx)) _ fun _ u hu => ?_
    have e1 : restoreElement e.toNat u = handSignal e.toNat (emit (.elementRestored e.toNat)
        (u.mapSignal e.toNat (fun y => SignalRec.derive (param 7 s) { y with faulted := false }))) := by
      unfold restoreElement; rw [(hu.atSection _).trans hs, (hu.atPoint _).trans hp, ← hu.param]
    rw [e1]
    exact ⟨reacts_handSignal _ _, handSignal_inSomeOrder _ _⟩
  · refine outcome (configured_point hp) (restorable_point ((State.paired_section? _ _ _).trans hs)
      ((State.paired_point? _ _ _).trans hp)) _ fun _ u hu => ?_
    have e1 : restoreElement e.toNat u = handPoint e.toNat (emit (.elementRestored e.toNat)
        (u.mapPoint e.toNat (fun y => PointRec.derive (param 6 s) { y with faulted := false }))) := by
      unfold restoreElement; rw [(hu.atSection _).trans hs, (hu.atPoint _).trans hp, ← hu.param]
    rw [e1]
    exact ⟨reacts_handPoint _ _, handPoint_inSomeOrder _ _⟩
  · refine outcome (configured_section hs) (restorable_section ((State.paired_section? _ _ _).trans hs)) _
      fun ⟨hf, _⟩ u hu => ?_
    have hx' := (hu.atSection _).trans hs
    have e1 : restoreElement e.toNat u = sectionChanged x (emit (.elementRestored e.toNat)
        (u.mapSection e.toNat (fun y => SectionRec.derive (param 4 s) (param 5 s) { y with faulted := false }))) := by
      unfold restoreElement; rw [hx', ← hu.param, ← hu.param]
    rw [e1]
    refine ⟨reacts_sectionChanged _ _, ?_⟩
    refine sectionChanged_faulted hs ((emit_section? _ _ _).trans
      (sectionLookup_mapped _ (fun y => (SectionRec.derive_kept _ _ _).1) hx')) ?_
    rw [(SectionRec.derive_kept _ _ _).2.1, hf]; exact Bool.false_ne_true

end Sys2Proof.Machine

/-!
PROOFS. The ports and the Concurrence Table: how a frame is decided, frames turned away, halves, PAUSE and RESUME, reads, raw
frames and the end of a transfer. O12, O13, O14, O17, O18, O19, O20, O21, O22.
-/

namespace Sys2Proof.Machine

/-! ## The course of a frame (R150, R151) -/

section FrameCourse
variable {f : RequestFrame} {s : State}

/-- A frame of a length its kind has is answered after the change of channel state that it causes. -/
theorem request_of_length (line : (s.chan f.ch).crst = false) (short : f.body.length ≤ 200)
    (length : lengthOk f.kind f.body.length = true) :
    request f.ch f.kind f.tag f.body s =
      reply f.ch f.tag (answerValid f.ch f.kind f.tag f.body (frameArrives f.ch (s.opened f))) := by
  have e : openTransfer f.ch .decide (channelFrame (kindCode f.kind) f.tag f.body) s = s.opened f := rfl
  unfold request decideFrame
  rw [line, if_neg Bool.false_ne_true, e, if_neg (Nat.not_lt.2 short), if_pos length]

/-- A frame of another length is answered BAD_LENGTH from its open transfer. -/
theorem request_of_bad_length (line : (s.chan f.ch).crst = false) (short : f.body.length ≤ 200)
    (length : lengthOk f.kind f.body.length = false) :
    request f.ch f.kind f.tag f.body s = respond f.ch .badLength f.tag [] (s.opened f) := by
  have e : openTransfer f.ch .decide (channelFrame (kindCode f.kind) f.tag f.body) s = s.opened f := rfl
  unfold request decideFrame
  rw [line, if_neg Bool.false_ne_true, e, if_neg (Nat.not_lt.2 short), length]
  exact if_neg Bool.false_ne_true

theorem request_under_crst (line : (s.chan f.ch).crst = true) : request f.ch f.kind f.tag f.body s = s := by
  unfold request; rw [line]; rfl

theorem answerValid_lost (h : (s.chan f.ch).state = .lost) :
    answerValid f.ch f.kind f.tag f.body s = .plain .channelLost [] s := by
  unfold answerValid; exact if_pos h

theorem answerValid_out_of_range (h : (s.chan f.ch).state ≠ .lost) (range : inRange f.kind f.body = false) :
    answerValid f.ch f.kind f.tag f.body s = .plain .badValue [] s := by
  unfold answerValid; rw [if_neg h, if_pos range]

theorem answerValid_concurred (h : (s.chan f.ch).state ≠ .lost) (range : inRange f.kind f.body = true)
    (hk : isConcurred f.kind = true) : answerValid f.ch f.kind f.tag f.body s = takeHalf f.ch f.kind f.tag f.body s := by
  unfold answerValid; rw [if_neg h, range, if_neg Bool.true_eq_false.mp, if_pos hk]

theorem answerValid_single (h : (s.chan f.ch).state ≠ .lost) (range : inRange f.kind f.body = true)
    (hk : isConcurred f.kind = false) : answerValid f.ch f.kind f.tag f.body s = answer f.ch f.kind f.body s := by
  unfold answerValid; rw [if_neg h, range, if_neg Bool.true_eq_false.mp, hk, if_neg Bool.false_ne_true]

theorem frameArrives_lost (h : (s.chan f.ch).state = .lost) : frameArrives f.ch (s.opened f) = s.opened f := by
  unfold frameArrives; rw [State.opened_chan, h]

theorem State.opened_dev (s : State) (f : RequestFrame) : (s.opened f).dev = s.dev := by
  unfold State.opened; cases f.ch <;> rfl

theorem State.served_paused (h : (s.chan f.ch).state = .paused) : s.served f = s.opened f := by
  unfold State.served; rw [if_neg (by rw [h]; exact fun h => nomatch h)]

/-- The state in which a frame of an ACTIVE or PAUSED channel is decided, whatever it asks. -/
theorem request_of_operating (line : (s.chan f.ch).crst = false) (short : f.body.length ≤ 200)
    (length : lengthOk f.kind f.body.length = true) (h : (s.chan f.ch).state = .active ∨ (s.chan f.ch).state = .paused) :
    request f.ch f.kind f.tag f.body s = reply f.ch f.tag (answerValid f.ch f.kind f.tag f.body (s.served f)) := by
  rw [request_of_length line short length, frameArrives_opened h]

theorem State.served_not_lost (h : (s.chan f.ch).state = .active ∨ (s.chan f.ch).state = .paused) :
    ((s.served f).chan f.ch).state ≠ .lost := by
  rw [State.served_state]
  rcases h with h | h <;> rw [h] <;> exact fun h => nomatch h

/-- A single request of an ACTIVE or PAUSED channel is answered by its owner. -/
theorem request_single (line : (s.chan f.ch).crst = false) (short : f.body.length ≤ 200)
    (length : lengthOk f.kind f.body.length = true) (h : (s.chan f.ch).state = .active ∨ (s.chan f.ch).state = .paused)
    (range : inRange f.kind f.body = true) (hk : isConcurred f.kind = false) :
    request f.ch f.kind f.tag f.body s = reply f.ch f.tag (answer f.ch f.kind f.body (s.served f)) := by
  rw [request_of_operating line short length h, answerValid_single (State.served_not_lost h) range hk]

/-- A served single request ends as its owner answers (R151). -/
theorem answers_single {c : Instr} {effect : State → State → Prop} (hc : requestOf c = some f)
    (line : (s.chan f.ch).crst = false) (short : f.body.length ≤ 200) (length : lengthOk f.kind f.body.length = true)
    (h : (s.chan f.ch).state = .active ∨ (s.chan f.ch).state = .paused) (range : inRange f.kind f.body = true)
    (hk : isConcurred f.kind = false) {a : Answer} (ha : answer f.ch f.kind f.body (s.served f) = a)
    (he : effect (s.served f) a.after) : Answers c f s a.status a.body effect :=
  ⟨a.after, by rw [exec_request hc, request_single line short length h range hk, ha]; rfl, he⟩

/-- A served half ends as the Concurrence Unit answers (R24, R26). -/
theorem answers_half {c : Instr} {effect : State → State → Prop} (hc : requestOf c = some f) (h : Serves f s)
    (hk : isConcurred f.kind = true) {a : Answer} (ha : takeHalf f.ch f.kind f.tag f.body (s.served f) = a)
    (he : effect (s.served f) a.after) : Answers c f s a.status a.body effect := by
  refine ⟨a.after, ?_, he⟩
  rw [exec_request hc, request_serves h, if_pos hk, ha]; rfl

end FrameCourse

/-! ## The Concurrence Table -/

/-- The device-state test (R24). -/
theorem passesDevice_false_iff {k : ReqKind} {s : State} : passesDevice k s = false ↔
    s.dev.state = .loading ∨ s.dev.state = .safeHalt
      ∨ (s.dev.state = .awaiting ∧ k ≠ .acceptConfiguration ∧ k ≠ .deviceReset) := by
  unfold passesDevice
  cases s.dev.state <;> simp

theorem operating_false_iff {s : State} {ch : Channel} :
    s.operating ch = false ↔ (s.chan ch).state = .lost ∨ (s.chan ch).state = .absent := by
  unfold State.operating
  cases (s.chan ch).state <;> simp

theorem State.served_chan_other (s : State) (f : RequestFrame) : (s.served f).chan f.ch.other = s.chan f.ch.other := by
  unfold State.served; split
  · rw [State.setChan_chan_other, State.opened_chan]
  · rw [State.opened_chan]

theorem takeHalf_device {ch : Channel} {k : ReqKind} {tag : Byte} {body : List Byte} {s : State}
    (h : passesDevice k s = false) : takeHalf ch k tag body s = .plain .notInService [] s := by
  unfold takeHalf; exact if_pos h

theorem takeHalf_paused {ch : Channel} {k : ReqKind} {tag : Byte} {body : List Byte} {s : State}
    (h : passesDevice k s = true) (hp : (s.chan ch).state = .paused) :
    takeHalf ch k tag body s = .plain .channelPaused [] s := by
  unfold takeHalf; rw [h, if_neg Bool.true_eq_false.mp, if_pos hp]

/-- The table of R26. -/
theorem takeHalf_table {ch : Channel} {k : ReqKind} {tag : Byte} {body : List Byte} {s : State}
    (h : passesDevice k s = true) (hp : (s.chan ch).state ≠ .paused) :
    takeHalf ch k tag body s = match s.table.find? (fun h => h.tag == tag) with
      | none => openHalf ch k tag body s
      | some h =>
        if h.filler = ch then .plain .tagBusy [] s
        else if h.kind = k ∧ h.body = body then concur ch k tag body s
        else .plain .disagree [] (disagree h k s) := by
  unfold takeHalf; rw [h, if_neg Bool.true_eq_false.mp]; exact if_neg hp

/-- The two halves that differ go with one event, of the kind of either (R26, R28; log 15). -/
theorem disagree_eq (h : HalfRequest) (k : ReqKind) (s : State) : ∃ q, (q = h.kind ∨ q = k) ∧
    disagree h k s = emit (.requestDone h.tag q .disagree 0)
      { s with table := s.table.filter (fun x => x.tag != h.tag), disagreements := min 65535 (s.disagreements + 1)
               choices := (disagree h k s).choices, drawn := (disagree h k s).drawn } := by
  unfold disagree
  by_cases hk : h.kind = k
  · exact ⟨k, .inr rfl, by simp only [if_pos hk]; rfl⟩
  · have hpick := pick_eq (removeHalf h.tag { s with disagreements := min 65535 (s.disagreements + 1) }) 2
    simp only [if_neg hk]
    refine ⟨if ((removeHalf h.tag { s with disagreements := min 65535 (s.disagreements + 1) }).pick 2).1 = 0 then h.kind
      else k, by split; exacts [.inl rfl, .inr rfl], ?_⟩
    rw [hpick]
    rfl

/-- Settles O12, by the tests of R24 and the table of R26. -/
theorem halfIsDecidedByTable : Obligations.HalfIsDecidedByTable := by
  unfold Obligations.HalfIsDecidedByTable
  intro c f s hc hk hf
  have hdev : s.dev = (s.served f).dev := (State.served_dev s f).symm
  have hact : ((s.served f).chan f.ch).state ≠ .paused := by
    rw [State.served_state, hf.active]; exact fun h => nomatch h
  have hpass := passesDevice_false_iff (k := f.kind) (s := s.served f)
  rw [← hdev] at hpass
  split
  · next hd => exact answers_half hc hf hk (takeHalf_device (hpass.2 hd)) rfl
  · next hd =>
    replace hd := mt hpass.1 hd
    have htab := takeHalf_table (tag := f.tag) (body := f.body) (Bool.eq_true_of_not_eq_false hd) hact
    rw [State.served_table] at htab
    split
    · next h hfind =>
      rw [hfind] at htab
      dsimp only at htab
      have htag : h.tag = f.tag := by simpa using List.find?_some hfind
      by_cases hb : h.filler = f.ch
      · rw [if_pos hb] at htab ⊢
        exact answers_half hc hf hk htab rfl
      · rw [if_neg hb] at htab ⊢
        split
        · next hsame =>
          have hother : h.filler = f.ch.other := by revert hb; cases h.filler <;> cases f.ch <;> simp [Channel.other]
          refine ⟨_, _, concurs_of hc ⟨hf, hk, ?_, h, hfind, hother, hsame.1, hsame.2⟩ rfl trivial⟩
          have := mt hpass.2 hd
          revert this
          cases s.dev.state <;> simp
          tauto
        · next hdiff =>
          obtain ⟨q, hq, e⟩ := disagree_eq h f.kind (s.served f)
          refine answers_half (a := .plain .disagree [] _) hc hf hk (htab.trans (if_neg hdiff)) ⟨q, hq, ?_⟩
          rw [htag] at e
          exact e
    · next hfind =>
      rw [hfind] at htab
      dsimp only at htab
      unfold openHalf at htab
      have hop : (s.served f).operating f.ch.other = false ↔
          (s.chan f.ch.other).state = .lost ∨ (s.chan f.ch.other).state = .absent := by
        rw [operating_false_iff, State.served_chan_other]
      by_cases hl : (s.served f).operating f.ch.other = false
      · rw [if_pos (hop.1 hl)]
        exact answers_half hc hf hk (htab.trans (if_pos hl)) rfl
      · rw [if_neg (mt hop.2 hl)]
        rw [if_neg hl, State.served_table] at htab
        split
        · next hn => exact answers_half hc hf hk (htab.trans (if_pos hn)) rfl
        · next hn =>
          refine answers_half (a := .plain .halfHeld [] _) hc hf hk (htab.trans (if_neg hn)) ?_
          unfold newHalf Answer.plain
          dsimp only
          rw [State.served_table, State.served_chan_other, State.served_param]
          split <;> rfl

/-- Settles O13, test by test in the order of R150 and R151. -/
theorem framesTurnedAway : Obligations.FramesTurnedAway := by
  unfold Obligations.FramesTurnedAway
  intro c f s hc short
  unfold AnsweredAtPort Answers
  rw [exec_request hc]
  split_ifs with line length lost range paused dev
  · rw [request_under_crst line]
  all_goals have line' : (s.chan f.ch).crst = false := Bool.eq_false_iff.2 line
  · rw [request_of_bad_length line' short length]
  all_goals have length' : lengthOk f.kind f.body.length = true := Bool.eq_true_of_not_eq_false length
  · rw [request_of_length line' short length', frameArrives_lost lost, answerValid_lost (by rwa [State.opened_chan])]; rfl
  · refine ⟨fun h => ⟨s.served f, ?_, rfl⟩, fun h => ?_⟩
    · rw [request_of_operating line' short length' (.inl h), answerValid_out_of_range (State.served_not_lost (.inl h)) range]
      rfl
    · rw [request_of_operating line' short length' (.inr h), answerValid_out_of_range (State.served_not_lost (.inr h)) range,
        State.served_paused h]
      rfl
  all_goals have range' : inRange f.kind f.body = true := Bool.eq_true_of_not_eq_false range
  · rw [request_of_operating line' short length' (.inr paused.1),
      answerValid_concurred (State.served_not_lost (.inr paused.1)) range' paused.2, State.served_paused paused.1,
      takeHalf_device (passesDevice_false_iff.2 (by rwa [State.opened_dev]))]
    rfl
  · rw [request_of_operating line' short length' (.inr paused.1),
      answerValid_concurred (State.served_not_lost (.inr paused.1)) range' paused.2, State.served_paused paused.1,
      takeHalf_paused (Bool.eq_true_of_not_eq_false (mt passesDevice_false_iff.1 (by rwa [State.opened_dev])))
        (by rw [State.opened_chan]; exact paused.1)]
    rfl

/-- Settles O14, by the entry of the tag. -/
theorem windowLapses : Obligations.WindowLapses := by
  unfold Obligations.WindowLapses
  intro tag s
  have e : exec (.windowTimerExpiry tag) s = .next (windowExpired tag s) := rfl
  split
  · next h hfind =>
    split
    · next hrun => rw [e]; unfold windowExpired; rw [hfind]; dsimp only; rw [if_pos hrun]
    · next hrun => rw [e]; unfold windowExpired; rw [hfind]; dsimp only; rw [if_neg hrun]
  · next hfind => rw [e]; unfold windowExpired; rw [hfind]

end Sys2Proof.Machine

/-!
PROOFS. The channel states at a frame, the reads, the event queues and the transfers at a port. O17 to O22.
-/

namespace Sys2Proof.Machine

/-! ## Changes of a channel's state -/

/-- A change of a channel's state handed to the units (R38). -/
theorem reacts_handChannel (ch : Channel) (s : State) : Reacts s (inAnyOrder (handChannel ch) s) := by
  refine (reacts_closed s).inAnyOrder ?_ (Reacts.refl s)
  intro f hf
  rcases List.mem_cons.1 hf with rfl | hf
  · exact fun _ => (reacts_closed s).permOn _
  · rw [List.mem_singleton.1 hf]; exact fun _ => (reacts_closed s).retestAll

theorem handChannel_inSomeOrder (ch : Channel) (s : State) :
    InSomeOrder (channelWork ch) s (inAnyOrder (handChannel ch) s) := inAnyOrder_inSomeOrder _ _

theorem State.setChan_setChan (s : State) (ch : Channel) (c d : ChannelRec) : (s.setChan ch c).setChan ch d = s.setChan ch d := by
  cases ch <;> rfl

theorem State.setChan_self (s : State) (ch : Channel) : s.setChan ch (s.chan ch) = s := by cases ch <;> rfl

theorem Reacts.chan {u t : State} (h : Reacts u t) (ch : Channel) : t.chan ch = u.chan ch := by
  have e := congrArg (State.chan · ch) h.base
  cases ch <;> exact e

theorem Reacts.port {u t : State} (h : Reacts u t) (ch : Channel) : t.port ch = u.port ch := by
  have e := congrArg (State.port · ch) h.base
  cases ch <;> exact e

theorem Reacts.dev {u t : State} (h : Reacts u t) : t.dev = u.dev :=
  show t.base.dev = u.base.dev by rw [h.base]

/-- Settles O17, by the state of the channel. -/
theorem pauseAndResume : Obligations.PauseAndResume := by
  unfold Obligations.PauseAndResume
  intro ch tag s line p r awaited
  refine ⟨fun active => ⟨?_, ?_⟩, fun paused => ⟨?_, ?_⟩⟩
  · have hs : ((s.served p).chan ch).state = .active := by rw [State.served_state, active]
    have ha : answer ch .pause [] (s.served p) =
        if (s.chan ch.other).state = .active then .plain .done [] (enterPaused ch (s.served p))
        else .plain .otherPaused [] (s.served p) := by
      show answerPause ch (s.served p) = _
      unfold answerPause
      rw [hs, State.served_chan_other]
    split
    · next other =>
      refine answers_single (f := p) rfl line (Nat.zero_le _) rfl (.inl active) rfl rfl (ha.trans (if_pos other)) ?_
      have hu : enterPaused ch (s.served p) = inAnyOrder (handChannel ch)
          (awaited (fun t => if t.mode = .running then ⟨.suspended, t.left⟩ else t)
            (emit (.channelState ch .paused .pause) ((s.served p).setChan ch
              { s.chan ch with state := .paused, cause := some .pause, supervision := ⟨.stopped, 0⟩
                               pauseLimit := ⟨.running, param 3 s⟩ }))) := by
        unfold enterPaused setChannel
        rw [State.served_chan (f := p) active, State.served_param]
        rfl
      rw [Answer.plain, hu]
      exact ⟨reacts_handChannel _ _, handChannel_inSomeOrder _ _⟩
    · next other => exact answers_single (f := p) rfl line (Nat.zero_le _) rfl (.inl active) rfl rfl (ha.trans (if_neg other)) rfl
  · refine answers_single (f := r) (a := .plain .wrongState [] (s.served r)) rfl line (Nat.zero_le _) rfl (.inl active) rfl rfl ?_ rfl
    show answerResume ch (s.served r) = _
    unfold answerResume
    rw [State.served_state (f := r), active]
  · unfold AnsweredAtPort
    rw [exec_request (f := p) rfl, request_single line (Nat.zero_le _) rfl (.inr paused) rfl rfl]
    show Host.Outcome.next (reply ch tag (answerPause ch (s.served p))) = _
    unfold answerPause
    rw [State.served_state (f := p), paused, State.served_paused (f := p) paused]
    rfl
  · refine ⟨leavePaused ch (s.opened r), ?_, ?_⟩
    · rw [exec_request (f := r) rfl, request_single line (Nat.zero_le _) rfl (.inr paused) rfl rfl]
      show Host.Outcome.next (reply ch tag (answerResume ch (s.served r))) = _
      unfold answerResume
      rw [State.served_state (f := r), paused, State.served_paused (f := r) paused]
      rfl
    · have hu : leavePaused ch (s.opened r) = inAnyOrder (handChannel ch)
          (awaited (fun t => if t.mode = .suspended then ⟨.running, t.left⟩ else t)
            (emit (.channelState ch .active .resume) ((s.opened r).setChan ch
              { s.chan ch with state := .active, cause := some .resume, pauseLimit := ⟨.stopped, 0⟩
                               supervision := ⟨.running, param 2 s⟩ }))) := by
        unfold leavePaused setChannel
        rw [State.opened_chan]
        unfold State.opened
        rw [param_setPort]
        rfl
      rw [hu]
      exact ⟨reacts_handChannel _ _, handChannel_inSomeOrder _ _⟩

/-! ## The first frame of an ABSENT channel -/

section FirstFrame
variable {f : RequestFrame} {s : State}

/-- The state in which CHANNEL_STATE of a first frame stands in the queues (R33). -/
def State.woken (s : State) (f : RequestFrame) : State :=
  emit (.channelState f.ch .active .firstFrame) ((s.opened f).setChan f.ch
    { s.chan f.ch with state := .active, cause := some .firstFrame, supervision := ⟨.running, param 2 s⟩ })

theorem frameArrives_absent (absent : (s.chan f.ch).state = .absent) :
    frameArrives f.ch (s.opened f) = inAnyOrder (handChannel f.ch) (s.woken f) := by
  unfold frameArrives setChannel State.woken
  rw [State.opened_chan, absent]
  unfold State.opened
  rw [param_setPort]
  rfl

theorem State.woken_chan : (s.woken f).chan f.ch =
    { s.chan f.ch with state := .active, cause := some .firstFrame, supervision := ⟨.running, param 2 s⟩ } := by
  unfold State.woken
  cases f.ch <;> rfl

theorem State.woken_port : (s.woken f).port f.ch = { (s.port f.ch).between with
    phase := .decide, bytes := channelFrame (kindCode f.kind) f.tag f.body, response := none, taken := 0
    resetOnEnd := false } := by
  unfold State.woken State.opened
  cases f.ch <;> rfl

theorem State.woken_dev : (s.woken f).dev = s.dev := by
  unfold State.woken State.opened
  cases f.ch <;> rfl

theorem State.setPort_self (s : State) (ch : Channel) : s.setPort ch (s.port ch) = s := by cases ch <;> rfl

/-- The state that the units leave after a first frame is one in which the same frame is served. -/
theorem served_of_woken {v : State} (h : Reacts (s.woken f) v) : v.served f = v := by
  have hc : v.chan f.ch = _ := (h.chan f.ch).trans State.woken_chan
  have hp : v.port f.ch = _ := (h.port f.ch).trans State.woken_port
  have hd : param 2 v = param 2 s := by unfold param; rw [h.dev, State.woken_dev]
  have ho : v.opened f = v := by
    have : ({ (v.port f.ch).between with
        phase := .decide, bytes := channelFrame (kindCode f.kind) f.tag f.body, response := none, taken := 0
        resetOnEnd := false } : Port) = v.port f.ch := by rw [hp]; rfl
    unfold State.opened
    rw [this, State.setPort_self]
  unfold State.served
  rw [ho, if_pos (by rw [hc])]
  have : ({ v.chan f.ch with supervision := Timer.start (param 2 v) } : ChannelRec) = v.chan f.ch := by
    rw [hc, hd]; rfl
  rw [this, State.setChan_self]

end FirstFrame

/-- Settles O18, by the state that the first frame leaves. -/
theorem firstFrameActivates : Obligations.FirstFrameActivates := by
  unfold Obligations.FirstFrameActivates
  have first (c : Instr) (f : RequestFrame) (s : State) (hc : requestOf c = some f) (line : (s.chan f.ch).crst = false)
      (absent : (s.chan f.ch).state = .absent) (short : f.body.length ≤ 200)
      (length : lengthOk f.kind f.body.length = true) :
      exec c s = .next (reply f.ch f.tag (answerValid f.ch f.kind f.tag f.body (inAnyOrder (handChannel f.ch) (s.woken f)))) := by
    rw [exec_request hc, request_of_length line short length, frameArrives_absent absent]
  refine ⟨?_, ?_⟩
  · intro c f s hc line absent short length u
    have hr := reacts_handChannel f.ch (s.woken f)
    have hv := (hr.chan f.ch).trans State.woken_chan
    have e := first c f s hc line absent short length
    refine ⟨inAnyOrder (handChannel f.ch) (s.woken f), _, hr, handChannel_inSomeOrder _ _, by rw [hv], ?_, e⟩
    rw [e, exec_request hc, request_of_operating (by rw [hv]; exact line) short length (.inl (by rw [hv])), served_of_woken hr]
  · intro ch tag s line absent u
    have hr := reacts_handChannel ch (s.woken ⟨ch, .readStatus, tag, []⟩)
    have hv := (hr.chan ch).trans (State.woken_chan (f := ⟨ch, .readStatus, tag, []⟩))
    refine ⟨_, ?_, hr, handChannel_inSomeOrder _ _⟩
    rw [first (.readStatus ch tag) ⟨ch, .readStatus, tag, []⟩ s rfl line absent (Nat.zero_le _) rfl,
      answerValid_single (by show ((State.chan _ ch).state ≠ _); rw [hv]; exact fun h => nomatch h) rfl rfl]
    rfl

/-! ## Reads -/

/-- A read of an ACTIVE or PAUSED channel that its unit answers with a body, or refuses. -/
theorem answers_read {c : Instr} {f : RequestFrame} {s : State} {st : Status} {body : List Byte}
    (hc : requestOf c = some f) (line : (s.chan f.ch).crst = false) (short : f.body.length ≤ 200)
    (length : lengthOk f.kind f.body.length = true)
    (h : (s.chan f.ch).state = .active ∨ (s.chan f.ch).state = .paused) (range : inRange f.kind f.body = true)
    (hk : isConcurred f.kind = false)
    (ha : answer f.ch f.kind f.body (s.served f) = .plain st body (s.served f)) :
    Answers c f s st body (fun u w => w = u) :=
  answers_single hc line short length h range hk ha rfl

theorem routeBytes_served (s : State) (f : RequestFrame) : routeBytes (s.served f) = routeBytes s := by
  funext a
  unfold routeBytes restriction
  rw [State.served_speeds]

/-- Settles O19, read by read. -/
theorem readsChangeNothing : Obligations.ReadsChangeNothing := by
  unfold Obligations.ReadsChangeNothing
  intro ch tag s line operating
  have read {c : Instr} {st : Status} {body : List Byte} (k : ReqKind) (b : List Byte)
      (hc : requestOf c = some ⟨ch, k, tag, b⟩) (short : b.length ≤ 200) (length : lengthOk k b.length = true)
      (range : inRange k b = true) (hk : isConcurred k = false)
      (ha : answer ch k b (s.served ⟨ch, k, tag, b⟩) = .plain st body (s.served ⟨ch, k, tag, b⟩)) :
      Answers c ⟨ch, k, tag, b⟩ s st body (fun u w => w = u) := answers_read hc line short length operating range hk ha
  refine ⟨?_, ?_, ?_, ?_, ?_, ?_, ?_, ?_⟩
  · intro e he f
    have range : inRange f.kind f.body = true := by
      show Decidable.decide (num2 _ _ < 512) = true
      rw [num2_b2_eq]; exact decide_eq_true he
    have ha : answer f.ch f.kind f.body (s.served f) = readAnswer (readElement e.toNat (s.served f)) .notConfigured (s.served f) := by
      show readAnswer (readElement (num2 _ _) _) _ _ = _
      rw [num2_b2_eq]
    unfold readElement at ha
    rw [State.served_section?, State.served_point?, State.served_signal?] at ha
    split
    · next x hx => rw [hx] at ha; exact read .readElement (b2 e.toNat) rfl (by simp [b2]) rfl range rfl ha
    · next x hx hy => rw [hx, hy] at ha; exact read .readElement (b2 e.toNat) rfl (by simp [b2]) rfl range rfl ha
    · next x hx hy hz => rw [hx, hy, hz] at ha; exact read .readElement (b2 e.toNat) rfl (by simp [b2]) rfl range rfl ha
    · next hx hy hz => rw [hx, hy, hz] at ha; exact read .readElement (b2 e.toNat) rfl (by simp [b2]) rfl range rfl ha
  · intro r
    have ha : answer ch .readRoute [r] (s.served ⟨ch, .readRoute, tag, [r]⟩) =
        readAnswer ((s.route? r.toNat).map (routeBytes s)) .notActive (s.served ⟨ch, .readRoute, tag, [r]⟩) := by
      rw [← routeBytes_served s ⟨ch, .readRoute, tag, [r]⟩, ← State.served_route? s ⟨ch, .readRoute, tag, [r]⟩]; rfl
    split
    · next a h => rw [h] at ha; exact read .readRoute [r] rfl (by simp) rfl rfl rfl ha
    · next h => rw [h] at ha; exact read .readRoute [r] rfl (by simp) rfl rfl rfl ha
  · refine read .readRoutes [] rfl (Nat.zero_le _) rfl rfl rfl ?_
    show Answer.plain .done (routesBytes _) _ = _
    unfold routesBytes
    rw [State.served_routes]
  · intro l i hl hi
    have range : inRange .readSlot [l, i] = true := by simp [inRange, hl, hi]
    have ha : answer ch .readSlot [l, i] (s.served ⟨ch, .readSlot, tag, [l, i]⟩) =
        readAnswer ((s.slot? ⟨l.toNat, i.toNat⟩).map slotRecBytes) .notConfigured
          (s.served ⟨ch, .readSlot, tag, [l, i]⟩) := by
      rw [← State.served_slot? s ⟨ch, .readSlot, tag, [l, i]⟩]; rfl
    split
    · next x h => rw [h] at ha; exact read .readSlot [l, i] rfl (by simp) rfl range rfl ha
    · next h => rw [h] at ha; exact read .readSlot [l, i] rfl (by simp) rfl range rfl ha
  · intro l hl x hx
    refine read .readLink [l] rfl (by simp) rfl (by simp [inRange, hl]) rfl ?_
    show readAnswer ((State.link? _ l.toNat).map linkBytes) _ _ = _
    rw [State.served_link?, hx]
    rfl
  · intro h
    refine read .readParameters [] rfl (Nat.zero_le _) rfl rfl rfl ?_
    show readAnswer (if (State.dev _).active.isEmpty then none else some (paramBytes _)) _ _ = _
    unfold paramBytes
    rw [State.served_dev, if_neg (by simpa using h)]
    rfl
  · intro h
    refine read .readParameters [] rfl (Nat.zero_le _) rfl rfl rfl ?_
    show readAnswer (if (State.dev _).active.isEmpty then none else some (paramBytes _)) _ _ = _
    rw [State.served_dev, if_pos (by rw [h]; rfl)]
    rfl
  · exact read .readStatus [] rfl (Nat.zero_le _) rfl rfl rfl rfl

/-! ## Event queues (R158 to R160) -/

theorem State.served_queue (s : State) (f : RequestFrame) (ch : Channel) : (s.served f).queue ch = s.queue ch := by
  unfold State.served State.opened
  split <;> simp

/-- The end of a response removes the records that it took, and no others (R159). -/
theorem responseEnds_queue {ch : Channel} {s : State} {r : Response} (line : (s.chan ch).crst = false)
    (h : (s.port ch).response = some r) :
    (responseEnds ch s).queue ch = { s.queue ch with records := (s.queue ch).records.drop (s.port ch).taken }
    ∧ (responseEnds ch s).queue ch.other = s.queue ch.other ∧ ((responseEnds ch s).port ch).taken = 0
    ∧ ((responseEnds ch s).port ch).response = some r ∧ ((responseEnds ch s).chan ch).crst = false := by
  unfold responseEnds
  rw [if_neg (by rw [line, h]; simp)]
  simp only [State.setQueue_queue, State.setQueue_queue_other, State.setQueue_port, State.setQueue_chan, State.setPort_queue,
    State.setPort_port, State.setPort_chan, h, line, and_self]

/-- Settles O20, by the count of taken records at the port. -/
theorem eventsAreReadOnce : Obligations.EventsAreReadOnce := by
  unfold Obligations.EventsAreReadOnce
  refine ⟨fun s ch => by simp [State.atn], ?_⟩
  intro ch tag n s line operating low high
  let f : RequestFrame := ⟨ch, .readEvents, tag, [n]⟩
  let t := respond ch .done tag (eventsBody ch n.toNat s)
    ((s.served f).setPort ch { (s.served f).port ch with taken := (takenRecords ch n.toNat s).length })
  have e : exec (.readEvents ch tag n) s = .next t := by
    rw [exec_request (f := f) rfl,
      request_single (f := f) line (by simp [f]) rfl operating (by simp [f, inRange, low, high]) rfl]
    show Host.Outcome.next (reply ch tag (answerEvents ch n.toNat (s.served f))) = _
    unfold answerEvents eventsBody takenRecords
    rw [State.served_queue]
    simp only [t, eventsBody, takenRecords]
    rfl
  have hq (c : Channel) : t.queue c = s.queue c := by
    simp only [t, respond, State.setPort_queue, State.served_queue]
  have hp : t.port ch = { (s.served f).port ch with
      taken := (takenRecords ch n.toNat s).length
      response := some ⟨.done, tag, eventsBody ch n.toNat s⟩ } := by
    simp only [t, respond, State.setPort_port]
  have hc : (t.chan ch).crst = false := by
    simp only [t, respond, State.setPort_chan]
    unfold State.served
    split
    · rw [State.setChan_chan]; exact line
    · rw [State.opened_chan]; exact line
  obtain ⟨hu, ho, hz, hr, hl⟩ := responseEnds_queue hc (congrArg Port.response hp)
  obtain ⟨hv, -⟩ := responseEnds_queue hl hr
  refine ⟨t, responseEnds ch t, e, rfl, by rw [hp], hq, ho.symm, ?_, responseEnds ch (responseEnds ch t), rfl, ?_⟩
  · rw [hu, hp, hq]
    dsimp only [takenRecords]
    rw [List.length_take]
    congr 1
    rcases Nat.le_total n.toNat (s.queue ch).records.length with h | h
    · rw [Nat.min_eq_left h]
    · rw [Nat.min_eq_right h, List.drop_length, List.drop_eq_nil_of_le h]
  · rw [hv, hz]; rfl

/-! ## Transfers -/

theorem dataOut_of_idle_request {p : Port} (h : p.phase = .idle ∨ p.phase = .request) (k : Nat) : p.dataOut k = 0xFF := by
  unfold Port.dataOut
  rcases h with h | h <;> rw [h] <;> rfl

theorem dataOut_of_response {p : Port} {r : Response} (h : p.phase = .decide ∨ p.phase = .response)
    (hr : p.response = some r) (k : Nat) : p.dataOut k =
      if k < 2 then 0xFF else match (responseFrame r)[k - 2]? with | some b => b | none => 0xFF := by
  unfold Port.dataOut
  rcases h with h | h <;> rw [h, hr] <;> rfl

/-- Settles O21, by the phase of the port. -/
theorem selectRiseEndsTransfer : Obligations.SelectRiseEndsTransfer := by
  unfold Obligations.SelectRiseEndsTransfer
  refine ⟨?_, ?_, ?_⟩
  · intro ch s
    have e : exec (.selectRise ch) s = .next (selectRises ch s) := rfl
    rw [e]
    unfold selectRises
    split
    · rfl
    · unfold Port.selectRisen
      cases (s.port ch).phase <;> dsimp only <;> cases (s.port ch).resetOnEnd <;> rfl
  · intro ch s k h
    unfold State.dataOut
    split
    · rfl
    · next line => exact dataOut_of_idle_request (h.resolve_left line) k
  · intro ch s r line phase hr head frame
    have out (k : Nat) : s.dataOut ch k =
        if k < 2 then 0xFF else match frame[k - 2]? with | some b => b | none => 0xFF := by
      unfold State.dataOut
      rw [if_neg (by rw [line]; exact Bool.false_ne_true)]
      exact dataOut_of_response phase hr k
    refine ⟨out 0, out 1, fun i b hb => ?_, fun i hi => ?_⟩
    · rw [out, if_neg (by omega), Nat.add_sub_cancel, hb]
    · rw [out, if_neg (by omega), Nat.add_sub_cancel, List.getElem?_eq_none hi]

/-- Settles O22, check by check in the order of R150. -/
theorem invalidFramesAreAnswered : Obligations.InvalidFramesAreAnswered := by
  unfold Obligations.InvalidFramesAreAnswered
  intro ch len k tag rest s line bytes open' bad frame
  have hexec : exec (.invalidRequestFrame ch bytes) s = .next (rawFrame ch bytes s) := rfl
  have hraw : rawFrame ch bytes s = if bytes.length < len.toNat + 5 then open' .request bytes bad
      else decideRaw ch frame (open' .decide frame bad) := by
    unfold rawFrame
    rw [if_neg (by rw [line]; exact Bool.false_ne_true)]
    rfl
  rw [hexec, hraw]
  split
  · rfl
  · next complete =>
    have hframe : frame = len :: k :: tag :: rest.take (len.toNat + 2) := rfl
    have hdec : decideRaw ch frame (open' .decide frame bad) =
        if 200 < len.toNat ∨ half frame (len.toNat + 3) ≠ crc16 (frame.take (len.toNat + 3)) then
          badFrameReply ch tag (open' .decide frame bad)
        else match kindOfByte k with
          | none => respond ch .unknownKind tag [] (open' .decide frame bad)
          | some q => decideFrame ch q tag ((frame.take (len.toNat + 3)).drop 3) (open' .decide frame bad) := by
      unfold decideRaw
      have h0 : byteAt frame 0 = len.toNat := rfl
      have h1 : frame[1]? = some k := rfl
      have h2 : BitVec.ofNat 8 (byteAt frame 2) = tag := BitVec.ofNat_toNat ..
      rw [h0, h1, h2] <;> rfl
    rw [hdec]
    split
    · unfold badFrameReply
      simp only [open', State.setPort_port]
      cases ch <;> rfl
    · next checks =>
      cases hk : kindOfByte k with
      | none => rfl
      | some q =>
        intro hl
        have hn : ((frame.take (len.toNat + 3)).drop 3).length = len.toNat := by
          simp only [hframe, bytes, List.length_drop, List.length_take, List.length_cons] at complete ⊢
          omega
        dsimp only
        unfold decideFrame
        rw [hn, if_neg (fun h => checks (.inl h)), hl]
        rfl

end Sys2Proof.Machine

/-!
PROOFS. What the loss or the reset of a channel does to its views, to the table and to the queues, and what it hands to
the units. O15, O16.
-/

namespace Sys2Proof.Machine

/-! ## Views that become UNKNOWN -/

theorem SectionRec.withView_view (p4 p5 : Nat) (ch : Channel) (v : SecView) (x : SectionRec) :
    (x.withView p4 p5 ch v).view ch = v ∧ (x.withView p4 p5 ch v).view ch.other = x.view ch.other := by
  by_cases h : x.view ch = v
  · rw [SectionRec.withView_of_eq h]; exact ⟨h, rfl⟩
  · rw [SectionRec.withView_of_ne h, SectionRec.derive_eq]; cases ch <;> exact ⟨rfl, rfl⟩

theorem PointRec.withView_view (p6 : Nat) (ch : Channel) (v : PointView) (x : PointRec) :
    (x.withView p6 ch v).view ch = v ∧ (x.withView p6 ch v).view ch.other = x.view ch.other := by
  by_cases h : x.view ch = v
  · rw [PointRec.withView_of_eq h]; exact ⟨h, rfl⟩
  · rw [PointRec.withView_of_ne h]; cases ch <;> exact ⟨rfl, rfl⟩

theorem SignalRec.withView_view (p7 : Nat) (ch : Channel) (v : SignalView) (x : SignalRec) :
    (x.withView p7 ch v).view ch = v ∧ (x.withView p7 ch v).view ch.other = x.view ch.other := by
  unfold SignalRec.withView
  cases ch <;> dsimp only <;> split
  · next h => exact ⟨h, rfl⟩
  · exact ⟨rfl, rfl⟩
  · next h => exact ⟨h, rfl⟩
  · exact ⟨rfl, rfl⟩

/-- A unit's reactions leave every view as it was: any fact of the views of a list of sections. -/
theorem Reacts.map_sections {α : Type} {u t : State} (h : Reacts u t) {g : SectionRec → α} (hg : ∀ x, g x.core = g x) :
    t.sections.map g = u.sections.map g := by
  have e : t.sections.map SectionRec.core = u.sections.map SectionRec.core :=
    show t.base.sections = u.base.sections by rw [h.base]
  have e' := congrArg (List.map g) e
  rwa [List.map_map, List.map_map, funext hg (f := g ∘ SectionRec.core)] at e'

theorem Reacts.map_points {α : Type} {u t : State} (h : Reacts u t) {g : PointRec → α} (hg : ∀ x, g x.core = g x) :
    t.points.map g = u.points.map g := by
  have e : t.points.map PointRec.core = u.points.map PointRec.core :=
    show t.base.points = u.base.points by rw [h.base]
  have e' := congrArg (List.map g) e
  rwa [List.map_map, List.map_map, funext hg (f := g ∘ PointRec.core)] at e'

theorem Reacts.map_signals {α : Type} {u t : State} (h : Reacts u t) {g : SignalRec → α} (hg : ∀ x, g x.core = g x) :
    t.signals.map g = u.signals.map g := by
  have e : t.signals.map SignalRec.core = u.signals.map SignalRec.core :=
    show t.base.signals = u.base.signals by rw [h.base]
  have e' := congrArg (List.map g) e
  rwa [List.map_map, List.map_map, funext hg (f := g ∘ SignalRec.core)] at e'

/-- Every view of the channel is UNKNOWN, and the views of the other one are those of `s` (R3). -/
structure Blanked (ch : Channel) (s t : State) : Prop where
  (sections : t.sections.map (·.view ch) = s.sections.map (fun _ => SecView.unknown))
  points : t.points.map (·.view ch) = s.points.map (fun _ => PointView.unknown)
  signals : t.signals.map (·.view ch) = s.signals.map (fun _ => SignalView.unknown)
  otherSections : t.sections.map (·.view ch.other) = s.sections.map (·.view ch.other)
  otherPoints : t.points.map (·.view ch.other) = s.points.map (·.view ch.other)
  otherSignals : t.signals.map (·.view ch.other) = s.signals.map (·.view ch.other)

theorem blanked_viewsUnknown (ch : Channel) (s : State) : Blanked ch s (viewsUnknown ch s) := by
  constructor
  all_goals
    unfold viewsUnknown
    dsimp only
    rw [List.map_map]
    refine List.map_congr_left (fun x _ => ?_)
  · exact (SectionRec.withView_view _ _ ch _ x).1
  · exact (PointRec.withView_view _ ch _ x).1
  · exact (SignalRec.withView_view _ ch _ x).1
  · exact (SectionRec.withView_view _ _ ch _ x).2
  · exact (PointRec.withView_view _ ch _ x).2
  · exact (SignalRec.withView_view _ ch _ x).2

/-- Views stay while nothing but the rest of the state and the units' own records changes. -/
theorem Blanked.reacts {ch : Channel} {s u v w : State} (h : Blanked ch s u) (hs : v.sections = u.sections)
    (hp : v.points = u.points) (hg : v.signals = u.signals) (hr : Reacts v w) : Blanked ch s w := by
  constructor
  · rw [hr.map_sections (fun x => by cases ch <;> rfl), hs]; exact h.sections
  · rw [hr.map_points (fun x => by cases ch <;> rfl), hp]; exact h.points
  · rw [hr.map_signals (fun x => by cases ch <;> rfl), hg]; exact h.signals
  · rw [hr.map_sections (fun x => by cases ch <;> rfl), hs]; exact h.otherSections
  · rw [hr.map_points (fun x => by cases ch <;> rfl), hp]; exact h.otherPoints
  · rw [hr.map_signals (fun x => by cases ch <;> rfl), hg]; exact h.otherSignals

theorem forall_of_map_const {α β γ : Type} {f : α → β} {c : β} {l : List α} {m : List γ}
    (h : l.map f = m.map (fun _ => c)) : ∀ x ∈ l, f x = c := by
  intro x hx
  have hm : f x ∈ m.map (fun _ => c) := h ▸ List.mem_map_of_mem hx
  obtain ⟨_, -, e⟩ := List.mem_map.1 hm
  exact e.symm

theorem Blanked.unknown {ch : Channel} {s t : State} (h : Blanked ch s t) :
    (∀ x ∈ t.sections, x.view ch = .unknown) ∧ (∀ x ∈ t.points, x.view ch = .unknown)
      ∧ ∀ x ∈ t.signals, x.view ch = .unknown :=
  ⟨forall_of_map_const h.sections, forall_of_map_const h.points, forall_of_map_const h.signals⟩

/-! ## What follows a change of a point's views -/

section PointViews
variable {u : State} {x y : PointRec}

theorem pointViewChanged_same (hy : u.point? x.id = some y) (h : y.viewA = x.viewA ∧ y.viewB = x.viewB) :
    pointViewChanged x u = u := by
  unfold pointViewChanged; rw [hy]; exact if_pos h

/-- A move that has not ended goes on (R10). -/
theorem pointViewChanged_moving (hy : u.point? x.id = some y) {m : Move} (hm : y.move = some m)
    (h : y.bothAt m.target = false) : pointViewChanged x u = u := by
  by_cases hv : y.viewA = x.viewA ∧ y.viewB = x.viewB
  · exact pointViewChanged_same hy hv
  unfold pointViewChanged; rw [hy]
  dsimp only
  rw [if_neg hv, hm]
  dsimp only
  rw [h, if_neg Bool.false_ne_true]

/-- A move that both views report at its target is done (R10). -/
theorem pointViewChanged_arrived (hy : u.point? x.id = some y) (hv : ¬ (y.viewA = x.viewA ∧ y.viewB = x.viewB)) {m : Move}
    (hm : y.move = some m) (h : y.bothAt m.target = true) : pointViewChanged x u = completeMove y m u := by
  unfold pointViewChanged; rw [hy]
  dsimp only
  rw [if_neg hv, hm]
  exact if_pos h

theorem pointViewChanged_kept (hy : u.point? x.id = some y) (hm : y.move = none) (h : y.status = x.status) :
    pointViewChanged x u = u := by
  by_cases hv : y.viewA = x.viewA ∧ y.viewB = x.viewB
  · exact pointViewChanged_same hy hv
  unfold pointViewChanged; rw [hy]
  dsimp only
  rw [if_neg hv, hm]
  exact if_pos h

/-- A changed agreed status is handed on, after DETECTION_LOST where a position is lost (R7, R15). -/
theorem pointViewChanged_changed (hy : u.point? x.id = some y) (hv : ¬ (y.viewA = x.viewA ∧ y.viewB = x.viewB))
    (hm : y.move = none) (h : y.status ≠ x.status) :
    pointViewChanged x u = handPoint x.id (match x.status.pos? with
      | some p => if y.status = .undetected then emit (.detectionLost x.id p) u else u
      | none => u) := by
  have hid : y.id = x.id := point?_id hy
  unfold pointViewChanged; rw [hy]
  dsimp only
  rw [if_neg hv, hm]
  dsimp only
  rw [if_neg h]
  rw [← hid]
  cases x.status.pos? with
  | none => cases y.status <;> rfl
  | some p => cases y.status <;> rfl

/-- Short of the end of a move, a change of a point's views is no more than a change handed to the units. -/
theorem reacts_pointViewChanged {s : State} (x : PointRec)
    (h : ∀ y m, u.point? x.id = some y → y.move = some m → y.bothAt m.target = false) (hs : Reacts s u) :
    Reacts s (pointViewChanged x u) := by
  cases hy : u.point? x.id with
  | none => unfold pointViewChanged; rw [hy]; exact hs
  | some y =>
    cases hm : y.move with
    | some m => rw [pointViewChanged_moving hy hm (h y m hy hm)]; exact hs
    | none =>
      by_cases hv : y.viewA = x.viewA ∧ y.viewB = x.viewB
      · rw [pointViewChanged_same hy hv]; exact hs
      by_cases hst : y.status = x.status
      · rw [pointViewChanged_kept hy hm hst]; exact hs
      rw [pointViewChanged_changed hy hv hm hst]
      refine (reacts_closed s).handPoint _ ?_
      split
      · split
        · exact (reacts_closed s).emit _ _ hs
        · exact hs
      · exact hs

end PointViews

theorem bothAt_of_unknown {x : PointRec} (h : x.viewA = .unknown ∨ x.viewB = .unknown) (p : Pos) : x.bothAt p = false := by
  unfold PointRec.bothAt
  rcases h with h | h <;> rw [h] <;> cases p <;> simp [viewOfPos]

/-! ## What a lost or reset channel hands on -/

/-- The reactions of the units to a lost or reset channel (R38, R98). -/
theorem reacts_handLost (ch : Channel) (s : State) {u : State} (blank : ∀ x ∈ u.points, x.view ch = .unknown) :
    Reacts u (inAnyOrder (s.lossWork ch) u) := by
  have hc := reacts_closed u
  refine hc.inAnyOrder ?_ (Reacts.refl u)
  intro f hf
  simp only [State.lossWork, channelWork, List.mem_append, List.mem_cons, List.not_mem_nil, or_false, List.mem_map] at hf
  rcases hf with (rfl | rfl) | (⟨x, -, rfl⟩ | ⟨x, -, rfl⟩) | ⟨x, -, rfl⟩
  · exact fun _ => hc.permOn _
  · exact fun _ => hc.retestAll
  · exact fun _ => hc.sectionChanged _
  · intro t ht
    refine reacts_pointViewChanged x (fun y m hy _ => bothAt_of_unknown ?_ _) ht
    have hview : y.view ch = .unknown := by
      have e := ht.map_points (g := fun x => x.view ch) (fun x => by cases ch <;> rfl)
      rw [List.map_congr_left (g := fun _ => PointView.unknown) blank] at e
      exact forall_of_map_const e y (List.mem_of_find?_eq_some hy)
    cases ch
    · exact .inl hview
    · exact .inr hview
  · exact fun _ => hc.signalChanged _

/-! ## Events of a loss -/

/-- A reading of the state that no offer of an event changes. -/
theorem emitAll_keep {α : Type} (p : State → α) (h : ∀ e s, p (emit e s) = p s) (es : List Event) (s : State) :
    p (emitAll es s) = p s :=
  foldl_ind (P := fun t => p t = p s) (fun t e ht => (h e t).trans ht) es rfl

theorem emit_chan (e : Event) (s : State) (ch : Channel) : (emit e s).chan ch = s.chan ch := by cases ch <;> rfl

theorem emitAll_chan (es : List Event) (s : State) (ch : Channel) : (emitAll es s).chan ch = s.chan ch :=
  emitAll_keep (State.chan · ch) (fun e s => emit_chan e s ch) es s

theorem viewsUnknown_chan (c ch : Channel) (s : State) : (viewsUnknown c s).chan ch = s.chan ch := by cases ch <;> rfl

theorem withdrawTable_chan (s : State) (ch : Channel) : (withdrawTable s).chan ch = s.chan ch := by
  rw [← emitAll_chan (s.table.map withdrawnEvent) s ch]
  cases ch <;> rfl

/-- The state that a loss leaves before the change is handed on. -/
theorem enterLost_eq (ch : Channel) (cause : ChCause) (s : State) : enterLost ch cause s =
    inAnyOrder (s.lossWork ch) (emit (.channelState ch .lost cause)
        ({ emitAll (s.table.map (fun h : HalfRequest => Event.requestDone h.tag h.kind .withdrawn 0)) (viewsUnknown ch s) with
          table := [] }.setChan ch
          { s.chan ch with state := .lost, cause := some cause, supervision := ⟨.stopped, 0⟩, pauseLimit := ⟨.stopped, 0⟩ })) := by
  unfold enterLost
  rw [handLost_work]
  unfold setChannel
  rw [withdrawTable_chan, viewsUnknown_chan]
  rfl

/-- A loss brings a channel to LOST with its views UNKNOWN, and hands the changes on (R37, R38). -/
theorem enterLost_spec (ch : Channel) (cause : ChCause) (s : State) :
    let lost := emit (.channelState ch .lost cause)
        ({ emitAll (s.table.map (fun h : HalfRequest => Event.requestDone h.tag h.kind .withdrawn 0)) (viewsUnknown ch s) with
          table := [] }.setChan ch
          { s.chan ch with state := .lost, cause := some cause, supervision := ⟨.stopped, 0⟩, pauseLimit := ⟨.stopped, 0⟩ })
    Reacts lost (enterLost ch cause s) ∧ Blanked ch s (enterLost ch cause s)
      ∧ InSomeOrder (s.lossWork ch) lost (enterLost ch cause s) := by
  intro lost
  have hs : lost.sections = (viewsUnknown ch s).sections := by
    show (State.setChan _ ch _).sections = _
    rw [State.setChan_sections]
    exact emitAll_keep State.sections (fun _ _ => rfl) _ _
  have hp : lost.points = (viewsUnknown ch s).points := by
    show (State.setChan _ ch _).points = _
    rw [State.setChan_points]
    exact emitAll_keep State.points (fun _ _ => rfl) _ _
  have hg : lost.signals = (viewsUnknown ch s).signals := by
    show (State.setChan _ ch _).signals = _
    rw [State.setChan_signals]
    exact emitAll_keep State.signals (fun _ _ => rfl) _ _
  have hb : Blanked ch s lost := (blanked_viewsUnknown ch s).reacts hs hp hg (Reacts.refl lost)
  have hr := reacts_handLost ch s hb.unknown.2.1
  rw [enterLost_eq]
  exact ⟨hr, hb.reacts rfl rfl rfl hr, inAnyOrder_inSomeOrder _ _⟩

/-- Settles O15: the two expiries by the state of the channel, then what one changed element hands on. -/
theorem silentChannelIsLost : Obligations.SilentChannelIsLost := by
  unfold Obligations.SilentChannelIsLost
  refine ⟨?_, ?_, ?_, ?_⟩
  · intro ch s lost unknown
    have all (cause : ChCause) : Reacts (lost cause) (enterLost ch cause s) ∧ unknown (enterLost ch cause s)
        ∧ InSomeOrder (s.lossWork ch) (lost cause) (enterLost ch cause s) := by
      obtain ⟨hr, hb, ho⟩ := enterLost_spec ch cause s
      obtain ⟨h1, h2, h3⟩ := hb.unknown
      exact ⟨hr, ⟨h1, h2, h3, hb.otherSections, hb.otherPoints, hb.otherSignals⟩, ho⟩
    constructor
    · have e : exec (.supervisionTimerExpiry ch) s = .next (channelSupervisionExpired ch s) := rfl
      rw [e]; unfold channelSupervisionExpired
      split
      · exact ⟨_, rfl, all .supervision⟩
      · rfl
    · have e : exec (.pauseLimitExpiry ch) s = .next (pauseLimitExpired ch s) := rfl
      rw [e]; unfold pauseLimitExpired
      split
      · exact ⟨_, rfl, all .pauseLimit⟩
      · rfl
  · intro u x y hy
    refine ⟨fun h1 h2 h3 => sectionChanged_same hy h1 h2 h3, fun h => ?_⟩
    rw [sectionChanged_status hy h]
    exact handSection_inSomeOrder _ _ _
  · intro u x y hy same
    refine ⟨pointViewChanged_same hy, fun hm h => ?_, fun hm h => pointViewChanged_kept hy hm h, fun hv hm h => ?_⟩
    · obtain ⟨m, hm⟩ := Option.ne_none_iff_exists'.1 hm
      exact pointViewChanged_moving hy hm (bothAt_of_unknown h _)
    · rw [pointViewChanged_changed hy hv hm h]
      exact handPoint_inSomeOrder _ _
  · intro u x y hy
    unfold signalChanged
    rw [hy]
    refine ⟨fun h1 h2 h3 => if_neg (by simp [h1, h2, h3]), fun h => ?_⟩
    dsimp only
    rw [if_pos (.inl h)]
    exact handSignal_inSomeOrder _ _

/-! ## The reset of a channel -/

theorem emitTo_chan (c : Channel) (e : Event) (s : State) (ch : Channel) : (emitTo c e s).chan ch = s.chan ch :=
  State.setQueue_chan _ _ _ _

theorem emitTo_queue_other (c : Channel) (e : Event) (s : State) : (emitTo c.other e s).queue c = s.queue c := by
  cases c <;> rfl

theorem emitTo_queue (c : Channel) (e : Event) (s : State) :
    (emitTo c e s).queue c = (s.queue c).offer c s.dev.time e := State.setQueue_queue _ _ _

theorem foldl_emitTo_keep {α : Type} (p : State → α) (c : Channel) (h : ∀ e s, p (emitTo c e s) = p s)
    (es : List Event) (s : State) : p (es.foldl (fun u e => emitTo c e u) s) = p s :=
  foldl_ind (P := fun t => p t = p s) (fun t e ht => (h e t).trans ht) es rfl

/-- What CRST clears of a channel, before its table and its event (R39). -/
def State.cleared (s : State) (ch : Channel) : State :=
  (((viewsUnknown ch s).setChan ch
    { state := .absent, cause := some .channelReset, supervision := ⟨.stopped, 0⟩, pauseLimit := ⟨.stopped, 0⟩
      crst := true, resetMark := none }).setPort ch Port.initial).setQueue ch ⟨[], 0⟩

theorem State.cleared_chan (s : State) (ch : Channel) : (s.cleared ch).chan ch =
    { state := .absent, cause := some .channelReset, supervision := ⟨.stopped, 0⟩, pauseLimit := ⟨.stopped, 0⟩
      crst := true, resetMark := none } := by cases ch <;> rfl

theorem State.cleared_chan_other (s : State) (ch : Channel) : (s.cleared ch).chan ch.other = s.chan ch.other := by
  cases ch <;> rfl

theorem State.cleared_queue (s : State) (ch : Channel) : (s.cleared ch).queue ch = ⟨[], 0⟩ := by cases ch <;> rfl

theorem State.cleared_queue_other (s : State) (ch : Channel) : (s.cleared ch).queue ch.other = s.queue ch.other := by
  cases ch <;> rfl

theorem State.cleared_table (s : State) (ch : Channel) : (s.cleared ch).table = s.table := by cases ch <;> rfl

theorem State.cleared_dev (s : State) (ch : Channel) : (s.cleared ch).dev = s.dev := by cases ch <;> rfl

/-- What a reset leaves before the changes are handed on: the events stand in the other queue alone (R39, R161). -/
theorem resetChannel_eq (ch : Channel) (s : State) : resetChannel ch s =
    emitTo ch.other (.channelState ch .absent .channelReset)
      { (s.table.map (fun h : HalfRequest => Event.requestDone h.tag h.kind .withdrawn 0)).foldl (fun u e => emitTo ch.other e u)
          (s.cleared ch) with table := [] } := by
  unfold resetChannel withdrawTableTo
  rw [List.foldl_map, ← State.cleared_table s ch]
  rfl

/-- The same with the table as it is. -/
theorem resetChannel_keep {α : Type} (p : State → α) (ch : Channel) (s : State)
    (h : ∀ e s, p (emitTo ch.other e s) = p s) (ht : ∀ s : State, p { s with table := [] } = p s) :
    p (resetChannel ch s) = p (s.cleared ch) := by
  rw [resetChannel_eq, h, ht]
  exact foldl_emitTo_keep p ch.other h _ _

theorem resetChannel_queue (ch : Channel) (s : State) : (resetChannel ch s).queue ch = ⟨[], 0⟩ := by
  rw [resetChannel_keep (State.queue · ch) ch s (fun e s => emitTo_queue_other ch e s) (fun s => by cases ch <;> rfl),
    State.cleared_queue]

/-- With no half waiting, a reset queues its CHANNEL_STATE alone. -/
theorem resetChannel_queue_other {ch : Channel} {s : State} (h : s.table = []) : (resetChannel ch s).queue ch.other =
    (s.queue ch.other).offer ch.other s.dev.time (.channelState ch .absent .channelReset) := by
  rw [resetChannel_eq, emitTo_queue, h]
  have hq := State.cleared_queue_other s ch
  have hd := State.cleared_dev s ch
  cases ch
  · show (State.queueB _).offer _ (State.dev _).time _ = _
    exact congrArg₂ (fun q (d : Device) => EventQueue.offer q .B d.time _) hq hd
  · exact congrArg₂ (fun q (d : Device) => EventQueue.offer q .A d.time _) hq hd

theorem resetChannel_chan (ch c : Channel) (s : State) : (resetChannel ch s).chan c = (s.cleared ch).chan c :=
  resetChannel_keep (State.chan · c) ch s (fun e s => emitTo_chan _ e s c) (fun s => by cases c <;> rfl)

theorem resetChannel_table (ch : Channel) (s : State) : (resetChannel ch s).table = [] := by
  rw [resetChannel_eq]; cases ch <;> rfl

theorem blanked_resetChannel (ch : Channel) (s : State) : Blanked ch s (resetChannel ch s) := by
  refine (blanked_viewsUnknown ch s).reacts ?_ ?_ ?_ (Reacts.refl _)
  · rw [resetChannel_keep State.sections ch s (fun e s => by cases ch <;> rfl) (fun _ => rfl)]; cases ch <;> rfl
  · rw [resetChannel_keep State.points ch s (fun e s => by cases ch <;> rfl) (fun _ => rfl)]; cases ch <;> rfl
  · rw [resetChannel_keep State.signals ch s (fun e s => by cases ch <;> rfl) (fun _ => rfl)]; cases ch <;> rfl

theorem foldl_emitTo_free (ch : Channel) (c : List Nat) (d : Nat) (es : List Event) (s : State) :
    es.foldl (fun u e => emitTo ch e u) { s with choices := c, drawn := d } =
      { es.foldl (fun u e => emitTo ch e u) s with choices := c, drawn := d } := by
  induction es generalizing s with
  | nil => rfl
  | cons e es ih =>
    have he : emitTo ch e { s with choices := c, drawn := d } = { emitTo ch e s with choices := c, drawn := d } := by
      cases ch <;> rfl
    rw [List.foldl_cons, he, ih, List.foldl_cons]

/-- A reset reads no free value. -/
theorem resetChannel_free (ch : Channel) (c : List Nat) (d : Nat) (s : State) :
    resetChannel ch { s with choices := c, drawn := d } = { resetChannel ch s with choices := c, drawn := d } := by
  have hc : State.cleared { s with choices := c, drawn := d } ch = { s.cleared ch with choices := c, drawn := d } := by
    cases ch <;> rfl
  rw [resetChannel_eq, resetChannel_eq, hc, foldl_emitTo_free]
  cases ch <;> rfl

/-- Free values drawn before the first of some changes are drawn with it. -/
theorem InSomeOrder.free {fs : List (State → State)} {u t : State} {c : List Nat} {d : Nat}
    (h : InSomeOrder fs { u with choices := c, drawn := d } t) (hf : fs ≠ []) : InSomeOrder fs u t := by
  generalize hv : ({ u with choices := c, drawn := d } : State) = v at h
  cases h with
  | done => exact absurd rfl hf
  | next before f after _ c' d' _ h =>
    subst hv
    exact .next before f after u c' d' t h

theorem Reacts.free {u t : State} {c : List Nat} {d : Nat} (h : Reacts { u with choices := c, drawn := d } t) :
    Reacts u t :=
  ⟨h.base, h.sections, h.points, h.signals, h.routes, h.slots, fun ch => by cases ch <;> [exact h.events .A; exact h.events .B]⟩

/-- A reset that may be together with that of the other channel, and which free value puts them together (R39; log 42). -/
theorem channelReset_spec (ch : Channel) (s : State) :
    let u := if (s.chan ch.other).resetMark = some ⟨s.dev.time, s.queue ch.other⟩ ∧ (s.pick 2).1 = 1 then
      (resetChannel ch s).setQueue ch.other ⟨[], 0⟩ else resetChannel ch s
    ∃ t, channelReset ch s = t.setChan ch { t.chan ch with resetMark := some ⟨t.dev.time, t.queue ch⟩ }
      ∧ Reacts u t ∧ InSomeOrder (s.lossWork ch) u t ∧ Blanked ch s t := by
  intro u
  obtain ⟨c, d, hfree⟩ : ∃ c d, (if (chooseTogether ch s).1 then
      (resetChannel ch (chooseTogether ch s).2).setQueue ch.other .empty else resetChannel ch (chooseTogether ch s).2)
        = { u with choices := c, drawn := d } := by
    unfold chooseTogether resetsMeet
    by_cases hm : (s.chan ch.other).resetMark = some ⟨s.dev.time, s.queue ch.other⟩
    · refine ⟨(s.pick 2).2.choices, (s.pick 2).2.drawn, ?_⟩
      rw [if_pos (beq_iff_eq.2 hm), pick_eq, resetChannel_free]
      dsimp only [u]
      by_cases h1 : (s.pick 2).1 = 1
      · rw [if_pos (beq_iff_eq.2 h1), if_pos ⟨hm, h1⟩]; cases ch <;> rfl
      · rw [if_neg (mt beq_iff_eq.1 h1), if_neg (fun h => h1 h.2)]
    · refine ⟨u.choices, u.drawn, ?_⟩
      rw [if_neg (mt beq_iff_eq.1 hm), if_neg Bool.false_ne_true]
      dsimp only [u]
      rw [if_neg (fun h => hm h.1)]
  have hblank : Blanked ch s u := by
    refine (blanked_resetChannel ch s).reacts ?_ ?_ ?_ (Reacts.refl u)
    all_goals
      dsimp only [u]
      split
    · exact State.setQueue_sections _ _ _
    · rfl
    · exact State.setQueue_points _ _ _
    · rfl
    · exact State.setQueue_signals _ _ _
    · rfl
  refine ⟨inAnyOrder (s.lossWork ch) { u with choices := c, drawn := d }, ?_, ?_⟩
  · unfold channelReset
    rw [handLost_work]
    dsimp only
    rw [hfree]
  · have hr := (reacts_handLost ch s (u := { u with choices := c, drawn := d }) hblank.unknown.2.1).free
    exact ⟨hr, (inAnyOrder_inSomeOrder _ _).free (by simp [State.lossWork, channelWork]),
      hblank.reacts rfl rfl rfl hr⟩

theorem Reacts.table {u t : State} (h : Reacts u t) : t.table = u.table :=
  show t.base.table = u.base.table by rw [h.base]

/-- The chain of two resets with nothing between them (R39, R161; log 42). -/
theorem second_reset (ch : Channel) {s t : State} (ht : t.table = []) (habs : (t.chan ch.other).state = .absent)
    (hs : s = { t.setChan ch.other { t.chan ch.other with resetMark := some ⟨t.dev.time, t.queue ch.other⟩ } with
      choices := s.choices, drawn := s.drawn }) {k : Nat} {c : List Nat} (hk : s.choices = k :: c) :
    ∃ v w, channelReset ch s = w ∧ Reacts v (w.setChan ch { w.chan ch with resetMark := none })
      ∧ v.queue ch = ⟨[], 0⟩
      ∧ v.queue ch.other = (if k % 2 = 1 then ⟨[], 0⟩
          else (t.queue ch.other).offer ch.other t.dev.time (.channelState ch .absent .channelReset))
      ∧ w.table = [] ∧ ∀ c, (w.chan c).state = .absent := by
  obtain ⟨u, hu⟩ : ∃ u, u = if (s.chan ch.other).resetMark = some ⟨s.dev.time, s.queue ch.other⟩ ∧ (s.pick 2).1 = 1 then
      (resetChannel ch s).setQueue ch.other ⟨[], 0⟩ else resetChannel ch s := ⟨_, rfl⟩
  obtain ⟨w, hw, hr, -, -⟩ := channelReset_spec ch s
  rw [← hu] at hr
  have hmeet : (s.chan ch.other).resetMark = some ⟨s.dev.time, s.queue ch.other⟩ := by rw [hs]; cases ch <;> rfl
  have htable : s.table = [] := by rw [hs]; cases ch <;> exact ht
  have hpick : (s.pick 2).1 = k % 2 := by unfold State.pick; rw [hk]
  have hoffer : (s.queue ch.other).offer ch.other s.dev.time (.channelState ch .absent .channelReset) =
      (t.queue ch.other).offer ch.other t.dev.time (.channelState ch .absent .channelReset) := by
    rw [hs]; cases ch <;> rfl
  have hother : (s.chan ch.other).state = .absent := by rw [hs]; cases ch <;> exact habs
  have hmark : (w.chan ch) = (s.cleared ch).chan ch := by
    rw [hr.chan, hu]
    split
    · rw [State.setQueue_chan, resetChannel_chan]
    · rw [resetChannel_chan]
  have hrest : (w.chan ch.other).state = .absent := by
    rw [hr.chan, hu]
    split
    · rw [State.setQueue_chan, resetChannel_chan, State.cleared_chan_other, hother]
    · rw [resetChannel_chan, State.cleared_chan_other, hother]
  refine ⟨u, _, hw, ?_, ?_, ?_, ?_, ?_⟩
  · rw [State.setChan_setChan, State.setChan_chan]
    have e : w.setChan ch { w.chan ch with resetMark := none } = w := by
      rw [show ({ w.chan ch with resetMark := none } : ChannelRec) = w.chan ch by rw [hmark, State.cleared_chan],
        State.setChan_self]
    show Reacts u (w.setChan ch { w.chan ch with resetMark := none })
    rw [e]
    exact hr
  · rw [hu]
    split
    · exact (by cases ch <;> rfl : (State.setQueue (resetChannel ch s) ch.other ⟨[], 0⟩).queue ch = (resetChannel ch s).queue ch).trans
        (resetChannel_queue ch s)
    · exact resetChannel_queue ch s
  · rw [hu, hpick]
    by_cases h1 : k % 2 = 1
    · rw [if_pos h1, if_pos ⟨hmeet, h1⟩, State.setQueue_queue]
    · rw [if_neg h1, if_neg (fun h => h1 h.2), resetChannel_queue_other htable, hoffer]
  · rw [State.setChan_table, hr.table, hu]
    split
    · rw [State.setQueue_table, resetChannel_table]
    · exact resetChannel_table ch s
  · intro x
    rcases (by cases ch <;> cases x <;> simp [Channel.other] : x = ch ∨ x = ch.other) with rfl | rfl
    · rw [State.setChan_chan, hmark, State.cleared_chan]
    · rw [State.setChan_chan_other, hrest]

/-- Settles O16: one reset, then the other with nothing between, by `channelReset_spec` twice. -/
theorem channelResetLine : Obligations.ChannelResetLine := by
  unfold Obligations.ChannelResetLine
  intro ch s one meet u
  refine ⟨?_, rfl⟩
  obtain ⟨t, ht, hr, ho, hb⟩ := channelReset_spec ch s
  rw [resetChannel_eq] at hr ho
  obtain ⟨h1, h2, h3⟩ := hb.unknown
  refine ⟨t, congrArg Host.Outcome.next ht, hr, ho, h1, h2, h3, fun k c => ?_⟩
  have htable : t.table = [] := by
    rw [hr.table]
    split <;> cases ch <;> rfl
  have habs : (t.chan ch).state = .absent := by
    rw [hr.chan]
    split
    · rw [State.setQueue_chan, ← resetChannel_eq, resetChannel_chan, State.cleared_chan]
    · rw [← resetChannel_eq, resetChannel_chan, State.cleared_chan]
  obtain ⟨v, w, hw, rest⟩ := second_reset ch.other
    (s := { t.setChan ch { t.chan ch with resetMark := some ⟨t.dev.time, t.queue ch⟩ } with choices := k :: c })
    htable (by rw [Channel.other_other]; exact habs) (by rw [Channel.other_other]) rfl
  rw [Channel.other_other] at rest
  exact ⟨v, w, congrArg Host.Outcome.next hw, rest⟩

end Sys2Proof.Machine

/-!
PROOFS. Field reports: one reported state of an element, and a report of any length as the composition of its items.
O5, O6, O7.
-/

namespace Sys2Proof.Machine

/-! ## The last report of an element -/

theorem lastReport_append {α : Type} (f : Byte → Option α) (is js : List ReportItem) (id : Nat) (before : α) :
    lastReport f (is ++ js) id before = lastReport f js id (lastReport f is id before) := by
  unfold lastReport
  rw [List.filterMap_append, List.getLast?_append]
  cases (js.filterMap _).getLast? <;> rfl

theorem lastReport_other {α : Type} (f : Byte → Option α) {i : ReportItem} {id : Nat} (h : i.element.toNat ≠ id)
    (before : α) : lastReport f [i] id before = before := by
  simp [lastReport, h]

theorem lastReport_valid {α : Type} {f : Byte → Option α} {i : ReportItem} {v : α} (h : f i.state = some v) (before : α) :
    lastReport f [i] i.element.toNat before = v := by
  simp [lastReport, h]

theorem lastReport_invalid {α : Type} {f : Byte → Option α} {i : ReportItem} (h : f i.state = none) (id : Nat)
    (before : α) : lastReport f [i] id before = before := by
  unfold lastReport
  simp [h]

/-! ## What a report leaves of an element -/

/-- The channel's view has become `v`; the other view, FAULTED, block and mask stay. -/
def SectionRec.Reported (ch : Channel) (v : SecView) (x y : SectionRec) : Prop :=
  y.view ch = v ∧ y.view ch.other = x.view ch.other ∧ y.faulted = x.faulted ∧ y.block = x.block ∧ y.mask = x.mask

def PointRec.Reported (ch : Channel) (v : PointView) (x y : PointRec) : Prop :=
  y.view ch = v ∧ y.view ch.other = x.view ch.other ∧ y.faulted = x.faulted ∧ y.block = x.block ∧ y.mask = x.mask

def SignalRec.Reported (ch : Channel) (v : SignalView) (x y : SignalRec) : Prop :=
  y.view ch = v ∧ y.view ch.other = x.view ch.other ∧ y.faulted = x.faulted ∧ y.block = x.block ∧ y.mask = x.mask

/-- The state after some items of a report, as O5 states it: each element by the kind that its id is looked up as. -/
structure Reports (ch : Channel) (items : List ReportItem) (t w : State) : Prop where
  rest : w.rest = t.rest
  layout : w.layout = t.layout
  atSection : ∀ id, Option.Rel (fun x y => x.Reported ch (lastReport secViewOf items id (x.view ch)) y)
    (t.section? id) (w.section? id)
  atPoint : ∀ id, t.section? id = none → Option.Rel (fun x y =>
    x.Reported ch (lastReport pointViewOf items id (x.view ch)) y) (t.point? id) (w.point? id)
  atSignal : ∀ id, t.section? id = none → t.point? id = none → Option.Rel (fun x y =>
    x.Reported ch (lastReport signalViewOf items id (x.view ch)) y) (t.signal? id) (w.signal? id)

theorem optionRel_trans {α : Type} {R S T : α → α → Prop} {a b c : Option α} (hab : Option.Rel R a b)
    (hbc : Option.Rel S b c) (h : ∀ x y z, R x y → S y z → T x z) : Option.Rel T a c := by
  cases hab with
  | none => cases hbc; exact .none
  | some hr => cases hbc with | some hs => exact .some (h _ _ _ hr hs)

theorem optionRel_refl {α : Type} {R : α → α → Prop} (o : Option α) (h : ∀ x, o = some x → R x x) : Option.Rel R o o := by
  cases o with
  | none => exact .none
  | some x => exact .some (h x rfl)

theorem optionRel_none {α : Type} {R : α → α → Prop} {a b : Option α} (h : Option.Rel R a b) : b = none ↔ a = none := by
  cases h <;> simp

theorem optionRel_some {α : Type} {R : α → α → Prop} {a b : Option α} {x : α} (h : Option.Rel R a b) (ha : a = some x) :
    ∃ y, b = some y ∧ R x y := by
  subst ha
  generalize hb : b = o at h
  cases h with | some h => exact ⟨_, rfl, h⟩

theorem Reports.trans {ch : Channel} {is js : List ReportItem} {u v w : State} (h : Reports ch is u v)
    (h' : Reports ch js v w) : Reports ch (is ++ js) u w where
  rest := h'.rest.trans h.rest
  layout := h'.layout.trans h.layout
  atSection id := optionRel_trans (h.atSection id) (h'.atSection id) (fun x y z ⟨a1, a2, a3, a4, a5⟩ ⟨b1, b2, b3, b4, b5⟩ =>
    ⟨by rw [b1, a1, lastReport_append], b2.trans a2, b3.trans a3, b4.trans a4, b5.trans a5⟩)
  atPoint id hs := optionRel_trans (h.atPoint id hs) (h'.atPoint id ((optionRel_none (h.atSection id)).2 hs))
    (fun x y z ⟨a1, a2, a3, a4, a5⟩ ⟨b1, b2, b3, b4, b5⟩ =>
    ⟨by rw [b1, a1, lastReport_append], b2.trans a2, b3.trans a3, b4.trans a4, b5.trans a5⟩)
  atSignal id hs hp := optionRel_trans (h.atSignal id hs hp)
    (h'.atSignal id ((optionRel_none (h.atSection id)).2 hs) ((optionRel_none (h.atPoint id hs)).2 hp))
    (fun x y z ⟨a1, a2, a3, a4, a5⟩ ⟨b1, b2, b3, b4, b5⟩ =>
    ⟨by rw [b1, a1, lastReport_append], b2.trans a2, b3.trans a3, b4.trans a4, b5.trans a5⟩)

/-- A skipped item changes nothing. -/
theorem Reports.skipped {ch : Channel} {i : ReportItem} {t : State} (h : itemValid t i.element.toNat i.state = false) :
    Reports ch [i] t t := by
  unfold itemValid at h
  refine ⟨rfl, rfl, fun id => optionRel_refl _ fun x hx => ⟨?_, rfl, rfl, rfl, rfl⟩,
    fun id hs => optionRel_refl _ fun x hx => ⟨?_, rfl, rfl, rfl, rfl⟩,
    fun id hs hp => optionRel_refl _ fun x hx => ⟨?_, rfl, rfl, rfl, rfl⟩⟩
  all_goals
    by_cases e : i.element.toNat = id
    · rw [e] at h
      simp only [*] at h
      rw [lastReport_invalid (by simpa using h)]
    · rw [lastReport_other _ e]

/-! ## The units keep what a report has set -/

theorem optionRel_of_map {α β : Type} {g : α → β} {a b : Option α} (h : b.map g = a.map g) :
    Option.Rel (fun x y => g y = g x) a b := by
  cases a <;> cases b <;> simp at h
  · exact .none
  · exact .some h

theorem Reacts.section?_rel {u w : State} (h : Reacts u w) (id : Nat) :
    Option.Rel (fun x y => y.core = x.core) (u.section? id) (w.section? id) := by
  have e : w.sections.map SectionRec.core = u.sections.map SectionRec.core :=
    show w.base.sections = u.base.sections by rw [h.base]
  have := congrArg (List.find? (fun x : SectionRec => x.id == id)) e
  rw [List.find?_map, List.find?_map] at this
  exact optionRel_of_map this

theorem Reacts.point?_rel {u w : State} (h : Reacts u w) (id : Nat) :
    Option.Rel (fun x y => y.core = x.core) (u.point? id) (w.point? id) := by
  have e : w.points.map PointRec.core = u.points.map PointRec.core :=
    show w.base.points = u.base.points by rw [h.base]
  have := congrArg (List.find? (fun x : PointRec => x.id == id)) e
  rw [List.find?_map, List.find?_map] at this
  exact optionRel_of_map this

theorem Reacts.signal?_rel {u w : State} (h : Reacts u w) (id : Nat) :
    Option.Rel (fun x y => y.core = x.core) (u.signal? id) (w.signal? id) := by
  have e : w.signals.map SignalRec.core = u.signals.map SignalRec.core :=
    show w.base.signals = u.base.signals by rw [h.base]
  have := congrArg (List.find? (fun x : SignalRec => x.id == id)) e
  rw [List.find?_map, List.find?_map] at this
  exact optionRel_of_map this

theorem Reacts.rest {u w : State} (h : Reacts u w) : w.rest = u.rest := by
  unfold State.rest; rw [h.base]

theorem optionRel_imp {α : Type} {R S : α → α → Prop} {a b : Option α} (h : Option.Rel R a b) (hi : ∀ x y, R x y → S x y) :
    Option.Rel S a b := by
  cases h with
  | none => exact .none
  | some h => exact .some (hi _ _ h)

theorem Reacts.layout {u w : State} (h : Reacts u w) : w.layout = u.layout := by
  have hslots : w.slots.map (fun x => (x.ref, x.bsec, x.cap, x.initHere, x.relTime)) =
      u.slots.map (fun x => (x.ref, x.bsec, x.cap, x.initHere, x.relTime)) := by
    have := congrArg (List.map (fun x : Slot => (x.ref, x.bsec, x.cap, x.initHere, x.relTime))) h.slots
    rwa [List.map_map, List.map_map] at this
  have hstore : w.store = u.store := show w.base.store = u.base.store by rw [h.base]
  have hlinks : w.links = u.links := show w.base.links = u.base.links by rw [h.base]
  unfold State.layout
  rw [h.map_sections (fun _ => rfl), h.map_points (fun _ => rfl), h.map_signals (fun _ => rfl), hslots, hstore, hlinks,
    h.dev]

/-- What the units do reports nothing. -/
theorem Reacts.reports {u w : State} (h : Reacts u w) (ch : Channel) : Reports ch [] u w where
  rest := h.rest
  layout := h.layout
  atSection id := optionRel_imp (h.section?_rel id) (fun x y e => by
    have hv (c : Channel) : y.view c = x.view c := by
      have := congrArg (SectionRec.view c) e; cases c <;> exact this
    exact ⟨hv ch, hv _, show y.core.faulted = x.core.faulted by rw [e], show y.core.block = x.core.block by rw [e],
      show y.core.mask = x.core.mask by rw [e]⟩)
  atPoint id _ := optionRel_imp (h.point?_rel id) (fun x y e => by
    have hv (c : Channel) : y.view c = x.view c := by
      have := congrArg (PointRec.view c) e; cases c <;> exact this
    exact ⟨hv ch, hv _, show y.core.faulted = x.core.faulted by rw [e], show y.core.block = x.core.block by rw [e],
      show y.core.mask = x.core.mask by rw [e]⟩)
  atSignal id _ _ := optionRel_imp (h.signal?_rel id) (fun x y e => by
    have hv (c : Channel) : y.view c = x.view c := by
      have := congrArg (SignalRec.view c) e; cases c <;> exact this
    exact ⟨hv ch, hv _, show y.core.faulted = x.core.faulted by rw [e], show y.core.block = x.core.block by rw [e],
      show y.core.mask = x.core.mask by rw [e]⟩)

/-! ## One item -/

theorem SectionRec.reported_withView (p4 p5 : Nat) (ch : Channel) (v : SecView) (x : SectionRec) :
    (x.withView p4 p5 ch v).id = x.id ∧ x.Reported ch v (x.withView p4 p5 ch v) := by
  obtain ⟨h1, h2⟩ := SectionRec.withView_view p4 p5 ch v x
  by_cases h : x.view ch = v
  · rw [SectionRec.withView_of_eq h]; exact ⟨rfl, h, rfl, rfl, rfl, rfl⟩
  · refine ⟨?_, h1, h2, ?_⟩
    all_goals rw [SectionRec.withView_of_ne h, SectionRec.derive_eq]
    · cases ch <;> rfl
    · cases ch <;> exact ⟨rfl, rfl, rfl⟩

theorem PointRec.reported_withView (p6 : Nat) (ch : Channel) (v : PointView) (x : PointRec) :
    (x.withView p6 ch v).id = x.id ∧ x.Reported ch v (x.withView p6 ch v) := by
  obtain ⟨h1, h2⟩ := PointRec.withView_view p6 ch v x
  by_cases h : x.view ch = v
  · rw [PointRec.withView_of_eq h]; exact ⟨rfl, h, rfl, rfl, rfl, rfl⟩
  · refine ⟨?_, h1, h2, ?_⟩
    all_goals rw [PointRec.withView_of_ne h]
    · cases ch <;> rfl
    · cases ch <;> exact ⟨rfl, rfl, rfl⟩

theorem SignalRec.reported_withView (p7 : Nat) (ch : Channel) (v : SignalView) (x : SignalRec) :
    (x.withView p7 ch v).id = x.id ∧ x.Reported ch v (x.withView p7 ch v) := by
  obtain ⟨h1, h2⟩ := SignalRec.withView_view p7 ch v x
  have hk : (x.withView p7 ch v).id = x.id ∧ (x.withView p7 ch v).faulted = x.faulted
      ∧ (x.withView p7 ch v).block = x.block ∧ (x.withView p7 ch v).mask = x.mask := by
    unfold SignalRec.withView
    cases ch <;> dsimp only <;> split <;> exact ⟨rfl, rfl, rfl, rfl⟩
  exact ⟨hk.1, h1, h2, hk.2⟩

theorem SignalRec.withView_protSec (p7 : Nat) (ch : Channel) (v : SignalView) (x : SignalRec) :
    (x.withView p7 ch v).protSec = x.protSec := by
  unfold SignalRec.withView
  cases ch <;> dsimp only <;> split <;> rfl

theorem PointRec.withView_sec (p6 : Nat) (ch : Channel) (v : PointView) (x : PointRec) :
    (x.withView p6 ch v).sec = x.sec := by
  by_cases h : x.view ch = v
  · rw [PointRec.withView_of_eq h]
  · rw [PointRec.withView_of_ne h]; cases ch <;> rfl

theorem PointRec.withView_move (p6 : Nat) (ch : Channel) (v : PointView) (x : PointRec) :
    (x.withView p6 ch v).move = x.move ∧ (x.withView p6 ch v).supTime = x.supTime := by
  by_cases h : x.view ch = v
  · rw [PointRec.withView_of_eq h]; exact ⟨rfl, rfl⟩
  · rw [PointRec.withView_of_ne h]; cases ch <;> exact ⟨rfl, rfl⟩

section ReportedItem
variable {t : State} {ch : Channel} {i : ReportItem}

/-- The view change of a section that an item reports. -/
theorem reports_mapSection {x : SectionRec} {v : SecView} (p4 p5 : Nat) (hx : t.section? i.element.toNat = some x)
    (hv : secViewOf i.state = some v) :
    Reports ch [i] t (t.mapSection i.element.toNat (SectionRec.withView p4 p5 ch v)) where
  rest := rfl
  layout := by
    have := (SectionRec.reported_withView p4 p5 ch v)
    have e : (t.mapSection i.element.toNat (SectionRec.withView p4 p5 ch v)).sections.map (·.id) = t.sections.map (·.id) := by
      show (t.sections.map _).map _ = _
      rw [List.map_map]
      refine List.map_congr_left (fun x _ => ?_)
      dsimp only [Function.comp]
      split
      · exact (this x).1
      · rfl
    unfold State.layout
    rw [e]; rfl
  atSection id := by
    have hid (x : SectionRec) := (SectionRec.reported_withView p4 p5 ch v x).1
    by_cases e : i.element.toNat = id
    · subst e
      rw [sectionLookup_mapped _ hid hx, hx]
      refine .some ?_
      rw [lastReport_valid hv]
      exact (SectionRec.reported_withView p4 p5 ch v x).2
    · rw [show (t.mapSection _ _).section? id = t.section? id from find?_map_other _ _ _ e _ hid _]
      exact optionRel_refl _ fun x _ => ⟨(lastReport_other _ e _).symm, rfl, rfl, rfl, rfl⟩
  atPoint id hs := by
    have e : i.element.toNat ≠ id := fun e => by rw [← e, hx] at hs; cases hs
    exact optionRel_refl _ fun x _ => ⟨(lastReport_other _ e _).symm, rfl, rfl, rfl, rfl⟩
  atSignal id hs _ := by
    have e : i.element.toNat ≠ id := fun e => by rw [← e, hx] at hs; cases hs
    exact optionRel_refl _ fun x _ => ⟨(lastReport_other _ e _).symm, rfl, rfl, rfl, rfl⟩

theorem layout_mapPoint {id : Nat} {f : PointRec → PointRec}
    (hf : ∀ x, (f x).id = x.id ∧ (f x).sec = x.sec ∧ (f x).supTime = x.supTime) : (t.mapPoint id f).layout = t.layout := by
  have e : (t.mapPoint id f).points.map (fun x => (x.id, x.sec, x.supTime)) =
      t.points.map (fun x => (x.id, x.sec, x.supTime)) := by
    show (t.points.map _).map _ = _
    rw [List.map_map]
    refine List.map_congr_left (fun x _ => ?_)
    dsimp only [Function.comp]
    split
    · obtain ⟨h1, h2, h3⟩ := hf x; rw [h1, h2, h3]
    · rfl
  unfold State.layout
  rw [e]; rfl

/-- The view change of a point that an item reports. -/
theorem reports_mapPoint {x : PointRec} {v : PointView} (p6 : Nat) (hs : t.section? i.element.toNat = none)
    (hx : t.point? i.element.toNat = some x) (hv : pointViewOf i.state = some v) :
    Reports ch [i] t (t.mapPoint i.element.toNat (PointRec.withView p6 ch v)) where
  rest := rfl
  layout := layout_mapPoint fun x => ⟨(PointRec.reported_withView p6 ch v x).1, PointRec.withView_sec p6 ch v x,
    (PointRec.withView_move p6 ch v x).2⟩
  atSection id := optionRel_refl _ fun y hy => by
    have e : i.element.toNat ≠ id := fun e => by rw [← e, hs] at hy; cases hy
    exact ⟨(lastReport_other _ e _).symm, rfl, rfl, rfl, rfl⟩
  atPoint id _ := by
    have hid (x : PointRec) := (PointRec.reported_withView p6 ch v x).1
    by_cases e : i.element.toNat = id
    · subst e
      rw [point?_mapped _ hid hx, hx]
      refine .some ?_
      rw [lastReport_valid hv]
      exact (PointRec.reported_withView p6 ch v x).2
    · rw [show (t.mapPoint _ _).point? id = t.point? id from find?_map_other _ _ _ e _ hid _]
      exact optionRel_refl _ fun x _ => ⟨(lastReport_other _ e _).symm, rfl, rfl, rfl, rfl⟩
  atSignal id _ hp := optionRel_refl _ fun y hy => by
    have e : i.element.toNat ≠ id := fun e => by rw [← e, hx] at hp; cases hp
    exact ⟨(lastReport_other _ e _).symm, rfl, rfl, rfl, rfl⟩

/-- The view change of a signal that an item reports. -/
theorem reports_mapSignal {x : SignalRec} {v : SignalView} (p7 : Nat) (hs : t.section? i.element.toNat = none)
    (hp : t.point? i.element.toNat = none) (hx : t.signal? i.element.toNat = some x) (hv : signalViewOf i.state = some v) :
    Reports ch [i] t (t.mapSignal i.element.toNat (SignalRec.withView p7 ch v)) where
  rest := rfl
  layout := by
    have e : (t.mapSignal i.element.toNat (SignalRec.withView p7 ch v)).signals.map (fun x => (x.id, x.protSec)) =
        t.signals.map (fun x => (x.id, x.protSec)) := by
      show (t.signals.map _).map _ = _
      rw [List.map_map]
      refine List.map_congr_left (fun x _ => ?_)
      dsimp only [Function.comp]
      split
      · rw [(SignalRec.reported_withView p7 ch v x).1, SignalRec.withView_protSec]
      · rfl
    unfold State.layout
    rw [e]; rfl
  atSection id := optionRel_refl _ fun y hy => by
    have e : i.element.toNat ≠ id := fun e => by rw [← e, hs] at hy; cases hy
    exact ⟨(lastReport_other _ e _).symm, rfl, rfl, rfl, rfl⟩
  atPoint id _ := optionRel_refl _ fun y hy => by
    have e : i.element.toNat ≠ id := fun e => by rw [← e, hp] at hy; cases hy
    exact ⟨(lastReport_other _ e _).symm, rfl, rfl, rfl, rfl⟩
  atSignal id _ _ := by
    have hid (x : SignalRec) := (SignalRec.reported_withView p7 ch v x).1
    by_cases e : i.element.toNat = id
    · subst e
      rw [signal?_mapped _ hid hx, hx]
      refine .some ?_
      rw [lastReport_valid hv]
      exact (SignalRec.reported_withView p7 ch v x).2
    · rw [show (t.mapSignal _ _).signal? id = t.signal? id from find?_map_other _ _ _ e _ hid _]
      exact optionRel_refl _ fun x _ => ⟨(lastReport_other _ e _).symm, rfl, rfl, rfl, rfl⟩

/-- A change of a point that leaves its views, its flags and what is configured reports nothing. -/
theorem keeps_mapPoint {id : Nat} {f : PointRec → PointRec}
    (hf : ∀ x, (f x).id = x.id ∧ (f x).sec = x.sec ∧ (f x).supTime = x.supTime)
    (hr : ∀ x : PointRec, x.Reported ch (x.view ch) (f x)) : Reports ch [] t (t.mapPoint id f) where
  rest := rfl
  layout := layout_mapPoint hf
  atSection _ := optionRel_refl _ fun _ _ => ⟨rfl, rfl, rfl, rfl, rfl⟩
  atPoint k _ := by
    by_cases e : id = k
    · subst e
      rw [point?_map (fun x => (hf x).1)]
      cases t.point? id with
      | none => exact .none
      | some x => exact .some (hr x)
    · rw [show (t.mapPoint id f).point? k = t.point? k from find?_map_other _ _ _ e _ (fun x => (hf x).1) _]
      exact optionRel_refl _ fun _ _ => ⟨rfl, rfl, rfl, rfl, rfl⟩
  atSignal _ _ _ := optionRel_refl _ fun _ _ => ⟨rfl, rfl, rfl, rfl, rfl⟩

/-- The end of a move reports nothing. -/
theorem reports_completeMove (x : PointRec) (m : Move) : Reports ch [] t (completeMove x m t) := by
  have hm := keeps_mapPoint (ch := ch) (t := t) (id := x.id) (f := fun y => PointRec.derive (param 6 t)
    { y with move := none, moveTimer := .off, lastMove := moveDuration t.dev.time m.start })
    (fun _ => ⟨rfl, rfl, rfl⟩) (fun x => by cases ch <;> exact ⟨rfl, rfl, rfl, rfl, rfl⟩)
  refine hm.trans (Reacts.reports ?_ ch)
  have hc := reacts_closed (t.mapPoint x.id (fun y => PointRec.derive (param 6 t)
    { y with move := none, moveTimer := .off, lastMove := moveDuration t.dev.time m.start }))
  refine hc.handPoint _ ?_
  split
  · exact hc.emit _ _ (hc.emit _ _ (Reacts.refl _))
  · exact hc.emit _ _ (Reacts.refl _)

theorem reports_pointViewChanged (x : PointRec) : Reports ch [] t (pointViewChanged x t) := by
  have stay : Reports ch [] t t := (Reacts.refl t).reports ch
  cases hy : t.point? x.id with
  | none => unfold pointViewChanged; rw [hy]; exact stay
  | some y =>
    by_cases hm : ∃ m, y.move = some m ∧ y.bothAt m.target = true
    · obtain ⟨m, hm, hb⟩ := hm
      by_cases hv : y.viewA = x.viewA ∧ y.viewB = x.viewB
      · rw [pointViewChanged_same hy hv]; exact stay
      · rw [pointViewChanged_arrived hy hv hm hb]; exact reports_completeMove y m
    · refine (reacts_pointViewChanged x (fun z m hz hzm => ?_) (Reacts.refl t)).reports ch
      rw [hy, Option.some.injEq] at hz
      subst hz
      exact Bool.eq_false_iff.2 fun hb => hm ⟨m, hzm, hb⟩

/-- An applied item of a report (R4). -/
theorem reports_applyItem (h : itemValid t i.element.toNat i.state = true) :
    Reports ch [i] t (applyItem ch i.element.toNat i.state t) := by
  unfold itemValid at h
  unfold applyItem
  cases hs : t.section? i.element.toNat with
  | some x =>
    rw [hs] at h
    obtain ⟨v, hv⟩ := Option.isSome_iff_exists.1 h
    dsimp only
    rw [hv]
    have hid : x.id = i.element.toNat := sectionLookup_id hs
    unfold viewSection
    rw [hid]
    exact (reports_mapSection _ _ hs hv).trans ((reacts_sectionChanged x _).reports ch)
  | none =>
    rw [hs] at h
    dsimp only at h ⊢
    cases hp : t.point? i.element.toNat with
    | some x =>
      rw [hp] at h
      obtain ⟨v, hv⟩ := Option.isSome_iff_exists.1 h
      dsimp only
      rw [hv]
      have hid : x.id = i.element.toNat := point?_id hp
      unfold viewPoint
      rw [hid]
      exact (reports_mapPoint _ hs hp hv).trans (reports_pointViewChanged x)
    | none =>
      rw [hp] at h
      dsimp only at h ⊢
      cases hg : t.signal? i.element.toNat with
      | none => rw [hg] at h; cases h
      | some x =>
        rw [hg] at h
        obtain ⟨v, hv⟩ := Option.isSome_iff_exists.1 h
        dsimp only
        rw [hv]
        have hid : x.id = i.element.toNat := signal?_id hg
        unfold viewSignal
        rw [hid]
        exact (reports_mapSignal _ hs hp hg hv).trans ((reacts_closed _).signalChanged x (Reacts.refl _) |>.reports ch)

end ReportedItem

/-! ## A whole report -/

/-- Which elements are configured, and of which kind, is all that the validity of an item reads. -/
theorem Reports.itemValid {ch : Channel} {items : List ReportItem} {t w : State} (h : Reports ch items t w) (id : Nat)
    (b : Byte) : itemValid w id b = itemValid t id b := by
  unfold Machine.itemValid
  have hs := h.atSection id
  cases ht : t.section? id with
  | some x =>
    obtain ⟨y, hy, -⟩ := optionRel_some hs ht
    rw [hy]
  | none =>
    have hp := h.atPoint id ht
    rw [(optionRel_none hs).2 ht]
    dsimp only
    cases htp : t.point? id with
    | some x =>
      obtain ⟨y, hy, -⟩ := optionRel_some hp htp
      rw [hy]
    | none =>
      have hg := h.atSignal id ht htp
      rw [(optionRel_none hp).2 htp]
      dsimp only
      cases htg : t.signal? id with
      | some x =>
        obtain ⟨y, hy, -⟩ := optionRel_some hg htg
        rw [hy]
      | none => rw [(optionRel_none hg).2 htg]

theorem itemBytes_split (ch : Channel) (i : ReportItem) (rest : List Byte) (s : State) (d k : Nat) :
    applyItems ch (itemBytes i ++ rest) s d k =
      if (s.chan ch).state ≠ .paused ∧ itemValid s i.element.toNat i.state = true then
        applyItems ch rest (applyItem ch i.element.toNat i.state s) (d + 1) k
      else applyItems ch rest s d (k + 1) := by
  show applyItems ch (_ :: _ :: i.state :: rest) s d k = _
  rw [applyItems, num2_b2_eq]

/-- Every item of a PAUSED channel is skipped (R4, R35). -/
theorem applyItems_paused {ch : Channel} {s : State} (h : (s.chan ch).state = .paused) (items : List ReportItem) (d k : Nat) :
    applyItems ch (items.flatMap itemBytes) s d k = (d, k + items.length, s) := by
  induction items generalizing k with
  | nil => rfl
  | cons i items ih =>
    rw [List.flatMap_cons, itemBytes_split, if_neg (fun hn => hn.1 h), ih, List.length_cons, Nat.add_right_comm, Nat.add_assoc]

/-- A report of an ACTIVE channel, item by item. -/
theorem applyItems_reports {ch : Channel} (items : List ReportItem) {t : State} (h : (t.chan ch).state = .active) (d k : Nat) :
    ∃ w, applyItems ch (items.flatMap itemBytes) t d k =
        (d + (items.filter (fun i => itemValid t i.element.toNat i.state)).length,
          k + (items.filter (fun i => !itemValid t i.element.toNat i.state)).length, w)
      ∧ Reports ch items t w := by
  induction items generalizing t d k with
  | nil => exact ⟨t, rfl, (Reacts.refl t).reports ch⟩
  | cons i items ih =>
    rw [List.flatMap_cons, itemBytes_split]
    by_cases hv : itemValid t i.element.toNat i.state = true
    · have hr := reports_applyItem (ch := ch) hv
      have hc : ((applyItem ch i.element.toNat i.state t).chan ch) = t.chan ch := by
        have := congrArg (State.chan · ch) hr.rest
        cases ch <;> exact this
      obtain ⟨w, hw, hw'⟩ := ih (by rw [hc]; exact h) (d + 1) k
      refine ⟨w, ?_, hr.trans hw'⟩
      rw [if_pos ⟨by rw [h]; exact fun h => (nomatch h), hv⟩, hw]
      simp only [hr.itemValid, List.filter_cons, hv]
      congr 1
      simp [Nat.add_assoc, Nat.add_comm]
    · have hf : itemValid t i.element.toNat i.state = false := Bool.eq_false_iff.2 hv
      obtain ⟨w, hw, hw'⟩ := ih h d (k + 1)
      refine ⟨w, ?_, (Reports.skipped hf).trans hw'⟩
      rw [if_neg (fun hn => hv hn.2), hw]
      simp only [List.filter_cons, hf]
      simp [Nat.add_assoc, Nat.add_comm]

/-- Settles O5, by the composition of the items. -/
theorem fieldReportSetsViews : Obligations.FieldReportSetsViews := by
  unfold Obligations.FieldReportSetsViews
  refine ⟨?_, ?_⟩
  · intro ch tag items s line paused low high range
    let f : RequestFrame := ⟨ch, .reportFieldStatus, tag, items.flatMap itemBytes⟩
    have hl : f.body.length = 3 * items.length := Laws.WireForm.length_items items
    rw [exec_request (f := f) rfl, request_single (f := f) line (by omega) ?_ (.inr paused) range rfl]
    · show Host.Outcome.next (reply ch tag (answerReport ch (items.flatMap itemBytes) (s.served f))) = _
      unfold answerReport
      rw [State.served_paused (f := f) paused, applyItems_paused (by rw [State.opened_chan]; exact paused), Nat.zero_add]
      rfl
    · show lengthOk .reportFieldStatus f.body.length = true
      rw [hl]
      simp [lengthOk, fixedLength]
      omega
  · intro ch tag items s hserves valid
    let f : RequestFrame := ⟨ch, .reportFieldStatus, tag, items.flatMap itemBytes⟩
    have hactive : ((s.served f).chan ch).state = .active := (State.served_state s f).trans hserves.active
    obtain ⟨w, hw, hr⟩ := applyItems_reports items hactive 0 0
    have hvalid (id : Nat) (b : Byte) : itemValid (s.served f) id b = itemValid s id b := by
      unfold itemValid
      rw [State.served_section?, State.served_point?, State.served_signal?]
    have hskip : (items.filter (fun i => !itemValid s i.element.toNat i.state)).length = items.length - valid := by
      have := List.length_eq_length_filter_add (l := items) (fun i => itemValid s i.element.toNat i.state)
      dsimp only [valid]
      omega
    simp only [hvalid, Nat.zero_add, hskip] at hw
    refine answers_of (a := .plain .done (b1 valid ++ b1 (items.length - valid)) w) rfl hserves rfl ?_ ?_
    · show answerReport ch (items.flatMap itemBytes) (s.served f) = _
      unfold answerReport
      rw [hw]
    · have hsec := hr.atSection
      have hpt := hr.atPoint
      have hsig := hr.atSignal
      simp only [State.served_section?, State.served_point?, State.served_signal?] at hsec hpt hsig
      refine ⟨hr.rest, hr.layout.trans ?_, fun id x hx => ?_, fun id x hs hx => ?_, fun id x hs hp hx => ?_⟩
      · unfold State.layout
        rw [State.served_sections, State.served_points, State.served_signals, State.served_store, State.served_slots,
          State.served_links, State.served_dev]
      · exact optionRel_some (hsec id) hx
      · exact optionRel_some (hpt id hs) hx
      · exact optionRel_some (hsig id hs hp) hx

/-! ## One reported state -/

section OneReport
variable {ch : Channel} {tag : Byte} {e : Half} {b : Byte} {s : State}

/-- A report of one valid item is one view change. -/
theorem answers_item {effect : State → State → Prop} (h : Serves ⟨ch, .reportFieldStatus, tag, itemBytes ⟨e, b⟩⟩ s)
    (hv : itemValid s e.toNat b = true)
    (he : effect (s.served ⟨ch, .reportFieldStatus, tag, itemBytes ⟨e, b⟩⟩)
      (applyItem ch e.toNat b (s.served ⟨ch, .reportFieldStatus, tag, itemBytes ⟨e, b⟩⟩))) :
    Answers (.reportFieldStatus ch tag [⟨e, b⟩]) ⟨ch, .reportFieldStatus, tag, itemBytes ⟨e, b⟩⟩ s .done (b1 1 ++ b1 0)
      effect := by
  let f : RequestFrame := ⟨ch, .reportFieldStatus, tag, itemBytes ⟨e, b⟩⟩
  refine answers_of (f := f) (a := .plain .done (b1 1 ++ b1 0) (applyItem ch e.toNat b (s.served f))) ?_ h rfl ?_ he
  · exact congrArg (fun body => some (RequestFrame.mk ch .reportFieldStatus tag body)) (List.append_nil _)
  · have hactive : ((s.served f).chan ch).state ≠ .paused := by
      rw [State.served_state s f, h.active]; exact fun h => nomatch h
    have hvalid : itemValid (s.served f) e.toNat b = true := by
      rw [← hv]; unfold itemValid
      rw [State.served_section?, State.served_point?, State.served_signal?]
    show answerReport ch (itemBytes ⟨e, b⟩) (s.served f) = _
    unfold answerReport
    rw [← List.append_nil (itemBytes ⟨e, b⟩), itemBytes_split, if_pos ⟨hactive, hvalid⟩]
    rfl

section OneReportLookup
variable {f : RequestFrame}

theorem applyItem_section {x : SectionRec} {v : SecView} (hx : s.section? e.toNat = some x) (hv : secViewOf b = some v) :
    applyItem ch e.toNat b (s.served f) = sectionChanged x ((s.served f).mapSection e.toNat
      (SectionRec.withView (param 4 s) (param 5 s) ch v)) := by
  unfold applyItem viewSection
  rw [State.served_section?, hx]
  dsimp only
  rw [hv, State.served_param, State.served_param, sectionLookup_id hx]

theorem applyItem_point {x : PointRec} {v : PointView} (hs : s.section? e.toNat = none) (hx : s.point? e.toNat = some x)
    (hv : pointViewOf b = some v) : applyItem ch e.toNat b (s.served f) =
      pointViewChanged x ((s.served f).mapPoint e.toNat (PointRec.withView (param 6 s) ch v)) := by
  unfold applyItem viewPoint
  rw [State.served_section?, hs, State.served_point?, hx]
  dsimp only
  rw [hv, State.served_param, point?_id hx]

theorem applyItem_signal {x : SignalRec} {v : SignalView} (hs : s.section? e.toNat = none) (hp : s.point? e.toNat = none)
    (hx : s.signal? e.toNat = some x) (hv : signalViewOf b = some v) : applyItem ch e.toNat b (s.served f) =
      signalChanged x ((s.served f).mapSignal e.toNat (SignalRec.withView (param 7 s) ch v)) := by
  unfold applyItem viewSignal
  rw [State.served_section?, hs, State.served_point?, hp, State.served_signal?, hx]
  dsimp only
  rw [hv, State.served_param, signal?_id hx]

end OneReportLookup

theorem itemValid_section {x : SectionRec} {v : SecView} (hx : s.section? e.toNat = some x) (hv : secViewOf b = some v) :
    itemValid s e.toNat b = true := by
  unfold itemValid; rw [hx, hv]; rfl

theorem itemValid_point {x : PointRec} {v : PointView} (hs : s.section? e.toNat = none) (hx : s.point? e.toNat = some x)
    (hv : pointViewOf b = some v) : itemValid s e.toNat b = true := by
  unfold itemValid; rw [hs, hx, hv]; rfl

theorem itemValid_signal {x : SignalRec} {v : SignalView} (hs : s.section? e.toNat = none) (hp : s.point? e.toNat = none)
    (hx : s.signal? e.toNat = some x) (hv : signalViewOf b = some v) : itemValid s e.toNat b = true := by
  unfold itemValid; rw [hs, hp, hx, hv]; rfl

end OneReport

/-- A point whose agreed status is a position is not UNDETECTED. -/
theorem pos?_undetected {x : PointRec} {p : Pos} (h : x.status.pos? = some p) : x.status ≠ .undetected := by
  intro e; rw [e] at h; cases h

/-- Settles O6, by the kind of the element and by whether its status changes. -/
theorem oneReportedState : Obligations.OneReportedState := by
  unfold Obligations.OneReportedState
  intro ch tag e b s f hserves
  have sections (x : SectionRec) (v : SecView) (hx : s.section? e.toNat = some x) (hv : secViewOf b = some v) :
      ((s.served f).mapSection e.toNat (SectionRec.withView (param 4 s) (param 5 s) ch v)).section? x.id =
        some (x.withView (param 4 s) (param 5 s) ch v) := by
    rw [sectionLookup_id hx, sectionLookup_mapped _ (fun x => (SectionRec.reported_withView _ _ ch v x).1)
      ((State.served_section? s f _).trans hx)]
  have points (x : PointRec) (v : PointView) (hx : s.point? e.toNat = some x) :
      ((s.served f).mapPoint e.toNat (PointRec.withView (param 6 s) ch v)).point? x.id =
        some (x.withView (param 6 s) ch v) := by
    rw [point?_id hx, point?_mapped _ (fun x => (PointRec.reported_withView _ ch v x).1)
      ((State.served_point? s f _).trans hx)]
  have signals (x : SignalRec) (v : SignalView) (hx : s.signal? e.toNat = some x) :
      ((s.served f).mapSignal e.toNat (SignalRec.withView (param 7 s) ch v)).signal? x.id =
        some (x.withView (param 7 s) ch v) := by
    rw [signal?_id hx, signal?_mapped _ (fun x => (SignalRec.reported_withView _ ch v x).1)
      ((State.served_signal? s f _).trans hx)]
  have still (x : PointRec) (v : PointView) (h : x.view ch = v) :
      (x.withView (param 6 s) ch v).viewA = x.viewA ∧ (x.withView (param 6 s) ch v).viewB = x.viewB := by
    rw [PointRec.withView_of_eq h]; exact ⟨rfl, rfl⟩
  have moved (x : PointRec) (v : PointView) (h : x.view ch ≠ v) :
      ¬ ((x.withView (param 6 s) ch v).viewA = x.viewA ∧ (x.withView (param 6 s) ch v).viewB = x.viewB) := by
    intro hn
    refine h (.trans ?_ (PointRec.withView_view (param 6 s) ch v x).1)
    cases ch
    · exact hn.1.symm
    · exact hn.2.symm
  refine ⟨fun x v hx hv => ?_, fun x v hs hp hx hv => ?_, fun x v hs hx hm hv => ?_, fun x v hx hv => ?_,
    fun x v hs hp hx hv => ?_, fun x v hs hx hm hv => ?_⟩
  · refine answers_item hserves (itemValid_section hx hv) ?_
    rw [applyItem_section hx hv]
    exact reacts_sectionChanged x _
  · refine answers_item hserves (itemValid_signal hs hp hx hv) ?_
    rw [applyItem_signal hs hp hx hv]
    exact (reacts_closed _).signalChanged x (Reacts.refl _)
  · refine answers_item hserves (itemValid_point hs hx hv) ?_
    rw [applyItem_point hs hx hv]
    intro t
    have hy := points x v hx
    have hym : (x.withView (param 6 s) ch v).move = none := (PointRec.withView_move _ ch v x).1.trans hm
    by_cases hst : (x.withView (param 6 s) ch v).status = x.status
    · rw [pointViewChanged_kept hy hym hst]
      cases hpos : x.status.pos? with
      | some p => exact (if_neg (fun h => pos?_undetected hpos (hst ▸ h.2))).mpr (Reacts.refl t)
      | none => exact Reacts.refl t
    · have hne : x.view ch ≠ v := fun e => hst (by rw [PointRec.withView_of_eq e])
      rw [pointViewChanged_changed hy (moved x v hne) hym hst, point?_id hx]
      cases hpos : x.status.pos? with
      | some p =>
        dsimp only
        by_cases hu : (x.withView (param 6 s) ch v).status = .undetected
        · rw [if_pos ⟨hne, hu⟩, if_pos hu]; exact reacts_handPoint _ _
        · rw [if_neg (fun h => hu h.2), if_neg hu]; exact reacts_handPoint _ _
      | none => exact reacts_handPoint _ _
  · refine answers_item hserves (itemValid_section hx hv) ?_
    rw [applyItem_section hx hv]
    intro t
    split
    · next h =>
      obtain ⟨-, -, -, hf, hb, -⟩ := SectionRec.reported_withView (param 4 s) (param 5 s) ch v x
      exact sectionChanged_same (sections x v hx hv) h hf hb
    · next h =>
      rw [sectionChanged_status (sections x v hx hv) h, sectionLookup_id hx]
      exact handSection_inSomeOrder _ _ _
  · refine answers_item hserves (itemValid_signal hs hp hx hv) ?_
    rw [applyItem_signal hs hp hx hv]
    intro t
    obtain ⟨-, -, -, hf, -, hk⟩ := SignalRec.reported_withView (param 7 s) ch v x
    unfold signalChanged
    rw [signals x v hx]
    dsimp only
    split
    · next h => exact if_neg (by simp [h, hf, hk])
    · next h =>
      rw [if_pos (.inl h), signal?_id hx]
      exact handSignal_inSomeOrder _ _
  · refine answers_item hserves (itemValid_point hs hx hv) ?_
    rw [applyItem_point hs hx hv]
    intro t y
    have hym : y.move = none := (PointRec.withView_move _ ch v x).1.trans hm
    split
    · next h => exact pointViewChanged_kept (points x v hx) hym h
    · next h =>
      have hne : x.view ch ≠ v := fun e => h (by dsimp only [y]; rw [PointRec.withView_of_eq e])
      rw [pointViewChanged_changed (points x v hx) (moved x v hne) hym h, point?_id hx]
      exact handPoint_inSomeOrder _ _

theorem bothAt_iff_views (ch : Channel) {x : PointRec} {p : Pos} :
    x.bothAt p = true ↔ x.view ch = viewOfPos p ∧ x.view ch.other = viewOfPos p := by
  rw [bothAt_iff]
  cases ch
  · exact Iff.rfl
  · exact and_comm

/-- Settles O7, by whether the views now stand at the target. -/
theorem moveCompletesAtBothViews : Obligations.MoveCompletesAtBothViews := by
  unfold Obligations.MoveCompletesAtBothViews
  intro ch tag e b s x m v f hserves hs hx hm hv hne
  refine answers_item hserves (itemValid_point hs hx hv) ?_
  rw [applyItem_point hs hx hv]
  intro t took finished
  have hid : x.id = e.toNat := point?_id hx
  obtain ⟨hyid, hview, hother, -⟩ := PointRec.reported_withView (param 6 s) ch v x
  obtain ⟨hym, hsup⟩ := PointRec.withView_move (param 6 s) ch v x
  have hy : t.point? x.id = some (x.withView (param 6 s) ch v) := by
    rw [hid]
    exact point?_mapped _ (fun x => (PointRec.reported_withView _ ch v x).1) ((State.served_point? s f _).trans hx)
  have hmoved : ¬ ((x.withView (param 6 s) ch v).viewA = x.viewA ∧ (x.withView (param 6 s) ch v).viewB = x.viewB) := by
    intro hn
    refine hne (.trans ?_ hview)
    cases ch
    · exact hn.1.symm
    · exact hn.2.symm
  have hboth : (x.withView (param 6 s) ch v).bothAt m.target = true ↔
      v = viewOfPos m.target ∧ x.view ch.other = viewOfPos m.target := by
    rw [bothAt_iff_views ch, hview, hother]
  split
  · next harrived =>
    have htime : t.dev = s.dev := State.served_dev s f
    have hparam (n : Nat) : param n t = param n s := by unfold param; rw [htime]
    have hdone : pointViewChanged x t = handPoint e.toNat
        (if param 15 s * x.supTime < took * 100 then emit (.pointSlow e.toNat took x.supTime) finished else finished) := by
      rw [pointViewChanged_arrived hy hmoved (hym.trans hm) (hboth.2 harrived)]
      unfold completeMove
      rw [hyid, hid, hsup, hparam, hparam, htime]
      rfl
    rw [hdone]
    refine ⟨?_, handPoint_inSomeOrder _ _⟩
    split
    · exact reacts_handPoint _ _
    · exact reacts_handPoint _ _
  · next hshort =>
    exact pointViewChanged_moving hy (hym.trans hm) (Bool.eq_false_iff.2 (mt hboth.1 hshort))

end Sys2Proof.Machine

/-!
PROOFS. Routes that are given up, approach speeds, the release time, and the timers of routes and watches. O27, O28, O29,
O30, O32.
-/

namespace Sys2Proof.Machine

/-! ## The Release Time Calculator (R118 to R120) -/

/-- A division rounded up is the least number of parts that hold the whole. -/
theorem ceilDiv_bounds (a : Nat) {b : Nat} (hb : 0 < b) : a ≤ ceilDiv a b * b ∧ ceilDiv a b * b < a + b := by
  unfold ceilDiv
  have h1 := Nat.div_add_mod (a + (b - 1)) b
  have h2 := Nat.mod_lt (a + (b - 1)) hb
  rw [Nat.mul_comm] at h1
  omega

theorem ceilDiv_pos {a b : Nat} (ha : 0 < a) (hb : 0 < b) : 0 < ceilDiv a b := by
  obtain ⟨h, -⟩ := ceilDiv_bounds a hb
  rcases Nat.eq_zero_or_pos (ceilDiv a b) with h0 | h0
  · rw [h0, Nat.zero_mul] at h; omega
  · exact h0

theorem limitReleaseTime_table (tMin raw : Nat) : limitReleaseTime tMin raw =
    if raw < tMin then (tMin, false) else if raw ≤ 6000 then (raw, false) else (6000, true) := rfl

theorem limitReleaseTime_bounds {tMin : Nat} (raw : Nat) (h : tMin ≤ 6000) :
    tMin ≤ (limitReleaseTime tMin raw).1 ∧ (limitReleaseTime tMin raw).1 ≤ 6000 := by
  rw [limitReleaseTime_table]
  split
  · exact ⟨Nat.le_refl _, h⟩
  · next hlow =>
    split
    · next hhigh => exact ⟨Nat.le_of_not_lt hlow, hhigh⟩
    · exact ⟨h, Nat.le_refl _⟩

theorem defOf_eq {s : State} {r : Nat} {d : RouteDef} (h : s.def? r = some d) : s.defOf r = d := by
  unfold State.defOf; rw [h]

/-- Settles O30, stage by stage of R119. -/
theorem releaseTimeLimits : Obligations.ReleaseTimeLimits := by
  unfold Obligations.ReleaseTimeLimits
  refine ⟨fun length speed brake reaction hs hb => ?_, limitReleaseTime_table, fun s r h => ?_, fun s r d rate hd hr => ?_⟩
  · have hv : 0 < ceilDiv (speed * 250) 9 := ceilDiv_pos (by omega) (by omega)
    obtain ⟨v1, v2⟩ := ceilDiv_bounds (speed * 250) (b := 9) (by omega)
    obtain ⟨t1, t2⟩ := ceilDiv_bounds (ceilDiv (speed * 250) 9 * 10) hb
    obtain ⟨d1, d2⟩ := ceilDiv_bounds (ceilDiv (speed * 250) 9 * ceilDiv (speed * 250) 9) (b := 2 * brake) (by omega)
    refine ⟨ceilDiv (speed * 250) 9, _, _, _, rfl, v1, v2, t1, t2, d1, d2, fun h => if_neg (Nat.not_lt.2 h), fun h => ?_⟩
    rw [if_pos h]
    exact ceilDiv_bounds _ hv
  · exact limitReleaseTime_bounds _ (by omega)
  · unfold releaseTime restriction
    rw [defOf_eq hd]
    dsimp only
    rw [hr]
    refine ⟨fun q hq => ?_, fun hq => ?_⟩
    · rw [hq]; rfl
    · rw [hq]; rfl

/-! ## SET APPROACH SPEED (R117) -/

theorem storedSpeed_table (n : Nat) : storedSpeed n = if n = 0 then 0 else if 250 < n then 250 else (n + 4) / 5 * 5 := by
  unfold storedSpeed
  split
  · rfl
  · split <;> omega

theorem storedSpeed_exact (n : Nat) : storedSpeed n = n ↔ n = 0 ∨ (n ≤ 250 ∧ n % 5 = 0) := by
  unfold storedSpeed
  split <;> omega

theorem restriction_setRestriction (r v : Nat) (s : State) :
    restriction (setRestriction r v s) r = if v = 0 then none else some v := by
  have hnone : (s.speeds.filter (fun p => p.1 != r)).find? (fun p => p.1 == r) = none := by
    rw [List.find?_eq_none]
    intro p hp
    simpa using (List.mem_filter.1 hp).2
  unfold restriction setRestriction
  rw [List.find?_append, hnone]
  by_cases hv : v = 0 <;> simp [hv]

theorem restriction_setRestriction_other {q r : Nat} (h : q ≠ r) (v : Nat) (s : State) :
    restriction (setRestriction r v s) q = restriction s q := by
  unfold restriction setRestriction
  have hfilter : (s.speeds.filter (fun p => p.1 != r)).find? (fun p => p.1 == q) = s.speeds.find? (fun p => p.1 == q) := by
    rw [List.find?_filter]
    congr 1
    funext p
    by_cases hp : p.1 = q
    · simp [hp, h]
    · simp [hp]
  have hnew : (if v = 0 then [] else [(r, v)] : List (Nat × Nat)).find? (fun p => p.1 == q) = none := by
    rw [List.find?_eq_none]
    intro p hp
    split at hp
    · cases hp
    · rw [List.mem_singleton.1 hp]
      simpa using Ne.symm h
  rw [List.find?_append, hfilter, hnew, Option.or_none]

/-- Settles O28, by the table of R117. -/
theorem approachSpeedTable : Obligations.ApproachSpeedTable := by
  unfold Obligations.ApproachSpeedTable
  intro ch tag r n s c f hf
  have hdec : decide ch .setApproachSpeed [r, n] (s.paired f) = decideApproachSpeed r.toNat n.toNat (s.paired f) := rfl
  unfold decideApproachSpeed at hdec
  rw [State.paired_def?] at hdec
  split
  · next h => rw [h] at hdec; exact refuses_of rfl hf hdec
  · next h =>
    obtain ⟨d, hd⟩ := Option.ne_none_iff_exists'.1 h
    rw [hd] at hdec
    intro stored exact'
    have hstored : stored = storedSpeed n.toNat := (storedSpeed_table _).symm
    have hexact : (if exact' then Status.done else .clamped) =
        if storedSpeed n.toNat = n.toNat then .done else .clamped := by
      by_cases h' : storedSpeed n.toNat = n.toNat
      · rw [if_pos h', if_pos ((storedSpeed_exact _).1 h')]
      · rw [if_neg h', if_neg (mt (storedSpeed_exact _).2 h')]
    rw [hexact, hstored]
    refine concurs_of rfl hf hdec ⟨restriction_setRestriction _ _ _, fun q hq => restriction_setRestriction_other hq _ _, rfl⟩

/-! ## Routes that are given up (R70, R71, R113, R115) -/

/-- The permission taken from a signal is the one that the statements write out (R97). -/
theorem withdrawOnly_unpermitted (a : ActiveRoute) (cause : PermCause) (s : State) :
    withdrawOnly a cause s = s.unpermitted (s.defOf a.id).entry a.id cause := rfl

/-- Taking a permission changes one signal and the queues alone. -/
theorem unpermitted_keep {α : Type} (p : State → α) (he : ∀ e s, p (emit e s) = p s)
    (hg : ∀ s g, p { s with signals := g } = p s) (s : State) (g r : Nat) (cause : PermCause) :
    p (s.unpermitted g r cause) = p s := by
  unfold State.unpermitted
  split
  · split
    · rw [he]; exact hg _ _
    · rfl
  · rfl

theorem releaseTime_of_eq {s t : State} (hd : t.dev = s.dev) (hs : t.store = s.store) (hv : t.speeds = s.speeds) (r : Nat) :
    releaseTime t r = releaseTime s r := by
  unfold releaseTime restriction State.defOf State.def? param
  rw [hd, hs, hv]

theorem releaseTime_emit (e : Event) (s : State) (r : Nat) : releaseTime (emit e s) r = releaseTime s r := rfl

theorem releaseTime_mapRoute (q : Nat) (g : ActiveRoute → ActiveRoute) (s : State) (r : Nat) :
    releaseTime (s.mapRoute q g) r = releaseTime s r := rfl

theorem releaseTime_unpermitted (s : State) (g q : Nat) (cause : PermCause) (r : Nat) :
    releaseTime (s.unpermitted g q cause) r = releaseTime s r :=
  unpermitted_keep (releaseTime · r) (fun _ _ => rfl) (fun _ _ => rfl) s g q cause

/-- The start of a release timer, with the time computed before the state of the route changes (R113, R115). -/
theorem startRelease_eq {s : State} {r : Nat} {time : Nat × Bool} (h : releaseTime s r = time) :
    startRelease r s = emit (.releaseTiming r time.1 time.2)
      (s.mapRoute r (fun y => { y with release := ⟨.running, time.1⟩, releaseT := time.1, saturated := time.2 })) := by
  subst h; rfl

section GivenUp
variable {c : Instr} {f : RequestFrame} {s : State} {a : ActiveRoute} {d : RouteDef} {r : Nat}

/-- The state in which a concurred request is carried out: its REQUEST_DONE stands already. -/
def State.carried (s : State) (f : RequestFrame) : State := emit (.requestDone f.tag f.kind .done 0) (s.paired f)

theorem State.carried_dev : (s.carried f).dev = s.dev := State.paired_dev s f

theorem State.carried_def? : (s.carried f).def? r = s.def? r := State.paired_def? s f r

theorem releaseTime_carried : releaseTime (s.carried f) r = releaseTime s r :=
  releaseTime_of_eq State.carried_dev (State.paired_store s f) (State.paired_speeds s f) r

/-- A release at once (R71). -/
theorem concurs_releaseAtOnce (hc : requestOf c = some f) (hf : Completes f s) (hd : s.def? r = some d)
    (ha : s.route? r = some a)
    (hdec : decide f.ch f.kind f.body (s.paired f) = { out := .done, detail := 0, act := releaseAtOnce a }) :
    Concurs c f s .done 0 (fun u w =>
      Reacts (emit (.routeState r .released .cancelled 0) ((u.unpermitted d.entry r .cancelled).without r)) w
        ∧ Removes a .released .cancelled 0 .none (u.unpermitted d.entry r .cancelled) w) := by
  have hid : a.id = r := route?_id ha
  refine concurs_of hc hf hdec ?_
  show Reacts _ (releaseAtOnce a (s.carried f)) ∧ Removes a _ _ _ _ _ (releaseAtOnce a (s.carried f))
  have hrem := removeRoute_removes a .released .cancelled 0 .none (withdrawOnly a .cancelled (s.carried f))
  rw [withdrawOnly_unpermitted, hid, defOf_eq (State.carried_def?.trans hd)] at hrem
  have he : releaseAtOnce a (s.carried f) = removeRoute a .released .cancelled 0 .none
      ((s.carried f).unpermitted d.entry r .cancelled) := by
    unfold releaseAtOnce
    rw [withdrawOnly_unpermitted, hid, defOf_eq (State.carried_def?.trans hd)]
  rw [he]
  refine ⟨?_, hrem⟩
  have := hrem.1
  rwa [hid] at this

/-- The start of the release timer of a route that is given up: the state changes, and RELEASE_TIMING follows (R113, R115). -/
theorem startRelease_given_up (hid : a.id = r) (hd : s.def? r = some d) (st : RouteState) (rc : RouteCause) (pc : PermCause) :
    startRelease a.id (emit (.routeState a.id (.state st) rc 0)
        ((withdrawOnly a pc (s.carried f)).mapRoute a.id (fun x => { x with state := st }))) =
      emit (.releaseTiming r (releaseTime s r).1 (releaseTime s r).2)
        ((emit (.routeState r (.state st) rc 0) (((s.carried f).unpermitted d.entry r pc).mapRoute r
          (fun x => { x with state := st }))).mapRoute r (fun y =>
            { y with release := ⟨.running, (releaseTime s r).1⟩, releaseT := (releaseTime s r).1
                     saturated := (releaseTime s r).2 })) := by
  rw [withdrawOnly_unpermitted, hid, defOf_eq (State.carried_def?.trans hd)]
  refine startRelease_eq ?_
  rw [releaseTime_emit, releaseTime_mapRoute, releaseTime_unpermitted, releaseTime_carried]

end GivenUp

/-- Settles O27, by the tables of R70 and R115. -/
theorem routeIsGivenUp : Obligations.RouteIsGivenUp := by
  unfold Obligations.RouteIsGivenUp
  refine ⟨?_, ?_⟩
  · intro ch tag r s c f hf
    have hdec : decide f.ch f.kind f.body (s.paired f) = decideCancel r.toNat (s.paired f) := rfl
    unfold decideCancel at hdec
    rw [State.paired_def?, State.paired_route?] at hdec
    split
    · next hd => rw [hd] at hdec; exact refuses_of rfl hf hdec
    · next d hd =>
      rw [hd] at hdec
      split
      · next ha => rw [ha] at hdec; exact refuses_of rfl hf hdec
      · next a ha =>
        intro clear atOnce held
        rw [ha] at hdec
        dsimp only at hdec
        have hid : a.id = r.toNat := route?_id ha
        have hclear : approachClear (s.paired f) d = true ↔ clear := by
          unfold approachClear secStatusIs
          simp only [State.paired_section?]
          exact List.all_eq_true
        have once (h : decide f.ch f.kind f.body (s.paired f) = { out := .done, detail := 0, act := releaseAtOnce a }) :
            atOnce := concurs_releaseAtOnce rfl hf hd ha h
        have hold (h : decide f.ch f.kind f.body (s.paired f) = { out := .done, detail := 0, act := enterApproachHeld a }) :
            held := concurs_of rfl hf h (startRelease_given_up hid hd _ _ _)
        cases hst : a.state <;> rw [hst] at hdec <;> dsimp only at hdec ⊢
        · exact once hdec
        · exact ⟨fun h => once (hdec.trans (if_pos (h.imp_right hclear.2))),
            fun hp hn => hold (hdec.trans (if_neg (by simp [hp, mt hclear.1 hn])))⟩
        · exact ⟨fun h => once (hdec.trans (if_pos (hclear.2 h))), fun h => hold (hdec.trans (if_neg (mt hclear.1 h)))⟩
        · exact refuses_of rfl hf hdec
        · exact refuses_of rfl hf hdec
        · exact refuses_of rfl hf hdec
  · intro ch tag r s c f hf
    have hdec : decide f.ch f.kind f.body (s.paired f) = decideEmergency r.toNat (s.paired f) := rfl
    unfold decideEmergency at hdec
    rw [State.paired_def?, State.paired_route?] at hdec
    split
    · next hd => rw [hd] at hdec; exact refuses_of rfl hf hdec
    · next d hd =>
      rw [hd] at hdec
      split
      · next ha => rw [ha] at hdec; exact refuses_of rfl hf hdec
      · next a ha =>
        rw [ha] at hdec
        dsimp only at hdec
        have hid : a.id = r.toNat := route?_id ha
        split
        · next hst =>
          refine concurs_of (v := { out := .done, detail := 0, act := enterEmergencyTiming a }) rfl hf ?_
            (startRelease_given_up hid hd _ _ _)
          rcases hst with h | h | h <;> rw [h] at hdec <;> exact hdec
        · next hst =>
          refine refuses_of rfl hf ?_
          cases h : a.state <;> rw [h] at hdec <;> first | exact hdec | exact absurd h (by tauto)

/-! ## The timers of a route (R62, R112, R114, R116) -/

/-- A state rebuilt with the same locks and routes. -/
theorem State.ext_locks {s : State} {secs secs' : List SectionRec} {pts pts' : List PointRec} {sigs sigs' : List SignalRec}
    {rs rs' : List ActiveRoute} (h1 : secs = secs') (h2 : pts = pts') (h3 : sigs = sigs') (h4 : rs = rs') :
    ({ s with sections := secs, points := pts, signals := sigs, routes := rs } : State) =
      { s with sections := secs', points := pts', signals := sigs', routes := rs' } := by
  rw [h1, h2, h3, h4]

/-- The release of an overlap is one change, handed on (R22, R86, R87, R112). -/
theorem freeOverlap_spec (kept : Bool) (a : ActiveRoute) (s : State) :
    let keeps (c : Claim) : Bool := kept || !guardClaims a .overlap c
    let u : State := { s with
      points := s.points.map (fun x =>
        { x with hold := (match x.hold with
                   | .overlap q p => if q = a.id then .none else .overlap q p
                   | .route q p => .route q p
                   | .none => .none)
                 claims := x.claims.filter keeps, claimPos := if x.claims.filter keeps = [] then none else x.claimPos })
      signals := s.signals.map (fun x => { x with claims := x.claims.filter keeps }), sections := s.sections.map
        (fun x => if x.holder = .overlap a.id then { x with holder := .none } else x)
      routes := s.routes.map (fun y => if y.id = a.id then
        { y with overlap := .released, overlapTimer := ⟨.stopped, 0⟩
                 flanks := y.flanks.map (fun g => if g.guard = .overlap ∧ kept = false then
                   { g with standing := false, satisfied := false } else g) } else y) }
    Reacts u (freeOverlap kept a s)
      ∧ InSomeOrder ((s.sections.filter (fun x => x.holder == .overlap a.id)).map (fun x => retestOver x.id)
          ++ [permOn (.signals ((s.signals.filter (fun x => x.claims.any (fun c => !keeps c))).map (·.id)))]) u
          (freeOverlap kept a s) := by
  intro keeps u
  have hgone (c : Claim) : (!kept && guardClaims a .overlap c) = !keeps c := by
    cases kept <;> simp [keeps]
  have hu : ((dropClaims (fun c => !kept && guardClaims a .overlap c)
      (dropHolds (fun x => match x.hold with | .overlap q _ => q == a.id | _ => false)
        (dropHolders (fun h => h == .overlap a.id) s))).mapRoute a.id (fun x =>
          let y := { x with overlap := .released, overlapTimer := .off }
          if kept then y else dropGuard .overlap y)) = u := by
    have e1 : s.sections.map (fun x => if (x.holder == .overlap a.id) = true then { x with holder := .none } else x) = u.sections :=
      List.map_congr_left (fun x _ => by simp)
    have e2 : (s.points.map (fun x => if (match x.hold with | .overlap q _ => q == a.id | _ => false) = true
        then { x with hold := .none } else x)).map (PointRec.dropClaims (fun c => !kept && guardClaims a .overlap c)) = u.points := by
      rw [List.map_map]
      refine List.map_congr_left (fun x _ => ?_)
      simp only [Function.comp_apply, PointRec.dropClaims, hgone, Bool.not_not, List.isEmpty_iff]
      rcases x with ⟨i1, i2, i3, i4, i5, i6, i7, i8, i9, i10, i11, i12, i13, hold, i14, i15⟩
      cases hold with
      | none => rfl
      | route q p => rfl
      | overlap q p => by_cases hq : q = a.id <;> simp [hq]
    have e3 : s.signals.map (SignalRec.dropClaims (fun c => !kept && guardClaims a .overlap c)) = u.signals := by
      refine List.map_congr_left (fun x _ => ?_)
      simp only [SignalRec.dropClaims, hgone, Bool.not_not]
    have e4 : s.routes.map (fun x => if x.id = a.id then
        (let y := { x with overlap := .released, overlapTimer := .off }
         if kept then y else dropGuard .overlap y) else x) = u.routes := by
      refine List.map_congr_left (fun x _ => ?_)
      dsimp only
      split
      · cases kept <;> simp [dropGuard, Timer.off]
      · rfl
    exact State.ext_locks e1 e2 e3 e4
  have hw : freeOverlap kept a s = inAnyOrder
      ((s.sections.filter (fun x => x.holder == .overlap a.id)).map (fun x => retestOver x.id)
          ++ [permOn (.signals ((s.signals.filter (fun x => x.claims.any (fun c => !keeps c))).map (·.id)))]) u := by
    refine (congrArg (inAnyOrder (handDrops (heldSecs (fun h => h == .overlap a.id) s)
      (claimedSignals (fun c => !kept && guardClaims a .overlap c) s))) hu).trans ?_
    unfold handDrops heldSecs claimedSignals
    rw [List.map_map, funext hgone]
    rfl
  have hc := reacts_closed u
  refine ⟨hw ▸ hc.inAnyOrder ?_ (Reacts.refl u), hw ▸ inAnyOrder_inSomeOrder _ _⟩
  intro g hg
  rcases List.mem_append.1 hg with hg | hg
  · obtain ⟨x, -, rfl⟩ := List.mem_map.1 hg; exact fun _ => hc.retestOver _
  · rw [List.mem_singleton.1 hg]; exact fun _ => hc.permOn _

/-- Settles O29, timer by timer. -/
theorem routeTimersExpire : Obligations.RouteTimersExpire := by
  unfold Obligations.RouteTimersExpire
  intro r s a ha
  have hid : a.id = r := route?_id ha
  refine ⟨?_, ?_, ?_⟩
  · have e : exec (.settingTimerExpiry r) s = .next (settingExpired r s) := rfl
    rw [e]
    unfold settingExpired abandonRoute
    rw [ha]
    dsimp only
    split
    · next h =>
      rw [if_pos h.1, if_pos h.2]
      have hrem := removeRoute_removes a .abandoned .settingTime 0 .none s
      exact ⟨_, rfl, hid ▸ hrem.1, hrem⟩
    · next h =>
      by_cases hm : a.setting.mode = .running
      · rw [if_pos hm, if_neg (fun hc => h ⟨hm, hc⟩)]
      · rw [if_neg hm]
  · have e : exec (.releaseTimerExpiry r) s = .next (releaseExpired r s) := rfl
    rw [e]
    unfold releaseExpired
    rw [ha]
    dsimp only
    by_cases hm : a.release.mode = .running
    · rw [if_pos hm]
      cases hst : a.state with
      | approachHeld =>
        have hrem := removeRoute_removes a .released .releaseTimer 0 .none s
        exact (if_pos ⟨hm, .inl rfl⟩).mpr ⟨_, rfl, hid ▸ hrem.1, hrem⟩
      | emergencyTiming =>
        have hrem := removeRoute_removes a .released .emergency 0 .emergency s
        exact (if_pos ⟨hm, .inr rfl⟩).mpr ⟨_, rfl, hid ▸ hrem.1, hrem⟩
      | calling => exact (if_neg (fun h => by simp at h)).mpr rfl
      | locked => exact (if_neg (fun h => by simp at h)).mpr rfl
      | permitted => exact (if_neg (fun h => by simp at h)).mpr rfl
      | entered => exact (if_neg (fun h => by simp at h)).mpr rfl
    · rw [if_neg hm, if_neg (fun h => hm h.1)]
  · have e : exec (.overlapTimerExpiry r) s = .next (overlapExpired r s) := rfl
    rw [e]
    unfold overlapExpired
    rw [ha]
    dsimp only
    by_cases h : a.overlapTimer.mode = .running ∧ a.overlap = .held
    · rw [if_pos h, if_pos h]
      obtain ⟨kept, c, d, hkept, hfree⟩ := releaseOverlap_free a s
      rw [hid] at hkept
      have hkeeps (q : Claim) : (kept || !guardClaims a .overlap q) = Decidable.decide
          (((s.defOf r).mode = .whole ∧ (∃ f ∈ a.flanks, f.guard = .overlap ∧ f.standing = true) ∧ (s.pick 2).1 = 1)
            ∨ guardClaims a .overlap q = false) := by
        rw [Bool.eq_iff_iff, Bool.or_eq_true, hkept, decide_eq_true_iff, Bool.not_eq_true']
      have hgone (g : Guard) : (g = .overlap ∧ kept = false) = (g = .overlap ∧ ¬ ((s.defOf r).mode = .whole
          ∧ (∃ f ∈ a.flanks, f.guard = .overlap ∧ f.standing = true) ∧ (s.pick 2).1 = 1)) := by
        rw [← hkept, Bool.not_eq_true]
      obtain ⟨hr, ho⟩ := freeOverlap_spec kept a { s with choices := c, drawn := d }
      rw [← hfree] at hr ho
      simp only [hid, hkeeps, hgone] at hr ho
      exact ⟨_, rfl, hr.free, ho.free (by simp)⟩
    · rw [if_neg h, if_neg h]

/-! ## The watch timer (R101, R102) -/

/-- The withdrawal of a condition that fails is the one that the statements write out (R96). -/
theorem withdraw_withdrawn (a : ActiveRoute) (cause : PermCause) (s : State) : withdraw a cause s = s.withdrawn a cause := rfl

theorem inOrder_map_foldl {α : Type} (g : α → State → State) (xs : List α) (s : State) :
    inOrder (xs.map g) s = xs.foldl (fun u x => g x u) s := by
  unfold inOrder
  rw [List.foldl_map]

/-- Two ways to carry out the same list of changes, equal where an invariant holds that they keep. -/
theorem foldl_congr_of_inv {α : Type} {P : State → Prop} {g g' : State → α → State} (heq : ∀ t a, P t → g t a = g' t a)
    (hkeep : ∀ t a, P t → P (g t a)) : ∀ (xs : List α) {t : State}, P t → xs.foldl g t = xs.foldl g' t
  | [], _, _ => rfl
  | a :: xs, t, h => by
    rw [List.foldl_cons, List.foldl_cons, foldl_congr_of_inv heq hkeep xs (hkeep t a h), heq t a h]

/-- A change of one signal seen at another or the same one. -/
theorem signal?_mapSignal_of {P : SignalRec → Prop} {s : State} {id : Nat} {y : SignalRec} (hy : s.signal? id = some y)
    (hP : P y) (g : Nat) {f : SignalRec → SignalRec} (hf : ∀ x, (f x).id = x.id) (hPf : P y → P (f y)) :
    ∃ z, (s.mapSignal g f).signal? id = some z ∧ P z := by
  by_cases h : g = id
  · subst h; exact ⟨f y, signal?_mapped f hf hy, hPf hP⟩
  · refine ⟨y, ?_, hP⟩
    rw [← hy]
    exact find?_map_other _ _ _ h _ hf _

/-- Settles O32: the withdrawals over the protected section, then the flag handed on. -/
theorem watchExpires : Obligations.WatchExpires := by
  unfold Obligations.WatchExpires
  intro id s x hx
  have hid : x.id = id := signal?_id hx
  have e : exec (.watchTimerExpiry id) s = .next (watchExpired id s) := rfl
  rw [e]
  unfold watchExpired
  rw [hx]
  dsimp only
  by_cases hm : x.watch.mode = .running
  · rw [if_pos hm, if_pos hm]
    generalize hv : emit (.unauthorizedProceed id x.protSec) (s.mapSignal id (fun y =>
      SignalRec.derive (param 7 s) { y with faulted := true, watch := ⟨.expired, 0⟩ })) = v
    have hrs : v.routes = s.routes ∧ v.store = s.store ∧ v.dev = s.dev := by rw [← hv]; exact ⟨rfl, rfl, rfl⟩
    have hlook : ∃ y, v.signal? id = some y ∧ y.status = x.derivedStatus ∧ y.faulted = true ∧ y.mask = x.mask := by
      rw [← hv]
      exact ⟨_, signal?_mapped _ (fun _ => rfl) hx, rfl, rfl, rfl⟩
    let done := (s.routes.filter (fun a => a.state == .permitted
        && (allSecs (s.defOf a.id) a.variant).contains x.protSec)).foldl
      (fun u a => emit (.routeState a.id (.state .locked) .withdrawn 0)
        ((emit (.permissionWithdrawn (s.defOf a.id).entry a.id (.unauthorized id))
          (u.mapSignal (s.defOf a.id).entry (fun y =>
            { y with perm := none, watch := SignalRec.watchTimer (param 7 s) { y with perm := none } }))).mapRoute a.id
          (fun y => { y with state := .locked, grantAllowed := false }))) v
    have hover : withdrawOver id x.protSec v = done := by
      have hp : permittedOver v x.protSec = s.routes.filter (fun a => a.state == .permitted
          && (allSecs (s.defOf a.id) a.variant).contains x.protSec) := by
        unfold permittedOver State.defOf State.def?
        rw [hrs.1, hrs.2.1]
      unfold withdrawOver
      rw [hp, inOrder_map_foldl]
      refine foldl_congr_of_inv (P := fun t => t.store = s.store ∧ t.dev = s.dev) ?_ ?_ _ hrs.2
      case refine_2 => exact fun t a h => h
      intro t a ht
      unfold withdraw setPerm State.defOf State.def? param
      rw [ht.1, ht.2]
    have hfinal : ∃ y, done.signal? id = some y ∧ y.status = x.derivedStatus ∧ y.faulted = true ∧ y.mask = x.mask := by
      refine foldl_ind (P := fun t => ∃ y, t.signal? id = some y ∧ y.status = x.derivedStatus ∧ y.faulted = true
        ∧ y.mask = x.mask) (fun t a ht => ?_) _ hlook
      obtain ⟨y, hy, hp⟩ := ht
      exact signal?_mapSignal_of (s := t) hy hp (s.defOf a.id).entry (fun _ => rfl) (fun h => h)
    obtain ⟨y, hy, hst, hf, hk⟩ := hfinal
    rw [hover]
    refine ⟨_, rfl, (reacts_closed done).signalChanged x (Reacts.refl done), ?_⟩
    have hch : signalChanged x done = if y.status ≠ x.status ∨ y.faulted ≠ x.faulted ∨ y.mask ≠ x.mask then
        handSignal id done else done := by
      unfold signalChanged
      rw [hid, hy]
    rw [hch]
    by_cases hsame : x.faulted = true ∧ x.derivedStatus = x.status
    · rw [if_pos hsame]
      refine if_neg ?_
      rw [hst, hf, hk, hsame.1, hsame.2]
      simp
    · rw [if_neg hsame, if_pos]
      · exact handSignal_inSomeOrder _ _
      · rw [hst, hf, hk]
        by_contra hn
        push Not at hn
        exact hsame ⟨hn.2.1.symm, hn.1⟩
  · rw [if_neg hm, if_neg hm]

end Sys2Proof.Machine

/-!
PROOFS. The examination of SET ROUTE and the choice of its flank options. O24, O25.
-/

namespace Sys2Proof.Machine

/-! ## The steps of the availability check (R47 to R49) -/

theorem atOrMoving_iff {x : PointRec} {p : Pos} : atOrMoving x p = true ↔ PointAt x p := by
  unfold atOrMoving PointAt
  rw [Bool.or_eq_true, beq_iff_eq, beq_iff_eq]

theorem checkSection_none_iff {s : State} {id : Nat} : checkSection s id = none ↔ SectionReady s id := by
  unfold checkSection SectionReady
  cases s.section? id with
  | none => simp
  | some x =>
    simp only [Option.some.injEq, exists_eq_left']
    split_ifs <;> simp_all

theorem checkPoint_none_iff {s : State} {q : PointReq} : checkPoint s q = none ↔ PointReady s q := by
  unfold checkPoint PointReady
  cases s.point? q.point with
  | none => simp
  | some x =>
    simp only [Option.some.injEq, exists_eq_left', ← atOrMoving_iff, or_iff_not_imp_left (a := x.claims = [])]
    split_ifs <;> simp_all

theorem checkSignal_none_iff {s : State} {d : RouteDef} : checkSignal s d = none ↔
    EntryReady s d.entry ∧ s.routes.length < 32 := by
  unfold checkSignal EntryReady
  cases s.signal? d.entry with
  | none => simp
  | some x =>
    simp only [Option.some.injEq, exists_eq_left', Config.maxActiveRoutes]
    rcases Nat.lt_or_ge s.routes.length 32 with hl | hl
    · simp only [Nat.not_le.2 hl, hl, if_false, and_true]
      split_ifs <;> simp_all
    · simp only [hl, Nat.not_lt.2 hl, if_true, and_false, iff_false]
      split_ifs <;> simp

theorem checkBoundary_none_iff {s : State} {d : RouteDef} : checkBoundary s d = none ↔ ExitReady s d := by
  unfold checkBoundary ExitReady
  cases d.exit with
  | signal g => simp
  | boundary ref =>
    simp only [RouteExit.boundary.injEq, forall_eq']
    cases s.slot? ref with
    | none => simp
    | some x =>
      simp only [Option.some.injEq, exists_eq_left']
      split_ifs <;> simp_all

/-- The first failure of a list stands behind members that pass. -/
theorem findSome?_first {α β : Type} {g : α → Option β} {before after : List α} {a : α} {b : β}
    (hb : ∀ x ∈ before, g x = none) (ha : g a = some b) : (before ++ a :: after).findSome? g = some b := by
  rw [List.findSome?_append, List.findSome?_eq_none_iff.2 hb, Option.none_or, List.findSome?_cons, ha]

/-- The whole check, step by step. -/
def availability (s : State) (d : RouteDef) (v : Option Nat) : Refused :=
  (checkSignal s d).or (((allSecs d v).findSome? (checkSection s)).or
    (((allPoints d v).findSome? (checkPoint s)).or (checkBoundary s d)))

theorem decideNewRoute_refused {s : State} {d : RouteDef} {v : Option Nat} {out : Status} {detail : Nat}
    (h : availability s d v = some (out, detail)) : decideNewRoute d v s = .plain out detail := by
  unfold decideNewRoute
  unfold availability at h
  rw [h]

theorem decideNewRoute_passed {s : State} {d : RouteDef} {v : Option Nat} (h : availability s d v = none) :
    decideNewRoute d v s = match chooseFlanks s d v d.flanks [] [] with
      | .error i => .plain .noFlank i
      | .ok (flanks, opts) => { out := .done, detail := 0, act := enterCalling d v flanks opts } := by
  unfold decideNewRoute
  unfold availability at h
  rw [h] <;> rfl

theorem availability_paired (s : State) (f : RequestFrame) (d : RouteDef) (v : Option Nat) :
    availability (s.paired f) d v = availability s d v := by
  have h1 : checkSection (s.paired f) = checkSection s := by
    funext id; unfold checkSection; rw [State.paired_section?]
  have h2 : checkPoint (s.paired f) = checkPoint s := by
    funext q; unfold checkPoint secStatusIs; simp only [State.paired_point?, State.paired_section?]
  have h3 : checkSignal (s.paired f) d = checkSignal s d := by
    unfold checkSignal; rw [State.paired_signal?, State.paired_routes]
  have h4 : checkBoundary (s.paired f) d = checkBoundary s d := by
    unfold checkBoundary; simp only [State.paired_slot?]
  unfold availability
  rw [h1, h2, h3, h4]

section Availability
variable {s : State} {d : RouteDef} {v : Option Nat}

theorem availability_signal {p : Status × Nat} (h : checkSignal s d = some p) : availability s d v = some p := by
  unfold availability; rw [h]; rfl

theorem availability_section (hsig : checkSignal s d = none) {before after : List Nat} {id : Nat} {p : Status × Nat}
    (hl : allSecs d v = before ++ id :: after) (hb : ∀ i ∈ before, SectionReady s i) (h : checkSection s id = some p) :
    availability s d v = some p := by
  unfold availability
  rw [hsig, Option.none_or, hl, findSome?_first (fun i hi => checkSection_none_iff.2 (hb i hi)) h]
  rfl

theorem availability_point (hsig : checkSignal s d = none) (hsec : ∀ i ∈ allSecs d v, SectionReady s i)
    {before after : List PointReq} {q : PointReq} {p : Status × Nat} (hl : allPoints d v = before ++ q :: after)
    (hb : ∀ i ∈ before, PointReady s i) (h : checkPoint s q = some p) : availability s d v = some p := by
  unfold availability
  rw [hsig, Option.none_or, List.findSome?_eq_none_iff.2 (fun i hi => checkSection_none_iff.2 (hsec i hi)), Option.none_or, hl,
    findSome?_first (fun i hi => checkPoint_none_iff.2 (hb i hi)) h]
  rfl

theorem availability_boundary (hsig : checkSignal s d = none) (hsec : ∀ i ∈ allSecs d v, SectionReady s i)
    (hpt : ∀ q ∈ allPoints d v, PointReady s q) : availability s d v = checkBoundary s d := by
  unfold availability
  rw [hsig, Option.none_or, List.findSome?_eq_none_iff.2 (fun i hi => checkSection_none_iff.2 (hsec i hi)), Option.none_or,
    List.findSome?_eq_none_iff.2 (fun i hi => checkPoint_none_iff.2 (hpt i hi)), Option.none_or]

end Availability

/-- Settles O24, step by step of the availability check. -/
theorem setRouteExamination : Obligations.SetRouteExamination := by
  unfold Obligations.SetRouteExamination
  intro ch tag r v s c f hf
  have hdec : decide f.ch f.kind f.body (s.paired f) = decideSetRoute r.toNat v.toNat (s.paired f) := rfl
  unfold decideSetRoute at hdec
  rw [State.paired_def?, State.paired_route?] at hdec
  split
  · next hd => rw [hd] at hdec; exact refuses_of rfl hf hdec
  · next d hd =>
    rw [hd] at hdec
    refine refuses_line rfl hf hdec fun hvar hdec => ?_
    split
    · next a ha =>
      rw [ha] at hdec
      dsimp only at hdec
      split
      · next hl => exact concurs_of rfl hf (hdec.trans (if_pos hl)) ⟨(reacts_closed _).permOn _ (Reacts.refl _), rfl⟩
      · next hl => exact refuses_of rfl hf (hdec.trans (if_neg hl))
    · next hr =>
      intro var g hg
      rw [hr] at hdec
      have refused {out : Status} {detail : Nat} (h : availability s d var = some (out, detail)) : Refuses c f s out detail :=
        refuses_of rfl hf (hdec.trans (decideNewRoute_refused ((availability_paired s f d var).trans h)))
      have hsig : checkSignal s d = if g.entryOf ≠ none then some (.signalBusy, d.entry)
          else if g.claims ≠ [] then some (.held, d.entry)
          else if g.block = true then some (.blocked, d.entry)
          else if g.faulted = true then some (.faulted, d.entry)
          else if 32 ≤ s.routes.length then some (.listFull, 0) else none := by
        unfold checkSignal; rw [hg]; rfl
      split_ifs at hsig ⊢
      · exact refused (availability_signal hsig)
      · exact refused (availability_signal hsig)
      · exact refused (availability_signal hsig)
      · exact refused (availability_signal hsig)
      · exact refused (availability_signal hsig)
      refine ⟨fun before id after x hl hb hx => ?_, fun hsec => ⟨?_, fun hpt ref x hexit hx => ?_⟩⟩
      · have hcheck : checkSection s id = if x.holder ≠ .none then some (.held, id)
            else if x.block = true then some (.blocked, id) else if x.faulted = true then some (.faulted, id) else none := by
          unfold checkSection; rw [hx]
        have at_ {p : Status × Nat} (h : checkSection s id = some p) : availability s d var = some p :=
          availability_section hsig hl hb h
        exact ⟨fun h1 => refused (at_ (by rw [hcheck, if_pos h1])),
          fun h1 h2 => refused (at_ (by rw [hcheck, if_neg (not_not.2 h1), if_pos h2])),
          fun h1 h2 h3 => refused (at_ (by rw [hcheck, if_neg (not_not.2 h1), if_neg (by simp [h2]), if_pos h3]))⟩
      · intro before q after x hl hb hx claimed
        have hcheck : checkPoint s q = if x.hold ≠ .none then some (.held, q.point)
            else if claimed then some (.held, q.point)
            else if x.faulted = true then some (.faulted, q.point)
            else if atOrMoving x q.pos = true then none
            else if x.block = true then some (.blocked, q.point)
            else if secStatusIs s x.sec .clear = false then some (.occupied, q.point) else none := by
          unfold checkPoint; rw [hx]
        have at_ {p : Status × Nat} (h : checkPoint s q = some p) : availability s d var = some p :=
          availability_point hsig hsec hl hb h
        refine ⟨fun h1 => refused (at_ ?_), fun h1 h2 h3 => refused (at_ ?_), fun h1 h2 h3 h4 h5 => refused (at_ ?_),
          fun h1 h2 h3 h4 h5 h6 => refused (at_ ?_)⟩
        · rw [hcheck]
          by_cases h : x.hold ≠ .none
          · rw [if_pos h]
          · rw [if_neg h, if_pos (h1.resolve_left h)]
        · rw [hcheck, if_neg (not_not.2 h1), if_neg h2, if_pos h3]
        · rw [hcheck, if_neg (not_not.2 h1), if_neg h2, if_neg (by simp [h3]), if_neg (mt atOrMoving_iff.1 h4), if_pos h5]
        · rw [hcheck, if_neg (not_not.2 h1), if_neg h2, if_neg (by simp [h3]), if_neg (mt atOrMoving_iff.1 h4),
            if_neg (by simp [h5]), if_pos h6]
      · have hcheck : checkBoundary s d = if x.permit ≠ .heldHere then some (.noPermit, slotDetail ref)
            else if x.block = true then some (.blocked, slotDetail ref) else none := by
          unfold checkBoundary; rw [hexit]; dsimp only; rw [hx]
        exact ⟨fun h1 => refused ((availability_boundary hsig hsec hpt).trans (by rw [hcheck, if_pos h1]; rfl)),
          fun h1 h2 => refused ((availability_boundary hsig hsec hpt).trans
            (by rw [hcheck, if_neg (not_not.2 h1), if_pos h2]; rfl))⟩

/-! ## The choice of flank options (R49) -/

section FlankChoice
variable {s : State} {d : RouteDef} {v : Option Nat}

theorem obtainable_point_iff (chosen : List FlankRec) (id : Nat) (pos : Pos) :
    obtainable s d v chosen (.point id pos) = true ↔ ∃ x, s.point? id = some x
      ∧ (match (allPoints d v).find? (fun q => q.point == id) with
          | some q => q.pos = pos
          | none => x.hold = .none)
      ∧ (x.claims = [] ∨ x.claimPos = some pos)
      ∧ (∀ f ∈ chosen, f.opt.element = id → f.opt = .point id pos)
      ∧ x.claims.length + (chosen.filter (fun f => f.opt.element == id)).length < Config.maxClaims
      ∧ x.faulted = false
      ∧ (PointAt x pos ∨ (x.block = false ∧ secStatusIs s x.sec .clear = true)) := by
  unfold obtainable movable chosenOn
  cases hx : s.point? id with
  | none => simp [hx]
  | some x =>
    have hprim : (match (allPoints d v).find? (fun q => q.point == id) with
        | some q => q.pos == pos
        | none => x.hold == .none) = true ↔ (match (allPoints d v).find? (fun q => q.point == id) with
        | some q => q.pos = pos
        | none => x.hold = .none) := by
      split <;> exact beq_iff_eq
    have hall : chosen.all (fun f => f.opt.element != id || f.opt == .point id pos) = true ↔
        ∀ f ∈ chosen, f.opt.element = id → f.opt = .point id pos := by
      rw [List.all_eq_true]
      refine forall_congr' fun f => forall_congr' fun _ => ?_
      rw [Bool.or_eq_true, bne_iff_ne, beq_iff_eq, or_iff_not_imp_left, not_not]
    simp only [hx, Option.some.injEq, exists_eq_left', Bool.and_eq_true, Bool.or_eq_true, hall, atOrMoving_iff,
      Bool.not_eq_true', decide_eq_true_iff, List.isEmpty_iff, beq_iff_eq, and_assoc]
    rw [← hprim] <;> rfl

theorem obtainable_signal_iff (chosen : List FlankRec) (id : Nat) :
    obtainable s d v chosen (.signal id) = true ↔ ∃ x, s.signal? id = some x
      ∧ x.perm = none ∧ (∀ a ∈ s.routes, a.state = .permitted → (s.defOf a.id).entry ≠ id)
      ∧ x.claims.length + (chosen.filter (fun f => f.opt.element == id)).length < Config.maxClaims := by
  unfold obtainable chosenOn
  cases hx : s.signal? id with
  | none => simp [hx]
  | some x => simp [hx, and_assoc]

/-- The entry at place `i` has the first option that is obtainable with the choices before it (R49). -/
def ChoosesAt (s : State) (d : RouteDef) (v : Option Nat) (chosen flanks : List FlankRec) (opts : List Nat) (i : Nat)
    (e : FlankDef) : Prop :=
  ∃ k o, opts[i]? = some (k + 1) ∧ e.options[k]? = some o
    ∧ flanks[i]? = some ⟨e.index, e.guard, o, true, optSatisfied s o⟩
    ∧ obtainable s d v (chosen ++ flanks.take i) o = true
    ∧ ∀ j o', j < k → e.options[j]? = some o' → obtainable s d v (chosen ++ flanks.take i) o' = false

/-- One entry with an obtainable option. -/
theorem chooseFlanks_cons {e : FlankDef} {rest : List FlankDef} {chosen : List FlankRec} {opts : List Nat} {k : Nat}
    {o : FlankOpt} (hk : e.options.findIdx? (obtainable s d v chosen) = some k) (ho : e.options[k]? = some o) :
    chooseFlanks s d v (e :: rest) chosen opts =
      chooseFlanks s d v rest (chosen ++ [flankRecOf s e o]) (opts ++ [k + 1]) := by
  rw [chooseFlanks, hk]
  dsimp only
  rw [ho]

theorem chooseFlanks_none {e : FlankDef} {rest : List FlankDef} {chosen : List FlankRec} {opts : List Nat}
    (hk : e.options.findIdx? (obtainable s d v chosen) = none) :
    chooseFlanks s d v (e :: rest) chosen opts = .error e.index := by
  rw [chooseFlanks, hk]

/-- The first obtainable option of an entry, if it has one. -/
theorem findIdx?_obtainable (e : FlankDef) (chosen : List FlankRec) :
    (e.options.findIdx? (obtainable s d v chosen) = none ∧ ∀ o ∈ e.options, obtainable s d v chosen o = false)
    ∨ ∃ k o, e.options.findIdx? (obtainable s d v chosen) = some k ∧ e.options[k]? = some o
      ∧ obtainable s d v chosen o = true
      ∧ ∀ j o', j < k → e.options[j]? = some o' → obtainable s d v chosen o' = false := by
  cases hk : e.options.findIdx? (obtainable s d v chosen) with
  | none => exact .inl ⟨rfl, List.findIdx?_eq_none_iff.1 hk⟩
  | some k =>
    obtain ⟨hlt, ho, hfirst⟩ := List.findIdx?_eq_some_iff_getElem.1 hk
    refine .inr ⟨k, e.options[k], rfl, List.getElem?_eq_getElem hlt, ho, fun j o' hj he => ?_⟩
    obtain ⟨hjl, he⟩ := List.getElem?_eq_some_iff.1 he
    have := hfirst j hj
    rw [he] at this
    simpa using this

theorem chooseFlanks_ok : ∀ (entries : List FlankDef) (chosen : List FlankRec) (opts : List Nat) {flanks : List FlankRec}
    {opts' : List Nat}, chooseFlanks s d v entries chosen opts = .ok (flanks, opts') →
    ∃ fs os, flanks = chosen ++ fs ∧ opts' = opts ++ os ∧ fs.length = entries.length ∧ os.length = entries.length
      ∧ ∀ i e, entries[i]? = some e → ChoosesAt s d v chosen fs os i e
  | [], chosen, opts, flanks, opts', h => by
    rw [chooseFlanks, Except.ok.injEq, Prod.mk.injEq] at h
    exact ⟨[], [], by simp [h.1], by simp [h.2], rfl, rfl, fun i e he => by simp at he⟩
  | e :: rest, chosen, opts, flanks, opts', h => by
    rcases findIdx?_obtainable (s := s) (d := d) (v := v) e chosen with ⟨hk, -⟩ | ⟨k, o, hk, ho, hob, hfirst⟩
    · rw [chooseFlanks_none hk] at h; cases h
    · rw [chooseFlanks_cons hk ho] at h
      obtain ⟨fs, os, hfs, hos, hfl, hol, hall⟩ := chooseFlanks_ok rest _ _ h
      refine ⟨flankRecOf s e o :: fs, (k + 1) :: os, by rw [hfs]; simp, by rw [hos]; simp, by simp [hfl], by simp [hol],
        fun i e' he => ?_⟩
      cases i with
      | zero =>
        rw [List.getElem?_cons_zero, Option.some.injEq] at he
        subst he
        refine ⟨k, o, rfl, ho, rfl, ?_, ?_⟩
        · rwa [List.take_zero, List.append_nil]
        · rwa [List.take_zero, List.append_nil]
      | succ i =>
        obtain ⟨k', o', h1, h2, h3, h4, h5⟩ := hall i e' he
        refine ⟨k', o', h1, h2, h3, ?_, ?_⟩
        · rwa [List.take_succ_cons, List.append_cons]
        · rwa [List.take_succ_cons, List.append_cons]

theorem chooseFlanks_error : ∀ (entries : List FlankDef) (chosen : List FlankRec) (opts : List Nat) {index : Nat},
    chooseFlanks s d v entries chosen opts = .error index →
    ∃ before e after flanks opts', entries = before ++ e :: after ∧ e.index = index
      ∧ chooseFlanks s d v before chosen opts = .ok (flanks, opts')
      ∧ ∀ o ∈ e.options, obtainable s d v flanks o = false
  | [], chosen, opts, index, h => by rw [chooseFlanks] at h; cases h
  | e :: rest, chosen, opts, index, h => by
    rcases findIdx?_obtainable (s := s) (d := d) (v := v) e chosen with ⟨hk, hnone⟩ | ⟨k, o, hk, ho, -, -⟩
    · rw [chooseFlanks_none hk, Except.error.injEq] at h
      exact ⟨[], e, rest, chosen, opts, rfl, h, rfl, hnone⟩
    · rw [chooseFlanks_cons hk ho] at h
      obtain ⟨before, e', after, flanks, opts', hl, hi, hok, hnone⟩ := chooseFlanks_error rest _ _ h
      exact ⟨e :: before, e', after, flanks, opts', by rw [hl]; rfl, hi, (chooseFlanks_cons hk ho).trans hok, hnone⟩

end FlankChoice

/-- Settles O25, entry by entry. -/
theorem firstObtainableOption : Obligations.FirstObtainableOption := by
  unfold Obligations.FirstObtainableOption
  refine ⟨fun s d v chosen => ⟨obtainable_point_iff chosen, obtainable_signal_iff chosen⟩, fun s d v entries => ⟨?_, ?_⟩⟩
  · intro flanks opts h
    obtain ⟨fs, os, rfl, rfl, hfl, hol, hall⟩ := chooseFlanks_ok entries [] [] h
    exact ⟨hfl, hol, hall⟩
  · intro index h
    exact chooseFlanks_error entries [] [] h

end Sys2Proof.Machine

/-!
PROOFS. The take of SET ROUTE, its move calls, and what settles after them. O26.
-/

namespace Sys2Proof.Machine

/-! ## What follows a call (R9, R15) -/

theorem completeMove_eq (x : PointRec) (m : Move) (s : State) :
    let took := (s.dev.time - m.start).toNat
    let finished := emit (.moveDone x.id m.target took) (s.mapPoint x.id (fun y =>
      PointRec.derive (param 6 s) { y with move := none, moveTimer := ⟨.stopped, 0⟩, lastMove := took }))
    completeMove x m s = handPoint x.id
      (if param 15 s * x.supTime < took * 100 then emit (.pointSlow x.id took x.supTime) finished else finished) := rfl

/-- What the move calls settle in: the units' reactions, and moves that end at once. -/
theorem settles_iff {u w : State} : Settles u w ↔ ∃ b, (b = u ∨ ∃ (t : State) (x : PointRec) (m : Move), Settles u t
    ∧ t.point? x.id = some x ∧ x.move = some m ∧ m.start = t.dev.time ∧ x.viewA = viewOfPos m.target
    ∧ x.viewB = viewOfPos m.target
    ∧ b = emit (.moveDone x.id m.target 0) (t.mapPoint x.id (PointRec.arrived (param 6 t)))) ∧ Reacts b w := by
  constructor
  · intro h
    cases h with
    | reacts _ h => exact ⟨u, .inl rfl, h⟩
    | completes t _ x m ht hx hm hs ha hb h => exact ⟨_, .inr ⟨t, x, m, ht, hx, hm, hs, ha, hb, rfl⟩, h⟩
  · rintro ⟨b, rfl | ⟨t, x, m, ht, hx, hm, hs, ha, hb, rfl⟩, h⟩
    · exact .reacts _ h
    · exact .completes t w x m ht hx hm hs ha hb h

/-- What the units do after one of some states. -/
theorem reachedFrom_closed (B : State → Prop) : UnitClosed (fun w => ∃ b, B b ∧ Reacts b w) where
  choice _ c d := fun ⟨b, hb, h⟩ => ⟨b, hb, (reacts_closed b).choice _ c d h⟩
  emit _ e := fun ⟨b, hb, h⟩ => ⟨b, hb, (reacts_closed b).emit _ e h⟩; sections _ f hf :=
    fun ⟨b, hb, h⟩ => ⟨b, hb, (reacts_closed b).sections _ f hf h⟩
  points _ f hf := fun ⟨b, hb, h⟩ => ⟨b, hb, (reacts_closed b).points _ f hf h⟩
  signals _ f hf := fun ⟨b, hb, h⟩ => ⟨b, hb, (reacts_closed b).signals _ f hf h⟩
  routes _ f hf := fun ⟨b, hb, h⟩ => ⟨b, hb, (reacts_closed b).routes _ f hf h⟩
  slots _ f hf := fun ⟨b, hb, h⟩ => ⟨b, hb, (reacts_closed b).slots _ f hf h⟩
  grant _ a h1 h2 h3 := fun ⟨b, hb, h⟩ => ⟨b, hb, (reacts_closed b).grant _ a h1 h2 h3 h⟩
  dropRoute _ r := fun ⟨b, hb, h⟩ => ⟨b, hb, (reacts_closed b).dropRoute _ r h⟩

theorem settles_closed (u : State) : UnitClosed (Settles u) := by
  have e : Settles u = fun w => ∃ b, _ ∧ Reacts b w := funext fun w => propext settles_iff
  rw [e]
  exact reachedFrom_closed _

/-- A move in flight at one of the points began at the present device time. -/
def Timed (ids : List Nat) (t : State) : Prop :=
  ∀ id ∈ ids, ∀ x m, t.point? id = some x → x.move = some m → m.start = t.dev.time

theorem Timed.reacts {ids : List Nat} {t w : State} (h : Timed ids t) (hr : Reacts t w) : Timed ids w := by
  intro id hid y m hy hm
  have hrel := hr.point?_rel id
  rw [hy] at hrel
  generalize ho : t.point? id = o at hrel
  cases hrel with
  | some hc =>
    have hmove (a b : PointRec) (h : b.core = a.core) : b.move = a.move := show b.core.move = a.core.move by rw [h]
    rw [hr.dev]
    exact h id hid _ m ho ((hmove _ _ hc).symm.trans hm)

theorem point?_mapPoint_other {id k : Nat} {f : PointRec → PointRec} {t : State} (h : id ≠ k) (hf : ∀ x, (f x).id = x.id) :
    (t.mapPoint id f).point? k = t.point? k := find?_map_other _ _ _ h _ hf _

/-- A change of one point that leaves it no move, or one that begins now. -/
theorem Timed.mapPoint {ids : List Nat} {t : State} (id : Nat) {f : PointRec → PointRec} (hf : ∀ x, (f x).id = x.id)
    (hm : ∀ x m, (f x).move = some m → m.start = t.dev.time) (h : ∀ k ∈ ids, k ≠ id → Timed [k] t) :
    Timed ids (t.mapPoint id f) := by
  intro k hk y m hy hym
  by_cases e : id = k
  · subst e
    rw [point?_map hf] at hy
    obtain ⟨x, -, rfl⟩ := Option.map_eq_some_iff.1 hy
    exact hm x m hym
  · have hy' : t.point? k = some y := by
      rw [← hy]; exact (point?_mapPoint_other e hf).symm
    exact h k hk (Ne.symm e) k (List.mem_singleton.2 rfl) y m hy' hym

theorem Timed.emit {ids : List Nat} {t : State} (h : Timed ids t) (e : Event) : Timed ids (emit e t) := h

theorem Timed.single {ids : List Nat} {t : State} (h : Timed ids t) {id : Nat} (hid : id ∈ ids) : Timed [id] t := by
  intro k hk
  rw [List.mem_singleton.1 hk]
  exact h id hid

/-- Settling a call of just now: the move ends at once, or its change is handed on (R9, R10, R15). -/
theorem settles_settleCall {u t : State} {ids : List Nat} {id : Nat} (hid : id ∈ ids) (h : Settles u t) (ht : Timed ids t) :
    Settles u (settleCall id t) ∧ Timed ids (settleCall id t) := by
  unfold settleCall
  cases hx : t.point? id with
  | none => exact ⟨h, ht⟩
  | some x =>
    have hxid : x.id = id := point?_id hx
    dsimp only
    cases hm : x.move with
    | none => exact ⟨h, ht⟩
    | some m =>
      dsimp only
      have hstart := ht id hid x m hx hm
      by_cases hb : x.bothAt m.target = true
      · rw [if_pos hb, completeMove_at_once hstart]
        obtain ⟨ha, hb⟩ := bothAt_iff.1 hb
        have hr := reacts_handPoint x.id (emit (.moveDone x.id m.target 0) (t.mapPoint x.id (PointRec.arrived (param 6 t))))
        refine ⟨.completes t _ x m h (by rw [hxid]; exact hx) hm hstart ha hb hr, Timed.reacts ?_ hr⟩
        exact (Timed.mapPoint x.id (f := PointRec.arrived (param 6 t)) (fun _ => rfl) (fun y m' hm' => nomatch (show none = some m' from hm')) fun k hk _ => ht.single hk).emit _
      · rw [if_neg hb]
        exact ⟨(settles_closed u).handPoint _ h, ht.reacts (reacts_handPoint _ _)⟩

/-! ## The move calls (R59) -/

section MoveCalls
variable {calls : List PointReq}

/-- Points called once each, that no move toward their position is in flight at, are all called. -/
theorem inOrder_issueCall (time : Word) : ∀ {calls : List PointReq} {t : State}, calls.Pairwise (fun p q => p.point ≠ q.point) →
    t.dev.time = time → (∀ q ∈ calls, ∃ x, t.point? q.point = some x ∧ x.move.map (·.target) ≠ some q.pos) →
    inOrder (calls.map (fun q => issueCall q.point q.pos)) t =
      calls.foldl (fun t q => emit (.moveCall q.point q.pos) (t.mapPoint q.point (PointRec.called ⟨q.pos, time⟩))) t
  | [], _, _, _, _ => rfl
  | q :: calls, t, hp, htime, hc => by
    obtain ⟨hq, hp⟩ := List.pairwise_cons.1 hp
    obtain ⟨x, hx, hm⟩ := hc q (List.mem_cons_self ..)
    have e := issueCall_of_ne hx hm
    rw [htime] at e
    rw [List.map_cons, List.foldl_cons, ← e]
    refine inOrder_issueCall time (t := issueCall q.point q.pos t) hp (by rw [e]; exact htime) fun p hpm => ?_
    obtain ⟨y, hy, hym⟩ := hc p (List.mem_cons_of_mem _ hpm)
    refine ⟨y, ?_, hym⟩
    rw [← hy, e]
    exact point?_mapPoint_other (hq p hpm) (fun _ => rfl)

/-- The calls leave at the called points moves of just now alone. -/
theorem timed_calls (time : Word) : ∀ (calls : List PointReq) {ids : List Nat} {t : State}, t.dev.time = time → Timed ids t →
    Timed (ids ++ calls.map (·.point)) (calls.foldl
      (fun t q => emit (.moveCall q.point q.pos) (t.mapPoint q.point (PointRec.called ⟨q.pos, time⟩))) t)
  | [], ids, t, _, h => by rw [List.map_nil, List.append_nil]; exact h
  | q :: calls, ids, t, htime, h => by
    rw [List.foldl_cons, List.map_cons, List.append_cons]
    refine timed_calls time calls htime (Timed.emit ?_ _)
    refine Timed.mapPoint q.point (fun _ => rfl) (fun x m hm => ?_) fun k hk hne => ?_
    · cases hm; exact htime.symm
    · rcases List.mem_append.1 hk with hk | hk
      · exact h.single hk
      · exact absurd (List.mem_singleton.1 hk) hne

/-- The first place of each point in a list. -/
theorem firsts_eq (needed acc : List PointReq) :
    needed.foldl (fun acc q => if acc.any (fun p => p.point == q.point) then acc else acc ++ [q]) acc =
      List.eraseDupsBy.loop (fun p q => p.point == q.point) needed acc.reverse := by
  induction needed generalizing acc with
  | nil => rw [List.eraseDupsBy.loop, List.reverse_reverse]; rfl
  | cons q needed ih =>
    have hany : acc.reverse.any (fun p => q.point == p.point) = acc.any (fun p => p.point == q.point) := by
      rw [List.any_reverse]
      congr 1
      funext p
      exact Bool.eq_iff_iff.2 (by rw [beq_iff_eq, beq_iff_eq]; exact eq_comm)
    rw [List.foldl_cons, List.eraseDupsBy.loop, hany]
    cases acc.any (fun p => p.point == q.point) with
    | true => exact ih acc
    | false =>
      rw [if_neg Bool.false_ne_true, ih, List.reverse_append]
      rfl

theorem firsts_pairwise (needed : List PointReq) : ∀ {acc : List PointReq}, acc.Pairwise (fun p q => p.point ≠ q.point) →
    (needed.foldl (fun acc q => if acc.any (fun p => p.point == q.point) then acc else acc ++ [q]) acc).Pairwise
      (fun p q => p.point ≠ q.point) := by
  induction needed with
  | nil => exact fun h => h
  | cons q needed ih =>
    intro acc h
    rw [List.foldl_cons]
    refine ih ?_
    split
    · exact h
    · next hn =>
      refine List.pairwise_append.2 ⟨h, List.pairwise_singleton _ _, fun p hp q' hq' => ?_⟩
      rw [List.mem_singleton.1 hq']
      intro e
      exact hn (List.any_eq_true.2 ⟨p, hp, beq_iff_eq.2 e⟩)

end MoveCalls

/-! ## The take (R50, R77) -/

/-- The claims that the chosen options add to an element. -/
def claimsFor (r : Nat) (flanks : List FlankRec) (o : FlankOpt → Bool) : List Claim :=
  (flanks.filter (fun g => o g.opt)).map (fun g => ⟨r, g.index⟩)

/-- The position that the last chosen option on a point asks of it. -/
def claimPosFor (flanks : List FlankRec) (id : Nat) : Option Pos :=
  (flanks.filterMap (fun g => match g.opt with
    | .point k pos => if k = id then some pos else none
    | .signal _ => none)).getLast?

def PointRec.claimed (r : Nat) (flanks : List FlankRec) (x : PointRec) : PointRec :=
  { x with claims := x.claims ++ claimsFor r flanks (fun o => o == .point x.id .normal || o == .point x.id .reverse)
           claimPos := (claimPosFor flanks x.id).or x.claimPos }

def SignalRec.claimed (r : Nat) (flanks : List FlankRec) (x : SignalRec) : SignalRec :=
  { x with claims := x.claims ++ claimsFor r flanks (fun o => o == .signal x.id) }

theorem claimsFor_cons (r : Nat) (f : FlankRec) (flanks : List FlankRec) (o : FlankOpt → Bool) :
    claimsFor r (f :: flanks) o = (if o f.opt then [⟨r, f.index⟩] else []) ++ claimsFor r flanks o := by
  unfold claimsFor
  rw [List.filter_cons]
  split <;> rfl

theorem claimPosFor_cons (f : FlankRec) (flanks : List FlankRec) (id : Nat) (before : Option Pos) :
    (claimPosFor (f :: flanks) id).or before = (claimPosFor flanks id).or (match f.opt with
      | .point k pos => if k = id then some pos else before
      | .signal _ => before) := by
  unfold claimPosFor
  rw [List.filterMap_cons]
  cases f.opt with
  | signal k => rfl
  | point k pos =>
    dsimp only
    split
    · next h =>
      split at h
      · cases h
      · next hn => rw [if_neg hn]
    · next h =>
      split at h
      · next he =>
        rw [Option.some.injEq] at h
        subst h
        rw [if_pos he, List.getLast?_cons]
        cases (List.filterMap _ flanks).getLast? <;> rfl
      · cases h

/-- The claims of the chosen options, one after another, come to one change of each element. -/
theorem inOrder_addClaim (r : Nat) : ∀ (flanks : List FlankRec) (s : State), inOrder (flanks.map (addClaim r)) s =
    { s with points := s.points.map (PointRec.claimed r flanks), signals := s.signals.map (SignalRec.claimed r flanks) }
  | [], s => by
    have hp : PointRec.claimed r [] = id := by
      funext x; simp [PointRec.claimed, claimsFor, claimPosFor]
    have hg : SignalRec.claimed r [] = id := by
      funext x; simp [SignalRec.claimed, claimsFor]
    rw [hp, hg, List.map_id, List.map_id]; rfl
  | f :: flanks, s => by
    have ih := inOrder_addClaim r flanks (addClaim r f s)
    refine ih.trans ?_
    have hp : (addClaim r f s).points.map (PointRec.claimed r flanks) = s.points.map (PointRec.claimed r (f :: flanks)) := by
      unfold addClaim
      cases ho : f.opt with
      | signal k =>
        refine List.map_congr_left (fun x _ => ?_)
        unfold PointRec.claimed
        rw [claimsFor_cons, claimPosFor_cons, ho]
        rfl
      | point k pos =>
        show (s.points.map _).map _ = _
        rw [List.map_map]
        refine List.map_congr_left (fun x _ => ?_)
        unfold PointRec.claimed
        rw [claimsFor_cons, claimPosFor_cons, ho]
        dsimp only [Function.comp]
        by_cases hk : x.id = k
        · subst hk
          cases pos <;> simp
        · have hk' : ¬ k = x.id := Ne.symm hk
          cases pos <;> simp [hk, hk']
    have hg : (addClaim r f s).signals.map (SignalRec.claimed r flanks) = s.signals.map (SignalRec.claimed r (f :: flanks)) := by
      unfold addClaim
      cases ho : f.opt with
      | point k pos =>
        refine List.map_congr_left (fun x _ => ?_)
        unfold SignalRec.claimed
        rw [claimsFor_cons, ho]
        rfl
      | signal k =>
        show (s.signals.map _).map _ = _
        rw [List.map_map]
        refine List.map_congr_left (fun x _ => ?_)
        unfold SignalRec.claimed
        rw [claimsFor_cons, ho]
        dsimp only [Function.comp]
        by_cases hk : x.id = k
        · subst hk; simp
        · simp [hk, Ne.symm hk]
    rw [hp, hg]
    unfold addClaim
    cases f.opt <;> rfl

/-- A point after the take (R50, R77). -/
def PointRec.taken (d : RouteDef) (v : Option Nat) (flanks : List FlankRec) (x : PointRec) : PointRec := { x with
  hold := (match d.points.find? (fun q => q.point == x.id), (overlapPoints d v).find? (fun q => q.point == x.id) with
    | some q, _ => .route d.id q.pos
    | none, some q => .overlap d.id q.pos
    | none, none => x.hold)
  claims := x.claims ++ claimsFor d.id flanks (fun o => o == .point x.id .normal || o == .point x.id .reverse)
  claimPos := (claimPosFor flanks x.id).or x.claimPos }

/-- The one change in which SET ROUTE takes everything, as O26 writes it out. -/
def State.taken (u : State) (d : RouteDef) (v : Option Nat) (flanks : List FlankRec) (opts : List Nat) : State := { u with
  points := u.points.map (PointRec.taken d v flanks), sections := u.sections.map (fun x => { x with
    holder := if x.id ∈ d.secs then .route d.id else if x.id ∈ overlapSecs d v then .overlap d.id else x.holder })
  signals := u.signals.map (fun x => { x with
    entryOf := if x.id = d.entry then some d.id else x.entryOf
    claims := x.claims ++ claimsFor d.id flanks (fun o => o == .signal x.id) })
  routes := u.routes ++ [newRecord d v flanks opts (param 11 u)] }

theorem takeRoute_taken (d : RouteDef) (v : Option Nat) (flanks : List FlankRec) (opts : List Nat) (u : State) :
    takeRoute d v flanks opts u = u.taken d v flanks opts := by
  unfold takeRoute State.taken
  dsimp only
  rw [inOrder_addClaim]
  have h1 : u.sections.map (takenHolder d v) = u.sections.map (fun x => { x with
      holder := if x.id ∈ d.secs then .route d.id else if x.id ∈ overlapSecs d v then .overlap d.id else x.holder }) := by
    refine List.map_congr_left (fun x _ => ?_)
    unfold takenHolder
    simp only [List.contains_iff_mem]
    split_ifs <;> rfl
  have h2 : (u.points.map (takenHold d v)).map (PointRec.claimed d.id flanks) =
      u.points.map (PointRec.taken d v flanks) := by
    rw [List.map_map]
    refine List.map_congr_left (fun x _ => ?_)
    dsimp only [Function.comp]
    unfold takenHold PointRec.claimed PointRec.taken
    cases h1 : d.points.find? (fun q => q.point == x.id) with
    | some q => rfl
    | none => cases h2 : (overlapPoints d v).find? (fun q => q.point == x.id) <;> rfl
  have h3 : (u.signals.map (fun x => if x.id = d.entry then { x with entryOf := some d.id } else x)).map
      (SignalRec.claimed d.id flanks) = u.signals.map (fun x => { x with
        entryOf := if x.id = d.entry then some d.id else x.entryOf
        claims := x.claims ++ claimsFor d.id flanks (fun o => o == .signal x.id) }) := by
    rw [List.map_map]
    refine List.map_congr_left (fun x _ => ?_)
    dsimp only [Function.comp]
    unfold SignalRec.claimed
    split_ifs <;> rfl
  exact State.ext_locks h1 h2 h3 rfl

theorem taken_point? (u : State) (d : RouteDef) (v : Option Nat) (flanks : List FlankRec) (opts : List Nat) (id : Nat) :
    (u.taken d v flanks opts).point? id = (u.point? id).map (PointRec.taken d v flanks) := List.find?_map ..

theorem taken_route? {u : State} {d : RouteDef} (h : u.route? d.id = none) (v : Option Nat) (flanks : List FlankRec)
    (opts : List Nat) : (u.taken d v flanks opts).route? d.id = some (newRecord d v flanks opts (param 11 u)) := by
  show List.find? _ (u.routes ++ _) = _
  rw [List.find?_append, show u.routes.find? (fun x => x.id == d.id) = none from h, Option.none_or]
  simp [newRecord]

/-- The points that chosen options need in a position (R59). -/
def protectiveNeeds (flanks : List FlankRec) : List PointReq :=
  flanks.filterMap (fun g => match g.opt with
    | .point id pos => some ⟨id, pos⟩
    | .signal _ => none)

/-- The first places of points that are not in position nor moving toward it (R59, R79). -/
def State.callsOf (u : State) (needed : List PointReq) : List PointReq :=
  (needed.eraseDupsBy (fun p q => p.point == q.point)).filter (fun q =>
    match u.point? q.point with
    | some x => x.status != statusOfPos q.pos && x.move.map (·.target) != some q.pos
    | none => false)

/-- The points of the chosen options, all of them standing at the take (R59, R77). -/
theorem flankPoints_newRecord {flanks : List FlankRec} (hf : ∀ g ∈ flanks, g.standing = true) (d : RouteDef)
    (v : Option Nat) (opts : List Nat) (p : Nat) : flankPoints (newRecord d v flanks opts p) = protectiveNeeds flanks := by
  refine List.filterMap_congr fun g hg => ?_
  rw [hf g hg]
  cases g.opt <;> rfl

/-- The calls on entry to CALLING (R59). -/
theorem callsFor_taken {u : State} {d : RouteDef} (hd : u.def? d.id = some d) {v : Option Nat} {flanks : List FlankRec}
    (hf : ∀ g ∈ flanks, g.standing = true) (opts : List Nat) :
    callsFor (u.taken d v flanks opts) (newRecord d v flanks opts (param 11 u)) =
      u.callsOf (allPoints d v ++ protectiveNeeds flanks) := by
  have hneeded : neededPoints (u.taken d v flanks opts) (newRecord d v flanks opts (param 11 u)) =
      allPoints d v ++ protectiveNeeds flanks := by
    unfold neededPoints
    rw [flankPoints_newRecord hf]
    have hdef : (u.taken d v flanks opts).defOf d.id = d := defOf_eq (show u.def? d.id = some d from hd)
    show allPoints ((u.taken d v flanks opts).defOf d.id) v ++ _ = _
    rw [hdef]
  unfold callsFor
  rw [hneeded, firsts_eq]
  refine List.filter_congr fun q _ => ?_
  rw [taken_point?]
  cases u.point? q.point with
  | none => rfl
  | some x => exact Bool.not_or _ _

theorem eraseDupsBy_pairwise (needed : List PointReq) :
    (needed.eraseDupsBy (fun p q => p.point == q.point)).Pairwise (fun p q => p.point ≠ q.point) := by
  have h := firsts_pairwise needed (acc := []) List.Pairwise.nil
  rwa [firsts_eq] at h

/-! ## The request -/

/-- The choice of options reads the elements, the list and the definitions alone. -/
theorem chooseFlanks_congr {s t : State} {d : RouteDef} {v : Option Nat} (h1 : obtainable t d v = obtainable s d v)
    (h2 : flankRecOf t = flankRecOf s) : ∀ (entries : List FlankDef) (chosen : List FlankRec) (opts : List Nat),
    chooseFlanks t d v entries chosen opts = chooseFlanks s d v entries chosen opts
  | [], _, _ => rfl
  | e :: rest, chosen, opts => by
    rw [chooseFlanks, chooseFlanks, h1, h2]
    cases e.options.findIdx? (obtainable s d v chosen) with
    | none => rfl
    | some k =>
      dsimp only
      cases e.options[k]? with
      | none => rfl
      | some o => exact chooseFlanks_congr h1 h2 rest _ _

theorem chooseFlanks_paired (s : State) (f : RequestFrame) (d : RouteDef) (v : Option Nat) :
    chooseFlanks (s.paired f) d v d.flanks [] [] = chooseFlanks s d v d.flanks [] [] := by
  refine chooseFlanks_congr ?_ ?_ _ _ _
  · funext chosen o
    unfold obtainable movable secStatusIs State.defOf
    simp only [State.paired_point?, State.paired_signal?, State.paired_routes, State.paired_section?, State.paired_def?]
  · funext e o
    unfold flankRecOf optSatisfied pointIn
    simp only [State.paired_point?, State.paired_signal?]

/-- Every chosen option stands (R77). -/
theorem chooseFlanks_standing {s : State} {d : RouteDef} {v : Option Nat} {flanks : List FlankRec} {opts : List Nat}
    (h : chooseFlanks s d v d.flanks [] [] = .ok (flanks, opts)) : ∀ g ∈ flanks, g.standing = true := by
  obtain ⟨fs, os, hfs, -, hl, -, hall⟩ := chooseFlanks_ok d.flanks [] [] h
  rw [List.nil_append] at hfs
  subst hfs
  intro g hg
  obtain ⟨i, hi, rfl⟩ := List.getElem_of_mem hg
  obtain ⟨k, o, -, -, hgi, -⟩ := hall i d.flanks[i] (List.getElem?_eq_getElem (hl ▸ hi))
  rw [List.getElem?_eq_getElem hi, Option.some.injEq] at hgi
  rw [hgi]

section SetRoute
variable {u : State} {d : RouteDef} {v : Option Nat} {flanks : List FlankRec} {opts : List Nat}

/-- The entry to CALLING: the take, ROUTE_STATE and the calls, then what settles, then the proving test (R50, R58 to R61). -/
theorem enterCalling_spec (hr : u.route? d.id = none) (hd : u.def? d.id = some d) (hf : ∀ g ∈ flanks, g.standing = true)
    {called : List PointReq} (hcalled : called = u.callsOf (allPoints d v ++ protectiveNeeds flanks)) :
    let calling := called.foldl (fun t q => emit (.moveCall q.point q.pos)
        (t.mapPoint q.point (PointRec.called ⟨q.pos, u.dev.time⟩)))
      (emit (.routeState d.id (.state .calling) .set 0) (u.taken d v flanks opts))
    Settles calling (enterCalling d v flanks opts u)
      ∧ ∃ t, InSomeOrder (called.map (fun q => settleCall q.point) ++ [permOn (.signals (claimedBy flanks))]) calling t
        ∧ enterCalling d v flanks opts u = testProven d.id t := by
  intro calling
  have hissue : inOrder (called.map (fun q => issueCall q.point q.pos))
      (emit (.routeState d.id (.state .calling) .set 0) (u.taken d v flanks opts)) = calling := by
    refine inOrder_issueCall u.dev.time ?_ rfl fun q hq => ?_
    · rw [hcalled]; exact (eraseDupsBy_pairwise _).filter _
    · rw [hcalled] at hq
      have hq' := (List.mem_filter.1 hq).2
      cases hx : u.point? q.point with
      | none => rw [hx] at hq'; cases hq'
      | some x =>
        rw [hx] at hq'
        refine ⟨x.taken d v flanks, (taken_point? u d v flanks opts q.point).trans (by rw [hx]; rfl), ?_⟩
        exact bne_iff_ne.1 (Bool.and_eq_true_iff.1 hq').2
  have heq : enterCalling d v flanks opts u = testProven d.id (inAnyOrder
      (called.map (fun q => settleCall q.point) ++ [permOn (.signals (claimedBy flanks))]) calling) := by
    unfold enterCalling
    rw [takeRoute_taken]
    dsimp only
    rw [taken_route? hr]
    dsimp only
    rw [callsFor_taken hd hf, ← hcalled, hissue]
  have htimed : Timed (called.map (·.point)) calling := by
    have := timed_calls u.dev.time called (ids := []) (t := emit (.routeState d.id (.state .calling) .set 0)
      (u.taken d v flanks opts)) rfl (fun id hid => absurd hid List.not_mem_nil)
    rwa [List.nil_append] at this
  have hset := inAnyOrder_ind (P := fun t => Settles calling t ∧ Timed (called.map PointReq.point) t)
    (fs := called.map (fun q => settleCall q.point) ++ [permOn (.signals (claimedBy flanks))]) (s := calling)
    (fun t c e h => ⟨(settles_closed calling).choice t c e h.1, h.2⟩) ?_ ⟨.reacts _ (Reacts.refl _), htimed⟩
  · rw [heq]
    exact ⟨(settles_closed calling).testProven _ hset.1, _, inAnyOrder_inSomeOrder _ _, rfl⟩
  · intro g hg t ht
    rcases List.mem_append.1 hg with hg | hg
    · obtain ⟨q, hq, rfl⟩ := List.mem_map.1 hg
      exact settles_settleCall (List.mem_map_of_mem hq) ht.1 ht.2
    · rw [List.mem_singleton.1 hg]
      exact ⟨(settles_closed calling).permOn _ ht.1, ht.2.reacts ((reacts_closed t).permOn _ (Reacts.refl t))⟩

end SetRoute

/-- What follows a call of a point with a move (R9, R10, R15). -/
theorem settleCall_inSomeOrder {id : Nat} {s : State} {x : PointRec} (hx : s.point? id = some x) {m : Move}
    (hm : x.move = some m) :
    let took := (s.dev.time - m.start).toNat
    let finished := emit (.moveDone id m.target took) (s.mapPoint id (fun y =>
      PointRec.derive (param 6 s) { y with move := none, moveTimer := ⟨.stopped, 0⟩, lastMove := took }))
    InSomeOrder [routesOnPoint id, permOn (.point id), flanksOn id]
      (if x.viewA = viewOfPos m.target ∧ x.viewB = viewOfPos m.target then
        (if param 15 s * x.supTime < took * 100 then emit (.pointSlow id took x.supTime) finished else finished)
      else s) (settleCall id s) := by
  intro took finished
  obtain rfl := point?_id hx
  unfold settleCall
  rw [hx]
  dsimp only
  rw [hm]
  dsimp only
  by_cases hb : x.viewA = viewOfPos m.target ∧ x.viewB = viewOfPos m.target
  · rw [if_pos hb, if_pos (bothAt_iff.2 hb), completeMove_eq]
    exact handPoint_inSomeOrder _ _
  · rw [if_neg hb, if_neg (mt bothAt_iff.1 hb)]
    exact handPoint_inSomeOrder _ _

theorem State.carried_point? (s : State) (f : RequestFrame) (id : Nat) : (s.carried f).point? id = s.point? id :=
  State.paired_point? s f id

theorem callsOf_carried (s : State) (f : RequestFrame) (needed : List PointReq) :
    (s.carried f).callsOf needed = s.callsOf needed := by
  unfold State.callsOf
  simp only [State.carried_point?]

/-- Settles O26: what settles after one call, then the whole request by `enterCalling_spec`. -/
theorem setRouteTakes : Obligations.SetRouteTakes := by
  unfold Obligations.SetRouteTakes
  refine ⟨fun id s => ⟨fun h => ?_, fun x hx => ⟨fun hm => ?_, ?_⟩⟩, ?_⟩
  · unfold settleCall; rw [h]
  · unfold settleCall; rw [hx]; dsimp only; rw [hm]
  · intro m hm
    exact settleCall_inSomeOrder hx hm
  · intro ch tag r v s d c f var hf hd hv hr hentry hlen hsecs hpts hexit
    have hid : d.id = r.toNat := by simpa using List.find?_some hd
    have hpassed : availability (s.paired f) d var = none := by
      rw [availability_paired, availability_boundary (checkSignal_none_iff.2 ⟨hentry, hlen⟩) hsecs hpts]
      exact checkBoundary_none_iff.2 hexit
    have hvariant : ¬ (d.variants ≠ [] ∧ d.variants.length ≤ v.toNat) := by
      rintro ⟨h1, h2⟩
      rcases hv with h | h
      · exact h1 h
      · omega
    have hdec : decide f.ch f.kind f.body (s.paired f) = match chooseFlanks s d var d.flanks [] [] with
        | .error i => .plain .noFlank i
        | .ok (flanks, opts) => { out := .done, detail := 0, act := enterCalling d var flanks opts } := by
      show decideSetRoute r.toNat v.toNat (s.paired f) = _
      unfold decideSetRoute
      rw [State.paired_def?, State.paired_route?, hd, hr]
      dsimp only
      rw [if_neg hvariant, decideNewRoute_passed hpassed, chooseFlanks_paired] <;> rfl
    split
    · next index hc => rw [hc] at hdec; exact refuses_of rfl hf hdec
    · next flanks opts hc =>
      rw [hc] at hdec
      refine concurs_of (v := ⟨.done, 0, _⟩) rfl hf hdec ?_
      have hroute : (s.carried f).route? d.id = none := by
        rw [hid]; exact (State.paired_route? s f _).trans hr
      have hspec := enterCalling_spec (u := s.carried f) (v := var) (opts := opts) hroute
        ((State.carried_def?).trans (hid ▸ hd)) (chooseFlanks_standing hc) rfl
      have hparam : param 11 (s.carried f) = param 11 s := State.paired_param s f 11
      have hover : (if var.isSome then OverlapStatus.held else .none) = if var = none then .none else .held := by
        cases var <;> rfl
      rw [callsOf_carried, State.carried_dev] at hspec
      unfold State.taken newRecord at hspec
      rw [hover, hparam, hid] at hspec
      unfold PointRec.taken at hspec
      rw [hid] at hspec
      exact hspec

end Sys2Proof.Machine

/-!
PROOFS. The Permission Unit and what brings a route before it: the conditions of R94, grant and withdrawal, proving,
abandonment, and the flags of a flank. O31.
-/

namespace Sys2Proof.Machine

/-! ## The conditions of permission (R94) -/

theorem pointIn_iff {s : State} {q : PointReq} :
    pointIn s q = true ↔ ∃ x, s.point? q.point = some x ∧ x.status = statusOfPos q.pos := by
  unfold pointIn
  cases s.point? q.point <;> simp

theorem pointIn_false_iff {s : State} {q : PointReq} :
    pointIn s q = false ↔ ∀ x, s.point? q.point = some x → x.status ≠ statusOfPos q.pos := by
  rw [← Bool.not_eq_true, pointIn_iff]
  push Not
  rfl

theorem flankOk_iff {a : ActiveRoute} : flankOk a = true ↔ ∀ g ∈ a.flanks, g.standing = true → g.satisfied = true := by
  unfold flankOk
  rw [List.all_eq_true]
  refine forall_congr' fun g => forall_congr' fun _ => ?_
  cases g.standing <;> simp

theorem flankFail_none_iff {a : ActiveRoute} :
    flankFail a = none ↔ ∀ g ∈ a.flanks, g.standing = true → g.satisfied = true := by
  unfold flankFail
  rw [Option.map_eq_none_iff, List.find?_eq_none]
  refine forall_congr' fun g => forall_congr' fun _ => ?_
  cases g.standing <;> simp

/-- The entry that a failing flank names is the first that is not satisfied (R82, R94). -/
theorem flankFail_some_iff {a : ActiveRoute} {i : Nat} : flankFail a = some i ↔ ∃ before f after,
    a.flanks = before ++ f :: after ∧ (∀ g ∈ before, g.standing = true → g.satisfied = true) ∧ f.standing = true
      ∧ f.satisfied = false ∧ f.index = i := by
  unfold flankFail
  rw [Option.map_eq_some_iff]
  constructor
  · rintro ⟨f, hf, hi⟩
    obtain ⟨hp, before, after, hl, hb⟩ := List.find?_eq_some_iff_append.1 hf
    simp only [Bool.and_eq_true, Bool.not_eq_true'] at hp hb
    refine ⟨before, f, after, hl, fun g hg hs => ?_, hp.1, hp.2, hi⟩
    have := hb g hg
    rw [hs] at this
    simpa using this
  · rintro ⟨before, f, after, hl, hb, hs, hn, hi⟩
    refine ⟨f, List.find?_eq_some_iff_append.2 ⟨by rw [hs, hn]; rfl, before, after, hl, fun g hg => ?_⟩, hi⟩
    cases h : g.standing with
    | false => rfl
    | true => rw [hb g hg h]; rfl

theorem entrySignalOk_iff {s : State} {g : Nat} : entrySignalOk s g = true ↔ SignalFit s g := by
  unfold entrySignalOk SignalFit
  cases hx : s.signal? g with
  | none => simp
  | some x => simp [and_assoc]

theorem operating_iff {s : State} {ch : Channel} :
    s.operating ch = true ↔ (s.chan ch).state = .active ∨ (s.chan ch).state = .paused := by
  unfold State.operating
  cases (s.chan ch).state <;> simp

theorem boundaryOk_iff {s : State} {e : Option SlotRef} : boundaryOk s e = true ↔
    ∀ ref, e = some ref → ∃ x, s.slot? ref = some x ∧ x.outb = .accepted := by
  unfold boundaryOk
  cases e with
  | none => simp
  | some ref =>
    simp only [Option.some.injEq, forall_eq']
    cases s.slot? ref <;> simp

/-- Every condition of R94 holds. -/
structure Grantable (s : State) (a : ActiveRoute) : Prop where
  secs : ∀ i ∈ allSecs (s.defOf a.id) a.variant, secStatusIs s i .clear = true
  points : ∀ q ∈ allPoints (s.defOf a.id) a.variant, pointIn s q = true
  flank : flankOk a = true
  signal : entrySignalOk s (s.defOf a.id).entry = true
  channels : ∀ ch, s.operating ch = true
  service : s.dev.state = .inService
  slot : boundaryOk s a.exitSlot = true

theorem find?_not_eq_none {α : Type} {xs : List α} {p : α → Bool} :
    xs.find? (fun x => !p x) = none ↔ ∀ x ∈ xs, p x = true := by
  rw [List.find?_eq_none]
  simp

theorem grantable_iff {s : State} {a : ActiveRoute} : grantable s a = true ↔ Grantable s a := by
  unfold grantable
  rw [Option.isNone_iff_eq_none]
  constructor
  · intro h
    unfold firstFailing at h
    dsimp only at h
    cases hsec : (allSecs (s.defOf a.id) a.variant).find? (fun i => !secStatusIs s i .clear) with
    | some i => rw [hsec] at h; cases h
    | none =>
      rw [hsec] at h
      cases hpt : (allPoints (s.defOf a.id) a.variant).find? (fun q => !pointIn s q) with
      | some q => rw [hpt] at h; cases h
      | none =>
        rw [hpt] at h
        cases hfl : flankFail a with
        | some i => rw [hfl] at h; cases h
        | none =>
          rw [hfl] at h
          dsimp only at h
          have hsig : entrySignalOk s (s.defOf a.id).entry = true := by
            by_contra hn; rw [if_pos (by simpa using hn)] at h; cases h
          rw [hsig, if_neg (by simp)] at h
          have hA : s.operating .A = true := by
            by_contra hn; rw [if_pos (by simpa using hn)] at h; cases h
          rw [hA, if_neg (by simp)] at h
          have hB : s.operating .B = true := by
            by_contra hn; rw [if_pos (by simpa using hn)] at h; cases h
          rw [hB, if_neg (by simp)] at h
          have hdev : s.dev.state = .inService := by
            by_contra hn; rw [if_pos hn] at h; cases h
          rw [if_neg (not_not.2 hdev)] at h
          have hslot : boundaryOk s a.exitSlot = true := by
            by_contra hn
            rw [if_pos (by simpa using hn)] at h
            cases he : a.exitSlot with
            | none => rw [he] at hn; exact hn rfl
            | some ref => rw [he] at h; cases h
          exact ⟨find?_not_eq_none.1 hsec, find?_not_eq_none.1 hpt, flankOk_iff.2 (flankFail_none_iff.1 hfl), hsig,
            fun ch => by cases ch <;> assumption, hdev, hslot⟩
  · intro h
    unfold firstFailing
    dsimp only
    rw [find?_not_eq_none.2 h.secs]
    dsimp only
    rw [find?_not_eq_none.2 h.points]
    dsimp only
    rw [flankFail_none_iff.2 (flankOk_iff.1 h.flank)]
    dsimp only
    rw [h.signal, h.channels .A, h.channels .B, h.slot]
    simp [h.service]

theorem concerns_iff {c : Concern} {s : State} {a : ActiveRoute} : concerns c s a = true ↔ Touches s a c := by
  unfold concerns Touches
  cases c with
  | route r => exact beq_iff_eq.trans eq_comm
  | _ => simp

/-- A change finds a condition failing exactly where `Breaks` says so (R94, R96). -/
theorem failedBy_iff {c : Concern} {s : State} {a : ActiveRoute} (h : Touches s a c) (cause : PermCause) :
    failedBy c s a = some cause ↔ Breaks s a c cause := by
  cases c with
  | sec id =>
    refine (Option.ite_none_left_eq_some (b := some (PermCause.sec id))).trans ?_
    simp only [Bool.or_eq_true, Bool.and_eq_true, beq_iff_eq, not_or, Bool.not_eq_true, Option.some.injEq]
    constructor
    · rintro ⟨⟨hc, ho⟩, rfl⟩
      exact .sec id h hc ho
    · rintro ⟨⟩
      next _ hc ho => exact ⟨⟨hc, ho⟩, rfl⟩
  | point id =>
    refine (Option.ite_none_left_eq_some (b := some (PermCause.point id))).trans ?_
    constructor
    · rintro ⟨hn, he⟩
      cases he
      rw [List.all_eq_true] at hn
      push Not at hn
      obtain ⟨q, hq, hn⟩ := hn
      simp only [ne_eq, Bool.or_eq_true, bne_iff_ne, not_or, not_not, Bool.not_eq_true] at hn
      obtain ⟨rfl, hin⟩ := hn
      exact .point q hq (pointIn_false_iff.1 hin)
    · rintro (_ | ⟨q, hq, hx⟩)
      refine ⟨fun hall => ?_, rfl⟩
      have := List.all_eq_true.1 hall q hq
      rw [pointIn_false_iff.2 hx] at this
      simp at this
  | flank rs =>
    refine Option.map_eq_some_iff.trans ?_
    constructor
    · rintro ⟨i, hi, rfl⟩
      obtain ⟨before, f, after, hl, hb, hs, hn, rfl⟩ := flankFail_some_iff.1 hi
      exact .flank rs before f after h hl hb hs hn
    · rintro ⟨⟩
      next before f after hl hb hs hn _ => exact ⟨_, flankFail_some_iff.2 ⟨before, f, after, hl, hb, hs, hn, rfl⟩, rfl⟩
  | signals gs =>
    refine (Option.ite_none_left_eq_some (b := some (PermCause.entrySignal _))).trans ?_
    constructor
    · rintro ⟨hn, he⟩
      cases he
      exact .signal gs h (mt entrySignalOk_iff.2 hn)
    · rintro ⟨⟩
      next hn _ => exact ⟨mt entrySignalOk_iff.1 hn, rfl⟩
  | channel ch =>
    refine (Option.ite_none_left_eq_some (b := some (PermCause.channel ch))).trans ?_
    constructor
    · rintro ⟨hn, he⟩
      cases he
      obtain ⟨hact, hpau⟩ := not_or.1 (mt operating_iff.2 hn)
      exact .channel ch hact hpau
    · rintro ⟨⟩
      next hact hpau => exact ⟨mt operating_iff.1 (not_or.2 ⟨hact, hpau⟩), rfl⟩
  | device =>
    refine (Option.ite_none_left_eq_some (b := some PermCause.deviceState)).trans ?_
    constructor
    · rintro ⟨hn, he⟩
      cases he
      exact .device hn
    · rintro ⟨⟩
      next hn => exact ⟨hn, rfl⟩
  | slot ref =>
    refine (Option.ite_none_left_eq_some (b := some (PermCause.boundary ref))).trans ?_
    constructor
    · rintro ⟨hn, he⟩
      cases he
      refine .slot ref h fun x hx ho => hn (boundaryOk_iff.2 fun ref' he => ?_)
      cases he
      exact ⟨x, hx, ho⟩
    · rintro ⟨⟩
      next _ hx =>
      refine ⟨fun hall => ?_, rfl⟩
      obtain ⟨x, hx', ho⟩ := boundaryOk_iff.1 hall ref rfl
      exact hx x hx' ho
  | route r => exact ⟨fun hf => (by cases hf), fun hb => (by cases hb)⟩

/-! ## One route (R95, R96) -/

section OneRoute
variable {c : Concern} {s : State} {a : ActiveRoute} (ha : s.route? a.id = some a)
include ha

theorem permRoute_untouched (h : ¬ Touches s a c) : permRoute c a.id s = s := by
  unfold permRoute
  rw [ha]
  exact if_pos (by rw [← concerns_iff] at h; simpa using h)

theorem permRoute_touched (h : Touches s a c) : permRoute c a.id s =
    if a.state = .permitted then (match withdrawCause c s a with
      | some cause => withdraw a cause s
      | none => s)
    else if a.state = .locked ∧ a.grantAllowed = true ∧ grantable s a = true then grant a s else s := by
  unfold permRoute
  rw [ha]
  exact if_neg (by rw [← concerns_iff] at h; simpa using h)

theorem permRoute_grants (h : Touches s a c) (hs : a.state = .locked) (hg : a.grantAllowed = true)
    (hall : Grantable s a) : permRoute c a.id s = grant a s := by
  rw [permRoute_touched ha h, if_neg (by rw [hs]; decide), if_pos ⟨hs, hg, grantable_iff.2 hall⟩]

theorem permRoute_waits (hs : a.state ≠ .permitted)
    (hn : ¬ (a.state = .locked ∧ a.grantAllowed = true ∧ Grantable s a)) : permRoute c a.id s = s := by
  by_cases h : Touches s a c
  · rw [permRoute_touched ha h, if_neg hs, if_neg (by rwa [grantable_iff])]
  · exact permRoute_untouched ha h

theorem permRoute_withdraws {cause : PermCause} (hs : a.state = .permitted) (h : Touches s a c)
    (hb : Breaks s a c cause) :
    permRoute c a.id s = s.withdrawn a (if s.dev.state = .inService then cause else .deviceState) := by
  have hw : withdrawCause c s a = some (if s.dev.state = .inService then cause else .deviceState) := by
    unfold withdrawCause
    rw [(failedBy_iff h cause).2 hb]
    dsimp only
    split <;> rfl
  rw [permRoute_touched ha h, if_pos hs, hw]
  exact withdraw_withdrawn _ _ _

theorem permRoute_keeps (hs : a.state = .permitted) (hb : ∀ cause, ¬ Breaks s a c cause) :
    permRoute c a.id s = s := by
  by_cases h : Touches s a c
  · have hf : failedBy c s a = none := Option.eq_none_iff_forall_ne_some.2
      fun cause hc => hb cause ((failedBy_iff h cause).1 hc)
    have hw : withdrawCause c s a = none := by
      unfold withdrawCause
      rw [hf]
    rw [permRoute_touched ha h, if_pos hs, hw]
  · exact permRoute_untouched ha h

end OneRoute

/-- A change that finds a condition failing concerns the route. -/
theorem Breaks.touches {c : Concern} {s : State} {a : ActiveRoute} {cause : PermCause} (h : Breaks s a c cause) :
    Touches s a c := by
  cases h with
  | sec id h _ _ => exact h
  | point q h _ => exact ⟨q, h, rfl⟩
  | flank rs before f after h _ _ _ _ => exact h
  | signal gs h _ => exact h
  | channel | device => trivial
  | slot ref h _ => exact h

/-! ## All routes (R95, R98, R99) -/

theorem permOn_eq (c : Concern) (s : State) : permOn c s =
    if s.dev.state = .safeHalt then
      (s.routes.filter (fun a => a.state == .permitted)).foldl (fun u a => u.withdrawn a .deviceState) s
    else s.routes.foldl (fun u a => permRoute c a.id u) s := by
  unfold permOn withdrawAll
  rw [inOrder_map_foldl, inOrder_map_foldl]
  rfl

/-! ## Proving and abandonment (R60, R62, R63, R65) -/

theorem proven_iff {s : State} {a : ActiveRoute} :
    proven s a = true ↔ ∀ q ∈ neededPoints s a, ∃ x, s.point? q.point = some x ∧ x.status = statusOfPos q.pos := by
  unfold proven
  rw [List.all_eq_true]
  exact forall₂_congr fun q _ => pointIn_iff

theorem testProven_proven {a : ActiveRoute} {s : State} (ha : s.route? a.id = some a) (hs : a.state = .calling)
    (hp : proven s a = true) : testProven a.id s = lockRoute a s := by
  unfold testProven
  rw [ha]
  exact if_pos ⟨hs, hp⟩

theorem testProven_other {a : ActiveRoute} {s : State} (ha : s.route? a.id = some a)
    (hn : ¬ (a.state = .calling ∧ proven s a = true)) : testProven a.id s = s := by
  unfold testProven
  rw [ha]
  exact if_neg hn

theorem abandonRoute_calling {a : ActiveRoute} {s : State} (cause : RouteCause) (point : Nat)
    (ha : s.route? a.id = some a) (hs : a.state = .calling) :
    abandonRoute cause point a.id s = removeRoute a .abandoned cause point .none s := by
  unfold abandonRoute
  rw [ha]
  exact if_pos hs

theorem abandonRoute_other {a : ActiveRoute} {s : State} (cause : RouteCause) (point : Nat)
    (ha : s.route? a.id = some a) (hs : a.state ≠ .calling) : abandonRoute cause point a.id s = s := by
  unfold abandonRoute
  rw [ha]
  exact if_neg hs

/-! ## The flags of a flank (R82) -/

/-- The entries of a route's flank that name the element are checked again; what the record shows then. -/
theorem rederiveFlank_eq (s : State) (id : Nat) (a : ActiveRoute) : rederiveFlank s id a =
    { a with flanks := a.flanks.map (fun f =>
      if f.standing = true ∧ (f.opt.element == id) = true then { f with satisfied := optSatisfied s f.opt } else f) } := by
  unfold rederiveFlank
  simp only [Bool.and_eq_true]

theorem optSatisfied_point {s : State} {p : Nat} {pos : Pos} : optSatisfied s (.point p pos) =
    Decidable.decide ((s.point? p).map (·.status) = some (statusOfPos pos)) := by
  refine (Bool.eq_iff_iff.2 ?_ : pointIn s ⟨p, pos⟩ = _)
  rw [pointIn_iff, decide_eq_true_iff, Option.map_eq_some_iff]

theorem optSatisfied_signal {s : State} {g : Nat} : optSatisfied s (.signal g) =
    Decidable.decide ((s.signal? g).map (fun x => (x.status, x.faulted)) = some (.danger, false)) := by
  unfold optSatisfied
  dsimp only
  cases s.signal? g with
  | none => rfl
  | some x => rw [Bool.eq_iff_iff, decide_eq_true_iff]; simp

/-- The routes whose flank changes between satisfied and not satisfied with element `id` (R82). -/
def flankChanged (s : State) (id : Nat) : List Nat :=
  (s.routes.filter (fun a => flankOk (rederiveFlank s id a) != flankOk a)).map (·.id)

theorem mem_flankChanged {s : State} {id r : Nat} : r ∈ flankChanged s id ↔
    ∃ a ∈ s.routes, a.id = r ∧ ¬ (flankOk (rederiveFlank s id a) = true ↔ flankOk a = true) := by
  unfold flankChanged
  simp only [List.mem_map, List.mem_filter, bne_iff_ne, ne_eq, ← Bool.eq_iff_iff]
  exact ⟨fun ⟨a, ⟨h, hn⟩, hr⟩ => ⟨a, h, hr, hn⟩, fun ⟨a, h, hr, hn⟩ => ⟨a, ⟨h, hn⟩, hr⟩⟩

theorem flanksOn_unchanged {s : State} {id : Nat}
    (h : ∀ a ∈ s.routes, (flankOk (rederiveFlank s id a) = true ↔ flankOk a = true)) :
    flanksOn id s = { s with routes := s.routes.map (rederiveFlank s id) } := by
  have hnil : flankChanged s id = [] := List.eq_nil_iff_forall_not_mem.2 fun r hr => by
    obtain ⟨a, ha, _, hn⟩ := mem_flankChanged.1 hr
    exact hn (h a ha)
  exact if_pos (by rw [← flankChanged, hnil]; rfl)

theorem flanksOn_changed {s : State} {id : Nat}
    (h : ∃ a ∈ s.routes, ¬ (flankOk (rederiveFlank s id a) = true ↔ flankOk a = true)) :
    flanksOn id s = permOn (.flank (flankChanged s id)) { s with routes := s.routes.map (rederiveFlank s id) } := by
  obtain ⟨a, ha, hn⟩ := h
  have hm : a.id ∈ flankChanged s id := mem_flankChanged.2 ⟨a, ha, rfl, hn⟩
  exact if_neg (by rw [List.isEmpty_iff]; exact List.ne_nil_of_mem hm)

/-! ## O31 -/

theorem withdraws_and_grants (c : Concern) (s : State) (a : ActiveRoute) (ha : s.route? a.id = some a) :
    (¬ Touches s a c → permRoute c a.id s = s)
    ∧ (Touches s a c → a.state = .locked → a.grantAllowed = true → Grantable s a → permRoute c a.id s = grant a s)
    ∧ (a.state = .locked → ¬ (a.grantAllowed = true ∧ Grantable s a) → permRoute c a.id s = s)
    ∧ (a.state ≠ .locked → a.state ≠ .permitted → permRoute c a.id s = s)
    ∧ (a.state = .permitted →
      (∀ cause, Breaks s a c cause →
        permRoute c a.id s = s.withdrawn a (if s.dev.state = .inService then cause else .deviceState))
      ∧ ((∀ cause, ¬ Breaks s a c cause) → permRoute c a.id s = s)) :=
  ⟨permRoute_untouched ha, permRoute_grants ha,
    fun hl hn => permRoute_waits ha (by rw [hl]; decide) fun hg => hn hg.2,
    fun hl hp => permRoute_waits ha hp fun hg => hl hg.1,
    fun hp => ⟨fun _ hb => permRoute_withdraws ha hp hb.touches hb, permRoute_keeps ha hp⟩⟩

/-- Settles O31, by the conditions of R94 one by one, and the definitions of proving, abandonment and flank. -/
theorem permissionFollowsConditions : Obligations.PermissionFollowsConditions := by
  unfold Obligations.PermissionFollowsConditions
  refine ⟨?_, permOn_eq, ?_, ?_, ?_⟩
  · intro c s a ha d secsClear pointsIn flank channels slot all
    have hall : all ↔ Grantable s a := by
      constructor
      · rintro ⟨hsecs, hpts, hfl, hsig, hch, hdev, hslot⟩
        exact ⟨hsecs, fun q hq => pointIn_iff.2 (hpts q hq), flankOk_iff.2 hfl, entrySignalOk_iff.2 hsig,
          fun ch => operating_iff.2 (hch ch), hdev, boundaryOk_iff.2 hslot⟩
      · intro h
        exact ⟨h.secs, fun q hq => pointIn_iff.1 (h.points q hq), flankOk_iff.1 h.flank, entrySignalOk_iff.1 h.signal,
          fun ch => operating_iff.1 (h.channels ch), h.service, boundaryOk_iff.1 h.slot⟩
    rw [hall]
    exact withdraws_and_grants c s a ha
  · intro s a ha needed
    refine ⟨?_, ?_, fun cause point => ⟨fun hs => ?_, abandonRoute_other cause point ha⟩⟩
    · rintro ⟨hs, hp⟩
      rw [testProven_proven ha hs (proven_iff.2 hp)]
      refine ⟨(reacts_closed _).inAnyOrder (fun f hf => ?_) (.refl _), inAnyOrder_inSomeOrder _ _⟩
      rcases List.mem_cons.1 hf with rfl | hf
      · exact fun _ => (reacts_closed _).permOn _
      · cases he : a.exitSlot with
        | none => rw [he] at hf; cases hf
        | some ref =>
          rw [he] at hf
          rw [List.mem_singleton.1 hf]
          exact fun _ => (reacts_closed _).tryOffer _
    · intro hn
      exact testProven_other ha fun h => hn ⟨h.1, proven_iff.1 h.2⟩
    · rw [abandonRoute_calling cause point ha hs]
      exact removeRoute_removes _ _ _ _ _ _
  · intro id s waits
    have hoff (hd : s.dev.state = .safeHalt) : routesServed s = false := by unfold routesServed; rw [hd]; rfl
    have hon (hd : s.dev.state ≠ .safeHalt) : routesServed s = true := by unfold routesServed; simpa using hd
    refine ⟨fun hd => ⟨?_, fun target => ?_⟩, fun hd => ⟨?_, fun target => ?_⟩⟩
    · exact if_neg (by rw [hoff hd]; decide)
    · exact if_neg (by rw [hoff hd]; decide)
    · have he : routesOnPoint id s = _ := if_pos (hon hd)
      rw [he]
      exact inAnyOrder_inSomeOrder _ _
    · have he : routesOnMoveFailed id target s = _ := if_pos (hon hd)
      rw [he]
      exact inAnyOrder_inSomeOrder _ _
  · intro id s does names fresh ok t
    have hdoes (o : FlankOpt) : optSatisfied s o = does o := by
      cases o with
      | point p pos => exact optSatisfied_point
      | signal g => exact optSatisfied_signal
    have hnames (o : FlankOpt) : (o.element == id) = names o := by cases o <;> rfl
    have hfresh (a : ActiveRoute) : rederiveFlank s id a = fresh a := by
      rw [rederiveFlank_eq]
      refine congrArg (fun l => ({ a with flanks := l } : ActiveRoute)) (List.map_congr_left fun f _ => ?_)
      rw [hdoes, hnames]
    have hok (a : ActiveRoute) : flankOk a = true ↔ ok a := flankOk_iff
    have ht : ({ s with routes := s.routes.map (rederiveFlank s id) } : State) = t := by rw [funext hfresh]
    have hrs := @mem_flankChanged s id
    have hsame := @flanksOn_unchanged s id
    have hdiff := @flanksOn_changed s id
    simp only [hfresh, hok, ht] at hrs hsame hdiff
    exact ⟨hsame, fun hn => ⟨_, fun r => hrs, hdiff hn⟩⟩

end Sys2Proof.Machine

/-!
PROOFS. The train in a route: the release of sections and of the whole route behind it, the marks of R106 at entry
and after it, and their anomalies. O33.
-/

namespace Sys2Proof.Machine

/-! ## The release of a section (R85, R108) -/

/-- The state in which the cursor section of route `a`, section `id`, is released (R85, R108). -/
def State.freed (s : State) (a : ActiveRoute) (id : Nat) : State :=
  { s with
    points := s.points.map (fun x =>
      let kept := x.claims.filter (fun c => !guardClaims a (.sec a.cursor) c)
      { x with hold := (match x.hold with
                 | .route q p => if q = a.id ∧ x.sec = id then .none else .route q p
                 | .overlap q p => .overlap q p
                 | .none => .none)
               claims := kept, claimPos := if kept = [] then none else x.claimPos })
    signals := s.signals.map (fun x =>
      { x with claims := x.claims.filter (fun c => !guardClaims a (.sec a.cursor) c) }), sections := s.sections.map
        (fun x => if x.id = id ∧ x.holder = .route a.id then { x with holder := .none } else x)
    routes := s.routes.map (fun y => if y.id = a.id then
      { y with released := y.released.set (a.cursor - 1) true, cursor := a.cursor + 1
               flanks := y.flanks.map (fun g =>
                 if g.guard = .sec a.cursor then { g with standing := false, satisfied := false } else g) } else y) }

theorem releaseSection_eq {a : ActiveRoute} {s : State} {id : Nat}
    (hid : (s.defOf a.id).secs[a.cursor - 1]? = some id) : releaseSection a a.cursor s =
      inAnyOrder (handDrops [id] (claimedSignals (guardClaims a (.sec a.cursor)) s)) (s.freed a id) := by
  have e1 : s.sections.map (fun x => if x.id = id then
      (if x.holder = .route a.id then { x with holder := .none } else x) else x) = (s.freed a id).sections := by
    refine List.map_congr_left (fun x _ => ?_)
    by_cases h : x.id = id <;> simp [h]
  have e2 : (s.points.map (fun x => if (x.sec == id && (match x.hold with | .route q _ => q == a.id | _ => false)) = true
      then { x with hold := .none } else x)).map (PointRec.dropClaims (guardClaims a (.sec a.cursor))) =
        (s.freed a id).points := by
    refine List.map_map.trans (List.map_congr_left (fun x _ => ?_))
    simp only [Function.comp_apply, PointRec.dropClaims, List.isEmpty_iff]
    rcases x with ⟨i1, i2, i3, i4, i5, i6, i7, i8, i9, i10, i11, i12, i13, hold, i14, i15⟩
    cases hold with
    | none => simp
    | route q p => by_cases hq : q = a.id <;> by_cases hs : i2 = id <;> simp [hq, hs]
    | overlap q p => simp
  have hu : (dropClaims (guardClaims a (.sec a.cursor))
      (dropHolds (fun x => x.sec == id && (match x.hold with | .route q _ => q == a.id | _ => false))
        (s.mapSection id (fun x => if x.holder = .route a.id then { x with holder := .none } else x)))).mapRoute a.id
      (fun x => dropGuard (.sec a.cursor) { x with released := x.released.set (a.cursor - 1) true, cursor := a.cursor + 1 })
        = s.freed a id := State.ext_locks e1 e2 rfl rfl
  unfold releaseSection
  dsimp only
  rw [hid]
  exact congrArg (inAnyOrder _) hu

theorem releaseSection_frees {a : ActiveRoute} {s : State} {id : Nat}
    (hid : (s.defOf a.id).secs[a.cursor - 1]? = some id) : Reacts (s.freed a id) (releaseSection a a.cursor s)
      ∧ InSomeOrder [retestOver id, permOn (.signals (claimedSignals (guardClaims a (.sec a.cursor)) s))] (s.freed a id)
        (releaseSection a a.cursor s) := by
  rw [releaseSection_eq hid]
  have hc := reacts_closed (s.freed a id)
  refine ⟨hc.inAnyOrder (fun f hf => ?_) (.refl _), inAnyOrder_inSomeOrder _ _⟩
  rcases List.mem_cons.1 hf with rfl | hf
  · exact fun _ => hc.retestOver _
  · rw [List.mem_singleton.1 hf]
    exact fun _ => hc.permOn _

/-! ## A route section has become CLEAR (R107 to R111) -/

/-- The train has cleared the whole route (R110, R111). -/
def Gone (s : State) (a : ActiveRoute) : Prop :=
  hasEntered a = true ∧ a.marks[(s.defOf a.id).secs.length - 1]? = some true ∧ (a.exitSlot = none ∨ a.received = true)
    ∧ (match (s.defOf a.id).mode with
      | .sequential => a.cursor = (s.defOf a.id).secs.length
          ∧ ∃ i, (s.defOf a.id).secs[(s.defOf a.id).secs.length - 1]? = some i ∧ secStatusIs s i .clear = true
      | .whole => ∀ i ∈ (s.defOf a.id).secs, secStatusIs s i .clear = true)

theorem clearedTest_iff (s : State) (a : ActiveRoute) :
    (hasEntered a && (a.marks[(s.defOf a.id).secs.length - 1]? == some true)
      && (match (s.defOf a.id).mode with
        | .sequential => a.cursor == (s.defOf a.id).secs.length
            && (match (s.defOf a.id).secs[(s.defOf a.id).secs.length - 1]? with
              | some i => secStatusIs s i .clear
              | none => false)
        | .whole => (s.defOf a.id).secs.all (fun i => secStatusIs s i .clear)) && receivedOk a) = true ↔ Gone s a := by
  have hr : receivedOk a = true ↔ a.exitSlot = none ∨ a.received = true := by simp [receivedOk]
  unfold Gone
  cases (s.defOf a.id).mode with
  | sequential =>
    cases (s.defOf a.id).secs[(s.defOf a.id).secs.length - 1]? <;> simp [hr, and_assoc, and_comm, and_left_comm]
  | whole => simp [hr, and_assoc, and_comm, and_left_comm]

section SectionClear
variable {s : State} {a : ActiveRoute} (ha : s.route? a.id = some a)
include ha

theorem routeSectionClear_unentered (id : Nat) (h : hasEntered a = false) : routeSectionClear id a.id s = s := by
  unfold routeSectionClear
  rw [ha]
  exact if_pos (by rw [h]; rfl)

theorem routeSectionClear_whole (id : Nat) (h : hasEntered a = true) (hm : (s.defOf a.id).mode = .whole) :
    routeSectionClear id a.id s = if id ∈ (s.defOf a.id).secs then testCleared a.id s else s := by
  unfold routeSectionClear
  rw [ha]
  dsimp only
  rw [if_neg (by rw [h]; decide), hm]
  simp only [List.contains_iff_mem]

theorem routeSectionClear_sequential (id : Nat) (h : hasEntered a = true) (hm : (s.defOf a.id).mode = .sequential) :
    routeSectionClear id a.id s = if (s.defOf a.id).secs[a.cursor - 1]? = some id then
      (if a.cursor = (s.defOf a.id).secs.length then testCleared a.id s
       else match (s.defOf a.id).secs[a.cursor]? with
        | some next =>
          if a.gapped = false ∧ a.marks[a.cursor - 1]? = some true ∧ secStatusIs s next .occupied = true then
            releaseSection a a.cursor s
          else s
        | none => s) else s := by
  unfold routeSectionClear
  rw [ha]
  dsimp only
  rw [if_neg (by rw [h]; decide), hm] <;> rfl

theorem routeSectionClear_cursor (id : Nat) (h : hasEntered a = true) (hm : (s.defOf a.id).mode = .sequential)
    (hlt : a.cursor < (s.defOf a.id).secs.length) {next : Nat} (hn : (s.defOf a.id).secs[a.cursor]? = some next) :
    routeSectionClear id a.id s = if (s.defOf a.id).secs[a.cursor - 1]? = some id ∧ a.gapped = false
        ∧ a.marks[a.cursor - 1]? = some true ∧ secStatusIs s next .occupied = true then releaseSection a a.cursor s
      else s := by
  rw [routeSectionClear_sequential ha id h hm, if_neg hlt.ne, hn]
  by_cases hid : (s.defOf a.id).secs[a.cursor - 1]? = some id
  · rw [if_pos hid]
    simp only [hid, true_and]
  · rw [if_neg hid, if_neg fun hall => hid hall.1]

theorem routeSectionClear_last (id : Nat) (h : hasEntered a = true) (hm : (s.defOf a.id).mode = .sequential)
    (hc : a.cursor = (s.defOf a.id).secs.length) : routeSectionClear id a.id s =
      if (s.defOf a.id).secs[(s.defOf a.id).secs.length - 1]? = some id then testCleared a.id s else s := by
  rw [routeSectionClear_sequential ha id h hm, if_pos hc, hc]

theorem testCleared_eq : testCleared a.id s = if (hasEntered a && (a.marks[(s.defOf a.id).secs.length - 1]? == some true)
      && (match (s.defOf a.id).mode with
        | .sequential => a.cursor == (s.defOf a.id).secs.length
            && (match (s.defOf a.id).secs[(s.defOf a.id).secs.length - 1]? with
              | some i => secStatusIs s i .clear
              | none => false)
        | .whole => (s.defOf a.id).secs.all (fun i => secStatusIs s i .clear)) && receivedOk a) = true
      then clearedRoute a s else s := by
  unfold testCleared
  rw [ha] <;> rfl

theorem testCleared_gone (h : Gone s a) : testCleared a.id s = clearedRoute a s :=
  (testCleared_eq ha).trans (if_pos ((clearedTest_iff s a).2 h))

theorem testCleared_waits (h : ¬ Gone s a) : testCleared a.id s = s :=
  (testCleared_eq ha).trans (if_neg (mt (clearedTest_iff s a).1 h))

theorem routeApproachClear_eq (id : Nat) : routeApproachClear id a.id s =
    if a.state = .approachHeld ∧ id ∈ (s.defOf a.id).approach
        ∧ ∀ i ∈ (s.defOf a.id).approach, secStatusIs s i .clear = true then
      removeRoute a .released .approachClear 0 .complete s
    else s := by
  unfold routeApproachClear
  rw [ha]
  simp only [List.contains_iff_mem, List.all_eq_true]

end SectionClear

/-! ## Marks (R106) -/

/-- A section that is not CLEAR keeps a route in WHOLE mode from being released (R111). -/
theorem testCleared_occupied {s : State} {r i : Nat} (hm : (s.defOf r).mode = .whole) (hi : i ∈ (s.defOf r).secs)
    (ho : secStatusIs s i .clear = false) : testCleared r s = s := by
  unfold testCleared
  cases s.route? r with
  | none => rfl
  | some b =>
    refine if_neg fun h => ?_
    rw [hm] at h
    simp only [Bool.and_eq_true, List.all_eq_true] at h
    have := h.1.2 i hi
    rw [ho] at this
    cases this

theorem secStatusIs_excl {s : State} {i : Nat} (h : secStatusIs s i .occupied = true) : secStatusIs s i .clear = false := by
  unfold secStatusIs at *
  cases hx : s.section? i with
  | none => rfl
  | some x =>
    rw [hx] at h
    have : x.status = .occupied := by simpa using h
    simp [this]

/-- The record of a route whose section `j` (from 0) of `n` is marked: marking Sn starts the overlap timer (R106, R112). -/
def ActiveRoute.marked (held : Prop) [Decidable held] (p n j : Nat) (y : ActiveRoute) : ActiveRoute :=
  { y with marks := y.marks.set j true, overlapTimer := if j + 1 = n ∧ held then ⟨.running, p⟩ else y.overlapTimer }

theorem mapRoute_mapRoute (s : State) (r : Nat) {f : ActiveRoute → ActiveRoute} (g : ActiveRoute → ActiveRoute)
    (hf : ∀ y, (f y).id = y.id) : (s.mapRoute r f).mapRoute r g = s.mapRoute r (fun y => g (f y)) := by
  unfold State.mapRoute
  dsimp only
  rw [List.map_map]
  refine congrArg (fun l => ({ s with routes := l } : State)) (List.map_congr_left fun y _ => ?_)
  by_cases h : y.id = r
  · simp [h, hf]
  · simp [h]

theorem mapRoute_congr (s : State) (r : Nat) {f g : ActiveRoute → ActiveRoute}
    (h : ∀ y ∈ s.routes, y.id = r → f y = g y) : s.mapRoute r f = s.mapRoute r g := by
  unfold State.mapRoute
  refine congrArg (fun l => ({ s with routes := l } : State)) (List.map_congr_left fun y hy => ?_)
  by_cases hr : y.id = r
  · rw [if_pos hr, if_pos hr, h y hy hr]
  · rw [if_neg hr, if_neg hr]

section Marks
variable {s : State} {a : ActiveRoute} {r : Nat} (ha : s.route? r = some a) {j i : Nat}
include ha

theorem markSection_marked (hm : a.marks[j]? = some true) : markSection r j s = s := by
  unfold markSection
  rw [ha]
  exact if_pos (.inl (by rw [hm]; simp))

variable (hj : (s.defOf r).secs[j]? = some i)
include hj

/-- A section that the cursor reaches without an unmarked one between is marked (R106). -/
theorem markSection_marks (ho : secStatusIs s i .occupied = true) (hm : a.marks[j]? = some false)
    (hr : a.released[j]? = some false) (hall : ((a.marks.take j).drop (a.cursor - 1)).all id = true) :
    markSection r j s =
      s.mapRoute r (ActiveRoute.marked (a.overlap = .held) (param 10 s) (s.defOf r).secs.length j) := by
  have hcl {u : State} (hd : u.defOf r = s.defOf r) (hs : secStatusIs u i .clear = secStatusIs s i .clear) :
      (if (s.defOf r).mode = .whole then testCleared r u else u) = u := by
    by_cases hmode : (s.defOf r).mode = .whole
    · rw [if_pos hmode]
      exact testCleared_occupied (hd ▸ hmode) (hd ▸ List.mem_of_getElem? hj) (hs.trans (secStatusIs_excl ho))
    · rw [if_neg hmode]
  unfold markSection
  rw [ha]
  dsimp only
  rw [if_neg (by rw [hm, hr]; simp), if_pos hall]
  by_cases hn : j + 1 = (s.defOf r).secs.length
  · rw [if_pos hn]
    by_cases hh : a.overlap = .held
    · rw [if_pos hh]
      refine (hcl ?_ ?_).trans ((mapRoute_mapRoute _ _ _ ?_).trans (mapRoute_congr _ _ fun y _ _ => ?_)) <;>
        [rfl; rfl; exact fun _ => rfl; skip]
      unfold ActiveRoute.marked
      rw [if_pos ⟨hn, hh⟩]
      rfl
    · rw [if_neg hh]
      refine (hcl ?_ ?_).trans (mapRoute_congr _ _ fun y _ _ => ?_) <;> [rfl; rfl; skip]
      unfold ActiveRoute.marked
      rw [if_neg fun h => hh h.2]
  · rw [if_neg hn]
    refine mapRoute_congr _ _ fun y _ _ => ?_
    unfold ActiveRoute.marked
    rw [if_neg fun h => hn h.1]

/-- A section OCCUPIED out of sequence is reported in SEQUENTIAL mode (R106, R109). -/
theorem markSection_ahead (hm : a.marks[j]? = some false)
    (hr : a.released[j]? = some false) (hall : ¬ ((a.marks.take j).drop (a.cursor - 1)).all id = true) :
    markSection r j s =
      if (s.defOf r).mode = .sequential then emit (.sequenceAnomaly r i .ahead) s else s := by
  unfold markSection
  rw [ha]
  dsimp only
  rw [if_neg (by rw [hm, hr]; simp), if_neg hall, hj]

end Marks

/-- Every mark from the cursor section up to section `j` is set. -/
theorem marksBefore_iff {l : List Bool} {c j : Nat} (hj : j ≤ l.length) :
    ((l.take j).drop c).all id = true ↔ ∀ k, c ≤ k → k < j → l[k]? = some true := by
  simp only [List.all_eq_true, List.mem_iff_getElem?, List.getElem?_drop, List.getElem?_take, id]
  constructor
  · intro h k hc hk
    obtain ⟨b, hb⟩ : ∃ b, l[k]? = some b := ⟨l[k]'(by omega), List.getElem?_eq_getElem (by omega)⟩
    have := h b ⟨k - c, by rw [Nat.add_sub_cancel' hc, if_pos hk, hb]⟩
    rw [hb, this]
  · rintro h b ⟨k, hk⟩
    split at hk
    · next hlt =>
      rw [h (c + k) (by omega) hlt] at hk
      exact (Option.some.inj hk).symm
    · cases hk

/-! ## The occupation of a section after entry (R106, R109) -/

theorem routeSectionOccupied_entered {s : State} {a : ActiveRoute} {id j : Nat} (ha : s.route? a.id = some a)
    (h : hasEntered a = true) (hj : (s.defOf a.id).secs.findIdx? (fun i => i == id) = some j) :
    routeSectionOccupied id a.id s = if a.released[j]? = some false then
      markSection a.id j (if gapAt s a j then recordGap id a.id s else s) else s := by
  have h1 : ¬ (j = 0 ∧ (a.state = .permitted ∨ a.state = .approachHeld ∨ (a.state = .locked ∧ a.permittedBefore = true))) := by
    rintro ⟨-, hs | hs | ⟨hs, -⟩⟩ <;> simp [hasEntered, hs] at h
  unfold routeSectionOccupied
  rw [ha]
  dsimp only
  rw [hj]
  dsimp only
  rw [if_neg h1, if_neg (by rw [h]; simp)]
  simp only [h, true_and]

theorem gapAt_iff {s : State} {a : ActiveRoute} {j : Nat} : gapAt s a j = true ↔
    (s.defOf a.id).mode = .sequential ∧ a.cursor = j ∧ 1 ≤ j ∧ a.marks[j - 1]? = some true
      ∧ ∃ i, (s.defOf a.id).secs[j - 1]? = some i ∧ secStatusIs s i .clear = true := by
  unfold gapAt
  dsimp only
  cases (s.defOf a.id).secs[j - 1]? <;> simp [and_assoc]

/-- A section that becomes OCCUPIED after entry: a gap before it is announced, and it is marked, or reported AHEAD (R106, R109). -/
theorem occupied_after_entry {s : State} {a : ActiveRoute} {id j : Nat} (ha : s.route? a.id = some a)
    (h : hasEntered a = true) (hj : (s.defOf a.id).secs.findIdx? (fun i => i == id) = some j)
    (ho : secStatusIs s id .occupied = true) (hml : a.marks.length = (s.defOf a.id).secs.length)
    (hrl : a.released.length = (s.defOf a.id).secs.length)  {t : State} (ht : t = if gapAt s a j = true then
      (emit (.sequenceAnomaly a.id id .gap) s).mapRoute a.id (fun y => { y with gapped := true }) else s) :
    (a.released[j]? = some true → routeSectionOccupied id a.id s = s)
    ∧ (a.released[j]? ≠ some true →
      (a.marks[j]? = some true → routeSectionOccupied id a.id s = t)
      ∧ (a.marks[j]? ≠ some true →
        ((∀ k, a.cursor - 1 ≤ k → k < j → a.marks[k]? = some true) → routeSectionOccupied id a.id s =
          t.mapRoute a.id (ActiveRoute.marked (a.overlap = .held) (param 10 s) (s.defOf a.id).secs.length j))
        ∧ ((¬ ∀ k, a.cursor - 1 ≤ k → k < j → a.marks[k]? = some true) → routeSectionOccupied id a.id s =
          if (s.defOf a.id).mode = .sequential then emit (.sequenceAnomaly a.id id .ahead) t else t))) := by
  obtain ⟨hlt, hid, -⟩ := List.findIdx?_eq_some_iff_getElem.1 hj
  have hsec : (s.defOf a.id).secs[j]? = some id := (List.getElem?_eq_getElem hlt).trans (by rw [beq_iff_eq.1 hid])
  have hflag {l : List Bool} (hl : l.length = (s.defOf a.id).secs.length) (hn : l[j]? ≠ some true) : l[j]? = some false := by
    have hb : l[j]? = some l[j] := List.getElem?_eq_getElem (hl ▸ hlt)
    cases hv : l[j] with
    | false => rw [hb, hv]
    | true => rw [hb, hv] at hn; exact absurd rfl hn
  have hocc := routeSectionOccupied_entered ha h hj
  have hgap : (if gapAt s a j then recordGap id a.id s else s) = t := ht.symm
  rw [hgap] at hocc
  -- the record as the gap leaves it
  obtain ⟨b, hb, hbm, hbr, hbc, hbo⟩ : ∃ b, t.route? a.id = some b ∧ b.marks = a.marks
      ∧ b.released = a.released ∧ b.cursor = a.cursor ∧ b.overlap = a.overlap := by
    rw [ht]
    by_cases hg : gapAt s a j = true
    · rw [if_pos hg]
      exact ⟨{ a with gapped := true }, route?_mapped (s := emit _ s) (fun y => { y with gapped := true }) (fun _ => rfl) ha, rfl, rfl, rfl, rfl⟩
    · rw [if_neg hg]
      exact ⟨a, ha, rfl, rfl, rfl, rfl⟩
  have hdef : t.defOf a.id = s.defOf a.id := by rw [ht]; split <;> rfl
  have hst : secStatusIs t id .occupied = secStatusIs s id .occupied := by rw [ht]; split <;> rfl
  have hparam : param 10 t = param 10 s := by rw [ht]; split <;> rfl
  refine ⟨fun hr => hocc.trans (if_neg (by rw [hr]; simp)), fun hr => ?_⟩
  rw [if_pos (hflag hrl hr)] at hocc
  refine ⟨fun hm => hocc.trans (markSection_marked hb (by rw [hbm, hm])), fun hm => ⟨fun hall => ?_, fun hall => ?_⟩⟩
  · refine hocc.trans ((markSection_marks hb (hdef ▸ hsec) (hst.trans ho) (hbm ▸ hflag hml hm) (hbr ▸ hflag hrl hr) ?_).trans ?_)
    · rw [hbm, hbc]
      exact (marksBefore_iff (by omega)).2 hall
    · rw [hbo, hparam, hdef]
  · refine hocc.trans ((markSection_ahead hb (hdef ▸ hsec) (hbm ▸ hflag hml hm) (hbr ▸ hflag hrl hr) ?_).trans ?_)
    · rw [hbm, hbc]
      exact mt (marksBefore_iff (by omega)).1 hall
    · rw [hdef]

/-! ## Marks at entry (R106) -/

/-- The marks of `n` sections of which the first `j` are marked. -/
def entryMarks (n j : Nat) : List Bool := (List.range n).map (fun i => Decidable.decide (i < j))

theorem entryMarks_get {n j k : Nat} (hk : k < n) : (entryMarks n j)[k]? = some (Decidable.decide (k < j)) := by
  unfold entryMarks
  rw [List.getElem?_map, List.getElem?_range hk]
  rfl

@[simp] theorem entryMarks_length (n j : Nat) : (entryMarks n j).length = n := by simp [entryMarks]

theorem entryMarks_zero (n : Nat) : entryMarks n 0 = List.replicate n false := by
  refine List.ext_getElem? fun k => ?_
  by_cases hk : k < n
  · rw [entryMarks_get hk, List.getElem?_replicate, if_pos hk]
    rfl
  · rw [List.getElem?_eq_none (by simpa using hk), List.getElem?_eq_none (by simpa using hk)]

theorem entryMarks_set (n j : Nat) : (entryMarks n j).set j true = entryMarks n (j + 1) := by
  refine List.ext_getElem? fun k => ?_
  by_cases hk : k < n
  · rw [entryMarks_get hk, List.getElem?_set, entryMarks_length]
    by_cases hj : j = k
    · simp [hj, hk]
    · rw [if_neg hj, entryMarks_get hk]
      simp only [Option.some.injEq, decide_eq_decide]
      omega
  · rw [List.getElem?_eq_none (by simpa using hk), List.getElem?_eq_none (by simpa using hk)]

/-- What the entry does with section `j` (from 0) of a route (R106). -/
def entryStep (r : Nat) (secs : List Nat) (j : Nat) (t : State) : State :=
  if j = 0 then markSection r j t
  else match secs[j]? with
    | some i => if secStatusIs t i .occupied then markSection r j t else t
    | none => t

theorem markEntry_eq (r : Nat) (s : State) :
    markEntry r s = inOrder ((List.range (s.defOf r).secs.length).map (entryStep r (s.defOf r).secs)) s := rfl

theorem entryStep_occupied {r j i : Nat} {secs : List Nat} {t : State} (hj : secs[j]? = some i)
    (ho : secStatusIs t i .occupied = true) : entryStep r secs j t = markSection r j t := by
  unfold entryStep
  rw [hj]
  dsimp only
  rw [if_pos ho, ite_self]

theorem entryStep_free {r j i : Nat} {secs : List Nat} {t : State} (h0 : j ≠ 0) (hj : secs[j]? = some i)
    (ho : secStatusIs t i .occupied = false) : entryStep r secs j t = t := by
  unfold entryStep
  rw [if_neg h0, hj]
  exact if_neg (by rw [ho]; decide)

/-- The record of a route at whose entry the first `j` of `n` sections are marked (R106, R112). -/
def ActiveRoute.entered (p n j : Nat) (y : ActiveRoute) : ActiveRoute :=
  { y with
    marks := entryMarks n j
    overlapTimer := if j = n ∧ y.overlap = .held then ⟨.running, p⟩ else y.overlapTimer }

theorem ActiveRoute.entered_marked (p : Nat) {n j : Nat} (h : j < n) {y : ActiveRoute} :
    (y.entered p n j).marked (y.overlap = .held) p n j = y.entered p n (j + 1) := by
  unfold ActiveRoute.marked ActiveRoute.entered
  dsimp only
  rw [entryMarks_set, if_neg fun h0 : j = n ∧ _ => h.ne h0.1]

/-- A route that the train enters: no section marked or released yet. -/
structure Enters (s : State) (a : ActiveRoute) : Prop where
  route : s.route? a.id = some a
  ids : (s.routes.map (·.id)).Nodup
  marks : a.marks = List.replicate (s.defOf a.id).secs.length false
  released : a.released = List.replicate (s.defOf a.id).secs.length false
  cursor : a.cursor = 1

section EntryMarks
variable {s : State} {a : ActiveRoute} (h : Enters s a)
include h

theorem Enters.only {y : ActiveRoute} (hy : y ∈ s.routes) (hid : y.id = a.id) : y = a :=
  List.inj_on_of_nodup_map h.ids hy (List.mem_of_find?_eq_some h.route) hid

theorem Enters.unreleased {j : Nat} (hj : j < (s.defOf a.id).secs.length) : a.released[j]? = some false := by
  rw [h.released, List.getElem?_replicate, if_pos hj]

/-- The sections OCCUPIED from S1 on without a gap are marked (R106). -/
theorem Enters.marks_first {j : Nat} (hn : 0 < (s.defOf a.id).secs.length) (hj : j ≤ (s.defOf a.id).secs.length)
    (hocc : ∀ i ∈ (s.defOf a.id).secs.take j, secStatusIs s i .occupied = true) :
    inOrder ((List.range j).map (entryStep a.id (s.defOf a.id).secs)) s =
      s.mapRoute a.id (ActiveRoute.entered (param 10 s) (s.defOf a.id).secs.length j) := by
  induction j with
  | zero =>
    refine (State.ext_locks rfl rfl rfl ?_ : s = _)
    refine (List.map_id s.routes).symm.trans (List.map_congr_left fun y hy => ?_)
    by_cases hid : y.id = a.id
    · obtain rfl := h.only hy hid
      rw [if_pos rfl]
      unfold ActiveRoute.entered
      rw [if_neg fun h0 => hn.ne h0.1, entryMarks_zero, ← h.marks]
      rfl
    · rw [if_neg hid]
      rfl
  | succ j ih =>
    have hlt : j < (s.defOf a.id).secs.length := hj
    have hsec : (s.defOf a.id).secs[j]? = some (s.defOf a.id).secs[j] := List.getElem?_eq_getElem hlt
    have ho : secStatusIs s (s.defOf a.id).secs[j] .occupied = true :=
      hocc _ (List.mem_take_iff_getElem.2 ⟨j, by omega, rfl⟩)
    have hb := route?_mapped (ActiveRoute.entered (param 10 s) (s.defOf a.id).secs.length j) (fun _ => rfl) h.route
    rw [List.range_succ, List.map_append, inOrder_append,
      ih hlt.le fun i hi => hocc i (List.take_subset_take_left _ (Nat.le_succ j) hi)]
    refine (entryStep_occupied (t := s.mapRoute _ _) hsec ho).trans ((markSection_marks hb hsec ho ?_ (h.unreleased hlt) ?_).trans
      ((mapRoute_mapRoute _ _ _ ?_).trans (mapRoute_congr _ _ fun y hy hid => ?_)))
    · exact (entryMarks_get hlt).trans (by simp)
    · refine (marksBefore_iff ?_).2 fun k _ hk => (entryMarks_get (by omega)).trans (by simp [hk])
      exact (entryMarks_length _ _).symm ▸ hlt.le
    · exact fun _ => rfl
    · obtain rfl := h.only hy hid
      exact ActiveRoute.entered_marked _ hlt

end EntryMarks

/-- The list positions from `k` on. -/
theorem filterMap_range'_getElem? {α : Type} (l : List α) (m k : Nat) (h : k + m = l.length) :
    (List.range' k m).filterMap (fun j => l[j]?) = l.drop k := by
  induction m generalizing k with
  | zero => rw [List.drop_eq_nil_of_le (by omega)]; rfl
  | succ m ih =>
    have hk : k < l.length := by omega
    rw [List.range'_succ, List.filterMap_cons_some (List.getElem?_eq_getElem hk), ih (k + 1) (by omega),
      List.drop_eq_getElem_cons hk]

/-- What marking at entry reads: the record with its first `passed` sections marked, and what is OCCUPIED. -/
structure Passed (s : State) (r : Nat) (d : RouteDef) (occ : Nat → Bool) (passed : Nat) (t : State) : Prop where
  route : ∃ b, t.route? r = some b ∧ b.marks = entryMarks d.secs.length passed
    ∧ b.released = List.replicate d.secs.length false ∧ b.cursor = 1
  defn : t.defOf r = d
  occupied : ∀ i, secStatusIs t i .occupied = occ i

/-- The sections OCCUPIED beyond a gap are reported AHEAD in SEQUENTIAL mode, in section order (R106, log 46). -/
theorem Passed.ahead {s : State} {r passed : Nat} {d : RouteDef} {occ : Nat → Bool} (h1 : 1 ≤ passed)
    (hgap : ∀ i, d.secs[passed]? = some i → occ i = false) {js : List Nat}
    (hjs : ∀ j ∈ js, passed ≤ j ∧ j < d.secs.length) {t : State} (h : Passed s r d occ passed t) :
    inOrder (js.map (entryStep r d.secs)) t = emitAll (if d.mode = .sequential then
      ((js.filterMap (fun j => d.secs[j]?)).filter occ).map (fun i => Event.sequenceAnomaly r i .ahead) else []) t := by
  induction js generalizing t with
  | nil => split <;> rfl
  | cons j js ih =>
    obtain ⟨hle, hlt⟩ := hjs j List.mem_cons_self
    have hrest : ∀ k ∈ js, passed ≤ k ∧ k < d.secs.length := fun k hk => hjs k (List.mem_cons_of_mem _ hk)
    have hsec : d.secs[j]? = some d.secs[j] := List.getElem?_eq_getElem hlt
    rw [List.filterMap_cons_some hsec]
    refine (?_ : inOrder (js.map (entryStep r d.secs)) (entryStep r d.secs j t) = _)
    cases ho : occ d.secs[j] with
    | false =>
      rw [entryStep_free (by omega) hsec ((h.occupied _).trans ho), ih hrest h, List.filter_cons_of_neg (by rw [ho]; decide)]
    | true =>
      obtain ⟨b, hb, hbm, hbr, hbc⟩ := h.route
      have hne : j ≠ passed := by
        rintro rfl
        rw [hgap _ hsec] at ho
        cases ho
      have hstep : entryStep r d.secs j t =
          if d.mode = .sequential then emit (.sequenceAnomaly r d.secs[j] .ahead) t else t := by
        refine (entryStep_occupied hsec ((h.occupied _).trans ho)).trans
          ((markSection_ahead hb (by rw [h.defn]; exact hsec) ?_ ?_ ?_).trans (by rw [h.defn]))
        · rw [hbm, entryMarks_get hlt, decide_eq_false (by omega)]
        · rw [hbr, List.getElem?_replicate, if_pos hlt]
        · rw [hbm, hbc, marksBefore_iff (by rw [entryMarks_length]; omega)]
          intro hall
          have := hall passed (by omega) (by omega)
          rw [entryMarks_get (by omega)] at this
          simp at this
      rw [hstep, List.filter_cons_of_pos ho]
      by_cases hm : d.mode = .sequential
      · rw [if_pos hm, if_pos hm, ih hrest (t := emit _ t) ⟨⟨b, hb, hbm, hbr, hbc⟩, h.defn, h.occupied⟩, if_pos hm]
        rfl
      · rw [if_neg hm, if_neg hm, ih hrest h, if_neg hm]

/-- The first section that ends a run is none of it. -/
theorem takeWhile_next {α : Type} {p : α → Bool} {l : List α} {i : α} (h : l[(l.takeWhile p).length]? = some i) :
    p i = false := by
  induction l with
  | nil => cases h
  | cons x l ih =>
    cases hx : p x with
    | false =>
      rw [List.takeWhile_cons_of_neg (by rw [hx]; decide)] at h
      cases h
      exact hx
    | true =>
      rw [List.takeWhile_cons_of_pos hx] at h
      exact ih h

/-- The marks of a route at entry, and the anomalies found there (R106; log 46). -/
theorem Enters.markEntry {s : State} {a : ActiveRoute} (h : Enters s a) {id : Nat}
    (hhead : (s.defOf a.id).secs.head? = some id) (ho : secStatusIs s id .occupied = true) :
    let d := s.defOf a.id
    let occupied (i : Nat) : Bool := secStatusIs s i .occupied
    let passed := (d.secs.tail.takeWhile occupied).length + 1
    markEntry a.id s = emitAll (if d.mode = .sequential then
        ((d.secs.drop passed).filter occupied).map (fun i => Event.sequenceAnomaly a.id i .ahead) else [])
      (s.mapRoute a.id (ActiveRoute.entered (param 10 s) d.secs.length passed)) := by
  intro d occupied passed
  obtain ⟨rest, hsecs⟩ : ∃ rest, d.secs = id :: rest := by
    cases hl : d.secs with
    | nil => rw [hl] at hhead; cases hhead
    | cons x rest => rw [hl] at hhead; cases hhead; exact ⟨rest, rfl⟩
  have hpassed : passed = (rest.takeWhile occupied).length + 1 := by
    show (d.secs.tail.takeWhile occupied).length + 1 = _
    rw [hsecs]
    rfl
  have hle : passed ≤ d.secs.length := by
    rw [hpassed, hsecs]
    exact Nat.succ_le_succ (List.takeWhile_prefix _).length_le
  have hfirst : ∀ i ∈ d.secs.take passed, secStatusIs s i .occupied = true := by
    rw [hpassed, hsecs, List.take_succ_cons, List.prefix_iff_eq_take.1 (List.takeWhile_prefix occupied) |>.symm]
    intro i hi
    rcases List.mem_cons.1 hi with rfl | hi
    · exact ho
    · exact (List.mem_takeWhile_imp hi : occupied i = true)
  have hgap : ∀ i, d.secs[passed]? = some i → occupied i = false := fun i hi => by
    rw [hpassed, hsecs] at hi
    exact takeWhile_next hi
  have hmarks := h.marks_first (by exact lt_of_lt_of_le (Nat.succ_pos _) hle) hle hfirst
  have hpass : Passed s a.id d occupied passed (s.mapRoute a.id (ActiveRoute.entered (param 10 s) d.secs.length passed)) :=
    ⟨⟨_, route?_mapped _ (fun _ => rfl) h.route, rfl, h.released, h.cursor⟩, rfl, fun _ => rfl⟩
  have hsplit : List.range d.secs.length = List.range passed ++ List.range' passed (d.secs.length - passed) := by
    have := List.range'_append_1 (s := 0) (m := passed) (n := d.secs.length - passed)
    rwa [Nat.zero_add, Nat.add_sub_cancel' hle, ← List.range_eq_range', ← List.range_eq_range', eq_comm] at this
  rw [markEntry_eq, ← filterMap_range'_getElem? d.secs _ _ (Nat.add_sub_cancel' hle)]
  show inOrder ((List.range d.secs.length).map (entryStep a.id d.secs)) s = _
  rw [hsplit, List.map_append, inOrder_append, hmarks]
  exact hpass.ahead (Nat.succ_pos _) hgap fun j hj => by
    obtain ⟨h1, h2⟩ := List.mem_range'_1.1 hj
    omega

/-! ## Entry (R68, R69, R116) -/

theorem routeSectionOccupied_first {s : State} {a : ActiveRoute} {id : Nat} (ha : s.route? a.id = some a)
    (hhead : (s.defOf a.id).secs.head? = some id) (hn : hasEntered a = false) : routeSectionOccupied id a.id s =
      if a.state = .permitted ∨ a.state = .approachHeld ∨ (a.state = .locked ∧ a.permittedBefore = true) then enterRoute a s
      else if a.state = .emergencyTiming then enterEmergency a s else s := by
  have h0 : (s.defOf a.id).secs.findIdx? (fun i => i == id) = some 0 := by
    cases hl : (s.defOf a.id).secs with
    | nil => rw [hl] at hhead; cases hhead
    | cons x rest => rw [hl] at hhead; cases hhead; exact List.findIdx?_cons.trans (if_pos (by simp))
  unfold routeSectionOccupied
  rw [ha]
  dsimp only
  rw [h0]
  simp [hn]

/-- The marks of a route at entry, read in the state `s` before it, from which `u` differs in permission, entry-of and
the route's own record at most. -/
theorem Enters.markEntry_from {s u : State} {a b : ActiveRoute} (h : Enters u b) (hid : b.id = a.id)
    (hd : u.defOf a.id = s.defOf a.id) (hs : secStatusIs u = secStatusIs s) (hp : param 10 u = param 10 s) {id : Nat}
    (hhead : (s.defOf a.id).secs.head? = some id) (ho : secStatusIs s id .occupied = true) :
    let d := s.defOf a.id
    let occupied (i : Nat) : Bool := secStatusIs s i .occupied
    let passed := (d.secs.tail.takeWhile occupied).length + 1
    Machine.markEntry a.id u = emitAll (if d.mode = .sequential then
        ((d.secs.drop passed).filter occupied).map (fun i => Event.sequenceAnomaly a.id i .ahead) else [])
      (u.mapRoute a.id (ActiveRoute.entered (param 10 s) d.secs.length passed)) := by
  have hm := h.markEntry (id := id) (by rw [hid, hd, hhead]) (by rw [hs, ho])
  rw [hid, hd, hs, hp] at hm
  exact hm

/-- Settles O33, with the marks at entry by induction over the sections in their order. -/
theorem sectionReleasesBehindTrain : Obligations.SectionReleasesBehindTrain := by
  unfold Obligations.SectionReleasesBehindTrain
  refine ⟨?_, ?_, ?_, ?_, ?_⟩
  · intro id s a ha d hm he hlt _ next hnext
    have hclear := routeSectionClear_cursor ha id he hm hlt hnext
    by_cases hc : d.secs[a.cursor - 1]? = some id ∧ a.gapped = false ∧ a.marks[a.cursor - 1]? = some true
        ∧ secStatusIs s next .occupied = true
    · rw [if_pos hc]
      rw [if_pos hc] at hclear
      rw [hclear]
      exact releaseSection_frees hc.1
    · rw [if_neg hc]
      exact hclear.trans (if_neg hc)
  · intro s a ha d n clear gone
    refine ⟨fun hg => ?_, testCleared_waits ha, fun id => routeSectionClear_unentered ha id,
      fun id he hm _ hc => routeSectionClear_last ha id he hm hc, fun id he hm => routeSectionClear_whole ha id he hm,
      fun id => ⟨fun hap => ?_, fun hap => (routeApproachClear_eq ha id).trans (if_neg hap)⟩⟩
    · rw [testCleared_gone ha hg]
      exact removeRoute_removes _ _ _ _ _ _
    · rw [routeApproachClear_eq ha id, if_pos hap]
      exact removeRoute_removes _ _ _ _ _ _
  · intro id s a ha hids d n occupied hhead ho hmarks hrel hcur passed marked handed open' w
    have hn : 0 < d.secs.length := by
      rcases hl : d.secs with _ | ⟨x, rest⟩
      · rw [hl] at hhead; cases hhead
      · exact Nat.succ_pos _
    have hent : a.state ≠ .entered → hasEntered a = false := fun hs => by
      obtain ⟨m, hm⟩ : ∃ m, n = m + 1 := ⟨n - 1, (Nat.succ_pred_eq_of_pos hn).symm⟩
      unfold hasEntered
      rw [hmarks, hm]
      simpa [List.replicate_succ] using hs
    have hfirst (hs : a.state ≠ .entered) := routeSectionOccupied_first ha hhead (hent hs)
    have hhand (u : State) : handEntry a u = handed u := rfl
    have henter : enterRoute a s = handed (marked (emit (.routeState a.id (.state .entered) .trainEntered 0)
        ((open' (s.unpermitted d.entry a.id .entered)).mapRoute a.id (fun y =>
          { y with state := .entered, release := ⟨.stopped, 0⟩, releaseT := 0, saturated := false })))) := by
      have hkeep {α : Type} (p : State → α) (h1 : ∀ e s, p (emit e s) = p s) (h2 : ∀ s g, p { s with signals := g } = p s) :=
        unpermitted_keep p h1 h2 s d.entry a.id .entered
      have hr : (s.unpermitted d.entry a.id .entered).routes = s.routes := hkeep _ (fun _ _ => rfl) fun _ _ => rfl
      have hsec : secStatusIs (s.unpermitted d.entry a.id .entered) = secStatusIs s :=
        hkeep (fun u => secStatusIs u) (fun _ _ => rfl) fun _ _ => rfl
      have hdef : (s.unpermitted d.entry a.id .entered).defOf a.id = s.defOf a.id :=
        hkeep (fun u => u.defOf a.id) (fun _ _ => rfl) fun _ _ => rfl
      have hpar : param 10 (s.unpermitted d.entry a.id .entered) = param 10 s := hkeep _ (fun _ _ => rfl) fun _ _ => rfl
      let enter (y : ActiveRoute) : ActiveRoute :=
        { y with state := .entered, release := ⟨.stopped, 0⟩, releaseT := 0, saturated := false }
      have ha' : (s.unpermitted d.entry a.id .entered).route? a.id = some a := by unfold State.route?; rw [hr]; exact ha
      have hE : Enters (emit (.routeState a.id (.state .entered) .trainEntered 0)
          ((open' (s.unpermitted d.entry a.id .entered)).mapRoute a.id enter)) (enter a) := by
        refine ⟨route?_mapped (s := open' _) enter (fun _ => rfl) ha', ?_, ?_, ?_, hcur⟩
        · refine (?_ : (((s.unpermitted d.entry a.id .entered).routes.map
            (fun y => if y.id = a.id then enter y else y)).map (·.id)).Nodup)
          have hid : (fun y : ActiveRoute => (if y.id = a.id then enter y else y).id) = fun y => y.id := by
            funext y; split <;> rfl
          rw [hr, List.map_map]
          exact (congrArg (fun g => (s.routes.map g).Nodup) hid).mpr hids
        · exact (congrArg (fun e : RouteDef => List.replicate e.secs.length false) hdef).symm ▸ hmarks
        · exact (congrArg (fun e : RouteDef => List.replicate e.secs.length false) hdef).symm ▸ hrel
      refine (hhand _).trans (congrArg handed ?_)
      exact hE.markEntry_from rfl hdef hsec hpar hhead ho
    cases hs : a.state with
    | calling => exact (hfirst (by rw [hs]; decide)).trans ((if_neg (by simp [hs])).trans (if_neg (by simp [hs])))
    | entered => trivial
    | emergencyTiming =>
      refine ((hfirst (by rw [hs]; decide)).trans ?_ : w = _)
      rw [if_neg (by simp [hs]), if_pos hs]
      have hE : Enters (open' s) a := ⟨ha, hids, hmarks, hrel, hcur⟩
      exact (hhand _).trans (congrArg handed (hE.markEntry_from rfl rfl rfl rfl hhead ho))
    | permitted =>
      rw [if_neg (by simp)]
      exact (hfirst (by rw [hs]; decide)).trans ((if_pos (by simp [hs])).trans henter)
    | approachHeld =>
      rw [if_neg (by simp)]
      exact (hfirst (by rw [hs]; decide)).trans ((if_pos (by simp [hs])).trans henter)
    | locked =>
      have hl := hfirst (by rw [hs]; decide)
      cases hp : a.permittedBefore with
      | false =>
        rw [if_pos (by simp)]
        exact hl.trans ((if_neg (by simp [hs, hp])).trans (if_neg (by simp [hs])))
      | true =>
        rw [if_neg (by simp)]
        exact hl.trans ((if_pos (by simp [hs, hp])).trans henter)
  · intro id j s a ha he d hj ho hml hrl gap t
    obtain ⟨hrel, hun⟩ := occupied_after_entry ha he hj ho hml hrl (t := t)
      (by unfold t; exact if_congr gapAt_iff.symm rfl rfl)
    by_cases hr : a.released[j]? = some true
    · rw [if_pos hr]
      exact hrel hr
    · rw [if_neg hr]
      obtain ⟨hmk, hum⟩ := hun hr
      by_cases hm : a.marks[j]? = some true
      · rw [if_pos hm]
        exact hmk hm
      · rw [if_neg hm]
        obtain ⟨hall, hahead⟩ := hum hm
        by_cases hk : ∀ k, a.cursor - 1 ≤ k → k < j → a.marks[k]? = some true
        · rw [if_pos hk]
          exact hall hk
        · rw [if_neg hk]
          exact hahead hk
  · intro id old s
    have hoff (hd : s.dev.state = .safeHalt) : routesServed s = false := by unfold routesServed; rw [hd]; rfl
    have hon (hd : s.dev.state ≠ .safeHalt) : routesServed s = true := by unfold routesServed; simpa using hd
    refine ⟨fun hd => if_neg (by rw [hoff hd]; decide), fun hd => ⟨fun ho hold => ?_, fun hc hold => ?_, fun ho hc => ?_⟩⟩
    all_goals unfold routesOnSection; rw [if_pos (hon hd)]
    · rw [if_pos ⟨ho, hold⟩]
      exact inAnyOrder_inSomeOrder _ _
    · rw [if_neg (fun h => by have := secStatusIs_excl h.1; rw [hc] at this; cases this), if_pos ⟨hc, hold⟩]
      exact inAnyOrder_inSomeOrder _ _
    · rw [if_neg (by simp [ho]), if_neg (by simp [hc])]

end Sys2Proof.Machine

/-!
PROOFS. The Boundary Link Controllers: what a link sends, its entries to DOWN and TRAINING, the end of a test, and the
expiry of its timers. O34, O35.
-/

namespace Sys2Proof.Machine

/-! ## What a link sends (R124, R127) -/

theorem mapLink_mapLink (s : State) (l : Nat) {f : Link → Link} (g : Link → Link) (hf : ∀ y, (f y).id = y.id) :
    (s.mapLink l f).mapLink l g = s.mapLink l (fun y => g (f y)) := by
  unfold State.mapLink
  dsimp only
  rw [List.map_map]
  refine congrArg (fun ls => ({ s with links := ls } : State)) (List.map_congr_left fun y _ => ?_)
  by_cases h : y.id = l
  · simp [h, hf]
  · simp [h]

theorem sendTrain_eq {s : State} {l : Nat} {x : Link} (hx : s.link? l = some x) (heard loopback : Bool) :
    sendTrain l heard loopback s =
      { s with tx := s.tx ++ [⟨l, .train ⟨s.dev.area, peerArea x, x.offer, heard, loopback⟩⟩] } := by
  unfold sendTrain
  rw [hx]
  rfl

theorem sendTrain_mapped {s : State} {l : Nat} {x : Link} (f : Link → Link) (hf : ∀ y, (f y).id = y.id)
    (hx : s.link? l = some x) (heard loopback : Bool) : sendTrain l heard loopback (s.mapLink l f) =
      { s.mapLink l f with tx := s.tx ++ [⟨l, .train ⟨s.dev.area, peerArea (f x), (f x).offer, heard, loopback⟩⟩] } :=
  sendTrain_eq (link?_mapped f hf hx) heard loopback

theorem sendCyclic_eq {s : State} {l : Nat} {x : Link} (hx : s.link? l = some x) : sendCyclic l s =
    { s.mapLink l (fun y => { y with sendCounter := y.sendCounter + 1 }) with
      tx := s.tx ++ [⟨l, .cyclic s.dev.area (peerArea x) x.sendCounter (publishedFields s l)⟩] } := by
  have hfields : (slotRefs l).map (fieldsOf s) = publishedFields s l := List.map_map
  unfold sendCyclic
  rw [hx]
  dsimp only
  rw [hfields]
  rfl

/-! ## Link loss (R130, R141) -/

theorem Reacts.links {u t : State} (h : Reacts u t) : t.links = u.links :=
  show t.base.links = u.base.links by rw [h.base]

theorem UnitClosed.losePermit {P : State → Prop} (h : UnitClosed P) {s : State} (x : Slot) (hs : P s) : P (losePermit x s) := by
  have hp {p : Permit} {c : PermitCause} {f : Slot → Slot} (hf : SlotKeeps f) : P (Machine.setPermit x.ref p c f s) :=
    h.setPermit hf hs
  unfold Machine.losePermit
  cases x.permit with
  | taking => exact hp fun _ => rfl
  | giving => exact hp fun _ => rfl
  | heldHere => dsimp only; split <;> [exact hp fun _ => rfl; exact hs]
  | heldThere | fault | unknown => exact hs

theorem UnitClosed.loseOutbound {P : State → Prop} (h : UnitClosed P) {s : State} (x : Slot) (hs : P s) : P (loseOutbound x s) := by
  unfold Machine.loseOutbound
  cases x.outb with
  | offered | accepted | withdrawing => exact h.setOutbound (fun _ => rfl) hs
  | transit | none => exact hs

theorem UnitClosed.loseInbound {P : State → Prop} (h : UnitClosed P) {s : State} (x : Slot) (hs : P s) : P (loseInbound x s) := by
  unfold Machine.loseInbound
  cases x.inb with
  | accepted | declining => exact h.emit _ _ (h.mapSlot (fun _ => rfl) hs)
  | receiving | acceptedIsolated | none => exact hs

theorem UnitClosed.loseSlot {P : State → Prop} (h : UnitClosed P) {s : State} (ref : SlotRef) (hs : P s) : P (loseSlot ref s) := by
  unfold Machine.loseSlot
  cases s.slot? ref with
  | none => exact hs
  | some x => exact h.loseInbound _ (h.loseOutbound _ (h.losePermit _ (h.mapSlot (fun _ => rfl) hs)))

theorem handLink_lossTaken (x : Link) (u : State) : handLink x.id x.state u = u.lossTaken x := by
  unfold handLink State.lossTaken slotsOnLoss slotRefs
  rw [List.map_map, inOrder_map_foldl]
  rfl

theorem reacts_lossTaken (x : Link) (u : State) : Reacts u (u.lossTaken x) := by
  unfold State.lossTaken
  split
  · exact foldl_ind (P := Reacts u) (fun t i ht => (reacts_closed u).loseSlot _ ht) _ (.refl u)
  · exact .refl u

/-! ## Entries to DOWN and TRAINING (R124 to R126), and the end of a test (R133) -/

theorem enterDown_entersDown {s : State} {x : Link} (cause : LinkCause) (hx : s.link? x.id = some x) :
    EntersDown x cause s (enterDown x cause s) := by
  unfold EntersDown
  intro t
  refine ⟨t.lossTaken x, reacts_lossTaken x t, rfl, ?_⟩
  have hl : (t.lossTaken x).link? x.id = _ := (congrArg (List.find? _) (reacts_lossTaken x t).links).trans
    (link?_mapped (s := s) (fun y => { y with
      state := .down, cause := cause, offer := param 13 s, trainCount := 0, lastTrain := none, sentHeard := false
      period := none, test := .idle, supervision := .off, answer := .off, echo := .off, training := .off
      sendTimer := ⟨.running, 200⟩ }) (fun _ => rfl) hx)
  have ht : enterDown x cause s = sendTrain x.id false false (t.lossTaken x) :=
    congrArg (sendTrain x.id false false) (handLink_lossTaken x t)
  rw [ht, sendTrain_eq hl, (reacts_lossTaken x t).dev]
  rfl

theorem enterTraining_entersTraining {s : State} {x y : Link} (cause : LinkCause) (last : Option TrainContent)
    (hx : s.link? x.id = some y) (hconf : y.conf = x.conf) (hoffer : y.offer = x.offer) :
    EntersTraining x cause last s (enterTraining x cause last s) := by
  unfold EntersTraining
  intro offer t
  refine ⟨t.lossTaken x, reacts_lossTaken x t, rfl, ?_⟩
  have hl : (t.lossTaken x).link? x.id = _ := (congrArg (List.find? _) (reacts_lossTaken x t).links).trans
    (link?_mapped (s := s) (fun y => { y with
      state := .training, cause := cause, offer := offer y, trainCount := if last = none then 0 else 1, lastTrain := last
      sentHeard := true, period := none, test := .idle, supervision := .off, answer := .off, echo := .off
      training := ⟨.running, 2000⟩, sendTimer := ⟨.running, 200⟩ }) (fun _ => rfl) hx)
  have hset : setLink x.id .training cause (fun y => { y.restart with
      offer := if x.state = .down then y.offer else param 13 s
      trainCount := if last.isSome then 1 else 0
      lastTrain := last, sentHeard := true
      training := Timer.start Config.trainingTime
      sendTimer := Timer.start Config.trainInterval }) s = t := by
    cases last <;> rfl
  have ht : enterTraining x cause last s = sendTrain x.id true false (t.lossTaken x) := by
    unfold enterTraining
    rw [hset, handLink_lossTaken]
  have hpeer : peerArea y = peerArea x := by unfold peerArea; rw [hconf]
  rw [ht]
  refine (sendTrain_eq hl _ _).trans
    (congrArg (fun p => ({ t.lossTaken x with tx := (t.lossTaken x).tx ++ [p] } : State)) ?_)
  rw [(reacts_lossTaken x t).dev]
  refine congrArg₂ (fun a b => (⟨x.id, .train ⟨s.dev.area, a, b, true, false⟩⟩ : TxFrame)) hpeer ?_
  dsimp only [offer]
  rw [hoffer]

/-- The result that a test leaves (R133). -/
def TestRec.outcome (t : TestRec) : TestResult → TestOutcome
  | .refused => ⟨.refused, 0, 0⟩
  | .complete => ⟨.complete, t.sent, t.matched⟩
  | .incomplete => ⟨.incomplete, t.sent, t.matched⟩

theorem endTest_endsTest {s : State} {x y : Link} (r : TestResult) (cause : LinkCause) (last : Option TrainContent)
    (hx : s.link? x.id = some y) (hconf : y.conf = x.conf) (hoffer : y.offer = x.offer) :
    EndsTest x (x.test.outcome r) cause last s (endTest x r cause last s) := by
  have hl := link?_mapped (fun y => { y with lastResult := some (x.test.outcome r) }) (fun _ => rfl) hx
  have he : endTest x r cause last s = enterTraining x cause last
      (emit (.linkTestResult x.id (x.test.outcome r))
        (s.mapLink x.id (fun y => { y with lastResult := some (x.test.outcome r) }))) := by
    cases r <;> rfl
  unfold EndsTest
  rw [he]
  exact enterTraining_entersTraining (y := { y with lastResult := some (x.test.outcome r) }) cause last hl hconf hoffer

/-! ## O34, O35 -/

/-- Settles O34, timer by timer. -/
theorem linkTimersExpire : Obligations.LinkTimersExpire := by
  unfold Obligations.LinkTimersExpire
  intro l s x hx incomplete
  obtain rfl := link?_id hx
  have hend : EndsTest x incomplete .testEnd none s (endTest x .incomplete .testEnd none s) := by
    exact endTest_endsTest .incomplete .testEnd none hx rfl rfl
  have htrain : EntersTraining x .testEnd none s (enterTraining x .testEnd none s) :=
    enterTraining_entersTraining .testEnd none hx rfl rfl
  refine ⟨?_, ?_, ?_, ?_⟩
  · have he : trainingExpired x.id s =
        if x.training.mode = .running ∧ x.state = .training then enterDown x .trainingTimeout s else s := by
      unfold trainingExpired; rw [hx]
    by_cases h : x.training.mode = .running ∧ x.state = .training
    · rw [if_pos h]
      exact ⟨_, congrArg Host.Outcome.next (he.trans (if_pos h)), enterDown_entersDown _ hx⟩
    · rw [if_neg h]
      exact congrArg Host.Outcome.next (he.trans (if_neg h))
  · have he : supervisionExpired x.id s =
        if x.supervision.mode = .running ∧ x.state = .up then enterDown x .timeout s else s := by
      unfold supervisionExpired; rw [hx]
    by_cases h : x.supervision.mode = .running ∧ x.state = .up
    · rw [if_pos h]
      exact ⟨_, congrArg Host.Outcome.next (he.trans (if_pos h)), enterDown_entersDown _ hx⟩
    · rw [if_neg h]
      exact congrArg Host.Outcome.next (he.trans (if_neg h))
  · have he : answerExpired x.id s =
        if x.answer.mode = .running ∧ x.state = .loopback then endTest x .incomplete .testEnd none s else s := by
      unfold answerExpired; rw [hx]
    by_cases h : x.answer.mode = .running ∧ x.state = .loopback
    · rw [if_pos h]
      exact ⟨_, congrArg Host.Outcome.next (he.trans (if_pos h)), hend⟩
    · rw [if_neg h]
      exact congrArg Host.Outcome.next (he.trans (if_neg h))
  · have he : echoExpired x.id s = if x.echo.mode = .running ∧ x.state = .loopback then
        (if x.test.role = .master then endTest x .incomplete .testEnd none s else enterTraining x .testEnd none s) else s := by
      unfold echoExpired; rw [hx]
    by_cases h : x.echo.mode = .running ∧ x.state = .loopback
    · rw [if_pos h]
      refine ⟨_, congrArg Host.Outcome.next (he.trans (if_pos h)), ?_⟩
      by_cases hm : x.test.role = .master
      · rw [if_pos hm, if_pos hm]
        exact hend
      · rw [if_neg hm, if_neg hm]
        exact htrain
    · rw [if_neg h]
      exact congrArg Host.Outcome.next (he.trans (if_neg h))

theorem linkSendExpired_stopped {s : State} {l : Nat} {x : Link} (hx : s.link? l = some x) (h : x.sendTimer.mode ≠ .running) :
    linkSendExpired l s = s := by
  unfold linkSendExpired
  rw [hx]
  exact if_neg h

theorem linkSendExpired_running {s : State} {l : Nat} {x : Link} (hx : s.link? l = some x) (h : x.sendTimer.mode = .running) :
    linkSendExpired l s = match x.state with
      | .disabled => s
      | .down =>
        sendTrain l false false (s.mapLink l (fun y => { y with sendTimer := Timer.start Config.trainInterval }))
      | .training =>
        sendTrain l true false
          (s.mapLink l (fun y => { y with sentHeard := true, sendTimer := Timer.start Config.trainInterval }))
      | .up => sendCyclic l (s.mapLink l (fun y => { y with sendTimer := Timer.start (periodOf x) }))
      | .loopback =>
        match x.test.phase with
        | .asking => sendTrain l false true (s.mapLink l (fun y => { y with sendTimer := .off }))
        | .running => if x.test.sent < x.test.count then sendLoop x s else s
        | .none => s := by
  unfold linkSendExpired
  rw [hx]
  exact if_pos h

/-- Settles O35, by the state of the link. -/
theorem linkSendsByState : Obligations.LinkSendsByState := by
  unfold Obligations.LinkSendsByState
  refine ⟨fun s l => ⟨by simp [publishedFields], fun i hi => ?_⟩, fun x => ?_, ?_⟩
  · unfold publishedFields
    rw [List.getElem?_map, List.getElem?_range hi]
    rfl
  · refine congrArg₂ (PubFields.mk (pubPermit x)) ?_ ?_
    · unfold pubOut
      cases x.outb <;> rfl
    · unfold pubIn
      cases x.inb <;> rfl
  · intro l s x hx sends idles
    by_cases hr : x.sendTimer.mode = .running
    · have he := linkSendExpired_running hx hr
      rw [if_pos hr]
      cases hs : x.state with
      | disabled =>
        rw [hs] at he
        exact congrArg Host.Outcome.next he
      | down =>
        rw [hs] at he
        exact congrArg Host.Outcome.next (he.trans (sendTrain_mapped _ (by exact fun _ => rfl) hx _ _))
      | training =>
        rw [hs] at he
        exact congrArg Host.Outcome.next (he.trans (sendTrain_mapped _ (by exact fun _ => rfl) hx _ _))
      | up =>
        rw [hs] at he
        refine congrArg Host.Outcome.next (he.trans ((sendCyclic_eq (link?_mapped _ (by exact fun _ => rfl) hx)).trans ?_))
        rw [mapLink_mapLink _ _ _ (by exact fun _ => rfl)]
        rfl
      | loopback =>
        rw [hs] at he
        cases hp : x.test.phase with
        | none => rw [hp] at he; exact congrArg Host.Outcome.next he
        | asking =>
          rw [hp] at he
          exact congrArg Host.Outcome.next (he.trans (sendTrain_mapped _ (by exact fun _ => rfl) hx _ _))
        | running =>
          rw [hp] at he
          dsimp only at he ⊢
          obtain rfl := link?_id hx
          by_cases hc : x.test.sent < x.test.count
          · rw [if_pos hc]
            exact congrArg Host.Outcome.next (he.trans (if_pos hc))
          · rw [if_neg hc]
            exact congrArg Host.Outcome.next (he.trans (if_neg hc))
    · rw [if_neg hr]
      exact congrArg Host.Outcome.next (linkSendExpired_stopped hx hr)

end Sys2Proof.Machine

/-!
PROOFS. What a link does with the frames and runs that it takes from its line. O36, O37, O38, O39, O40.
-/

namespace Sys2Proof.Machine

/-! ## Frames that reach a link (R123) -/

section LinkFrames
variable {s : State} {l : Nat} {x : Link} (hx : s.link? l = some x)
include hx

theorem takeRun_deaf (c : RunClass) (h : x.conf = none ∨ x.state = .disabled ∨ x.halted = true) : takeRun l c s = s := by
  have hl : x.listens = false := by
    unfold Link.listens
    rcases h with h | h | h <;> simp [h]
  unfold takeRun
  rw [hx]
  exact if_neg (by rw [hl]; decide)

theorem takeRun_listens (c : RunClass) (h : ¬ (x.conf = none ∨ x.state = .disabled ∨ x.halted = true)) :
    takeRun l c s = match c with
      | .bad => badFrame x s
      | .unknown => s.mapLink l (fun y => { y with badRun := 0 })
      | .known f => knownFrame x f s := by
  have hl : x.listens = true := by
    unfold Link.listens
    simp only [Bool.and_eq_true, bne_iff_ne, ne_eq, Bool.not_eq_true', Option.isSome_iff_ne_none]
    exact ⟨⟨fun e => h (.inl e), fun e => h (.inr (.inl e))⟩, Bool.eq_false_iff.2 fun e => h (.inr (.inr e))⟩
  unfold takeRun
  rw [hx]
  exact if_pos hl

/-- A frame with the right areas, or a LOOP, is valid (R123). -/
theorem takeRun_valid (f : LinkFrame) (hc : x.conf ≠ none) (hh : x.halted = false) (hd : x.state ≠ .disabled)
    (ha : ∀ a b, areasOf f = some (a, b) → a = peerArea x ∧ b = s.dev.area) :
    takeRun l (.known f) s = validFrame x f s := by
  rw [takeRun_listens hx _ (by rw [hh]; simp [hc, hd])]
  show knownFrame x f s = _
  unfold knownFrame
  cases he : areasOf f with
  | none => rfl
  | some p => exact if_pos (ha _ _ he)

end LinkFrames

/-! ## TRAIN frames (R124 to R126, R131 to R133) -/

/-- The record of a link that has come UP with period `p`, its first CYCLIC not yet sent (R126, R127). -/
def Link.up (time p : Nat) (y : Link) : Link :=
  { y with state := .up, cause := .trained, period := some p, sendCounter := 0, lastCounter := none, training := .off
           sendTimer := ⟨.running, p⟩, supervision := ⟨.running, time⟩ }

theorem enterUp_eq {s : State} {x : Link} (hx : s.link? x.id = some x) : enterUp x s = s.withLinkUp x (adopted x) := by
  have hl := link?_mapped (Link.up (param 14 s * adopted x) (adopted x)) (fun _ => rfl) hx
  have hs := sendCyclic_eq (s := emit (.linkState x.id .up .trained) (s.mapLink x.id _)) hl
  have hm := mapLink_mapLink s x.id (f := Link.up (param 14 s * adopted x) (adopted x))
    (fun y => { y with sendCounter := y.sendCounter + 1 }) (fun _ => rfl)
  refine (congrArg (slotsOnUp x.id) hs).trans ?_
  refine (congrArg (fun v : State => slotsOnUp x.id { emit (.linkState x.id .up .trained) v with
    tx := s.tx ++ [⟨x.id, .cyclic s.dev.area (peerArea x) 0 (publishedFields s x.id)⟩] }) hm).trans ?_
  rfl

theorem trainInTraining_eq {s : State} {x : Link} {c : TrainContent} (hx : s.link? x.id = some x) :
    trainInTraining x c s =
      if (x.trained c).trainCount = 2 ∧ c.heard = true ∧ x.sentHeard = true then
        (s.mapLink x.id (·.trained c)).withLinkUp (x.trained c) (max x.offer c.offer)
      else s.mapLink x.id (·.trained c) :=
  ite_congr rfl (fun _ => enterUp_eq (link?_mapped _ (fun _ => rfl) hx)) fun _ => rfl

/-- The frame of a TRAIN whose offer is in range (R175, R176). -/
def trainOf (sender receiver offer : Half) (flags : Byte) : TrainContent :=
  ⟨sender.toNat, receiver.toNat, offer.toNat, flags.toNat % 2 == 1, flags.toNat / 2 % 2 == 1⟩

/-- A TRAIN with the right areas is taken by the state of the link (R123). -/
theorem trainFrame_taken {s : State} {l : Nat} {x : Link} (sender receiver offer : Half) (flags : Byte)
    (hx : s.link? l = some x) (hc : x.conf ≠ none) (hh : x.halted = false) (hd : x.state ≠ .disabled)
    (ha : sender.toNat = peerArea x) (hb : receiver.toNat = s.dev.area) (h1 : 50 ≤ offer.toNat) (h2 : offer.toNat ≤ 1000) :
    exec (.linkTrainFrame l sender receiver offer flags) s =
      .next (takeTrain x.countValid (trainOf sender receiver offer flags) (s.mapLink l Link.countValid)) := by
  have hf : trainFrame sender.toNat receiver.toNat offer.toNat flags.toNat =
      some (.train (trainOf sender receiver offer flags)) := if_pos ⟨h1, h2⟩
  refine congrArg Host.Outcome.next ((congrArg (fun r => takeRun l (runOf r) s) hf).trans ?_)
  obtain rfl := link?_id hx
  exact takeRun_valid hx (.train (trainOf sender receiver offer flags)) hc hh hd fun a b he => by
    cases he
    exact ⟨ha, hb⟩

theorem slotsIdle_iff {s : State} {l : Nat} :
    slotsIdle s l = true ↔ ∀ z ∈ s.slots, z.ref.link = l → z.idle = true := by
  unfold slotsIdle
  simp only [List.all_eq_true, List.mem_filter, beq_iff_eq, and_imp]

/-- A peer's request for a test is consented to as slave (R132). -/
theorem testAsked_consents {s : State} {x : Link} (hx : s.link? x.id = some x)
    (h : s.dev.state = .inService ∧ slotsIdle s x.id = true) : testAsked x s =
      { emit (.linkState x.id .loopback .peerTest) (s.mapLink x.id (fun z =>
          { z with state := .loopback, cause := .peerTest, supervision := ⟨.stopped, 0⟩, sendTimer := ⟨.stopped, 0⟩
                   test := { TestRec.idle with role := .slave }, echo := ⟨.running, param 14 s * periodOf x⟩ })) with
        tx := s.tx ++ [⟨x.id, .train ⟨s.dev.area, peerArea x, x.offer, true, true⟩⟩] } := by
  have hl := link?_mapped (fun z => { z with
    state := .loopback, cause := .peerTest, supervision := ⟨.stopped, 0⟩, sendTimer := ⟨.stopped, 0⟩
    test := { TestRec.idle with role := .slave } }) (fun _ => rfl) hx
  have hs := sendTrain_eq (s := emit (.linkState x.id .loopback .peerTest) (s.mapLink x.id _)) hl true true
  have hm := mapLink_mapLink s x.id (f := fun z => { z with
    state := .loopback, cause := .peerTest, supervision := ⟨.stopped, 0⟩, sendTimer := ⟨.stopped, 0⟩
    test := { TestRec.idle with role := .slave } }) (fun z => { z with echo := ⟨.running, param 14 s * periodOf x⟩ })
    (fun _ => rfl)
  refine (if_pos h).trans ?_
  refine (congrArg (fun v : State => v.mapLink x.id (fun z => { z with echo := ⟨.running, param 14 s * periodOf x⟩ })) hs).trans ?_
  exact congrArg (fun v : State => ({ emit (.linkState x.id .loopback .peerTest) v with
    tx := s.tx ++ [⟨x.id, .train ⟨s.dev.area, peerArea x, x.offer, true, true⟩⟩] } : State)) hm

/-- Settles O36, by the state of the link. -/
theorem trainFramesByState : Obligations.TrainFramesByState := by
  unfold Obligations.TrainFramesByState
  intro l sender receiver offer flags s x hx hc hh ha hb h1 h2 heard loopback c y u takes
  have hcc : c = trainOf sender receiver offer flags := rfl
  obtain rfl := link?_id hx
  have hy : u.link? y.id = some y := link?_mapped _ (fun _ => rfl) hx
  have hlb : c.loopback = true ↔ loopback := decide_eq_true_iff
  have hhd : c.heard = true ↔ heard := decide_eq_true_iff
  have htake (hd : x.state ≠ .disabled) {e : State → Prop} (he : e (takeTrain y c u)) : takes e :=
    ⟨_, trainFrame_taken sender receiver offer flags hx hc hh hd ha hb h1 h2, he⟩
  have hys : y.state = x.state := rfl
  have hlf (hl : ¬ loopback) : ¬ c.loopback = true := mt hlb.1 hl
  have hstate {v : State} (hs : takeTrain y c u = v) (hd : x.state ≠ .disabled) {e : State → Prop} (he : e v) : takes e :=
    htake hd (hs ▸ he)
  cases hs : x.state with
  | loopback => trivial
  | disabled =>
    refine ⟨s, congrArg Host.Outcome.next ?_, rfl⟩
    exact takeRun_deaf hx _ (.inr (.inl hs))
  | down =>
    have ht : takeTrain y c u = if c.loopback = true then u else enterTraining y .peerHeard (some c) u := by
      unfold takeTrain; rw [hys, hs]
    have hd : x.state ≠ .disabled := by rw [hs]; nofun
    dsimp -zeta only
    by_cases hlo : loopback
    · rw [if_pos hlo]
      exact hstate (ht.trans (if_pos (hlb.2 hlo))) hd rfl
    · rw [if_neg hlo]
      exact hstate (ht.trans (if_neg (hlf hlo))) hd (enterTraining_entersTraining _ _ hy rfl rfl)
  | training =>
    have ht : takeTrain y c u = if c.loopback = true then u else trainInTraining y c u := by
      unfold takeTrain; rw [hys, hs]
    have hd : x.state ≠ .disabled := by rw [hs]; nofun
    dsimp -zeta only
    by_cases hlo : loopback
    · rw [if_pos hlo]
      exact hstate (ht.trans (if_pos (hlb.2 hlo))) hd rfl
    · rw [if_neg hlo]
      have htr := (ht.trans (if_neg (hlf hlo))).trans (trainInTraining_eq hy)
      intro count counted
      by_cases hup : count x = 2 ∧ heard ∧ x.sentHeard = true
      · rw [if_pos hup]
        exact hstate (htr.trans (if_pos ⟨hup.1, hhd.2 hup.2.1, hup.2.2⟩)) hd rfl
      · rw [if_neg hup]
        exact hstate (htr.trans (if_neg fun hn => hup ⟨hn.1, hhd.1 hn.2.1, hn.2.2⟩)) hd rfl
  | up =>
    have ht : takeTrain y c u = if c.loopback = true then (if c.heard = true then u else testAsked y u)
        else enterTraining y .peerRestart (some c) u := by
      unfold takeTrain; rw [hys, hs]
    have hd : x.state ≠ .disabled := by rw [hs]; nofun
    dsimp -zeta only
    by_cases hlo : loopback
    · rw [if_pos hlo]
      have hask := ht.trans (if_pos (hlb.2 hlo))
      by_cases hhe : heard
      · rw [if_pos hhe]
        exact hstate (hask.trans (if_pos (hhd.2 hhe))) hd rfl
      · rw [if_neg hhe]
        have hask := hask.trans (if_neg (mt hhd.1 hhe))
        by_cases hi : s.dev.state = .inService ∧ ∀ z ∈ s.slots, z.ref.link = x.id → z.idle = true
        · rw [if_pos hi]
          exact hstate (hask.trans (testAsked_consents hy ⟨hi.1, slotsIdle_iff.2 hi.2⟩)) hd
            (congrArg (fun v : State => ({ emit (.linkState x.id .loopback .peerTest) v with
              tx := s.tx ++ [⟨x.id, .train ⟨s.dev.area, peerArea x, x.offer, true, true⟩⟩] } : State)) rfl)
        · rw [if_neg hi]
          have href : testAsked y u = enterTraining y .testRefused none u :=
            if_neg fun hn => hi ⟨hn.1, slotsIdle_iff.1 hn.2⟩
          exact hstate (hask.trans href) hd (enterTraining_entersTraining _ _ hy rfl rfl)
    · rw [if_neg hlo]
      exact hstate (ht.trans (if_neg (hlf hlo))) hd (enterTraining_entersTraining _ _ hy rfl rfl)

/-! ## A test in LOOPBACK (R131 to R133) -/

theorem answerTest_eq {s : State} {x : Link} (hx : s.link? x.id = some x) : answerTest x s =
    { s.mapLink x.id (fun z => { z with echo := ⟨.running, param 14 s * periodOf x⟩ }) with
      tx := s.tx ++ [⟨x.id, .train ⟨s.dev.area, peerArea x, x.offer, true, true⟩⟩] } :=
  congrArg (fun v : State => v.mapLink x.id (fun z => { z with echo := ⟨.running, param 14 s * periodOf x⟩ }))
    (sendTrain_eq hx true true)

theorem startRunning_eq (s : State) (x : Link) : startRunning x s =
    { s.mapLink x.id (fun z => { z with
        test := { z.test with phase := .running, sent := x.test.sent + 1 }, answer := ⟨.stopped, 0⟩
        echo := ⟨.running, param 14 s * periodOf x⟩
        sendTimer := if x.test.sent + 1 < x.test.count then ⟨.running, periodOf x⟩ else ⟨.stopped, 0⟩ }) with
      tx := s.tx ++ [⟨x.id, .loop (BitVec.ofNat 8 x.test.sent) x.test.pattern⟩] } :=
  congrArg (fun v : State => ({ v with
      tx := s.tx ++ [⟨x.id, .loop (BitVec.ofNat 8 x.test.sent) x.test.pattern⟩] } : State))
    (mapLink_mapLink s x.id (f := fun z => { z with
        test := { z.test with phase := .running }, answer := .off, echo := Timer.start (superviseTime x s) })
      (fun z => { z with
        test := { z.test with sent := x.test.sent + 1 }
        sendTimer := if x.test.sent + 1 < x.test.count then Timer.start (periodOf x) else .off }) (fun _ => rfl))

/-- Settles O37, by the role and the phase of the test. -/
theorem trainFramesInTest : Obligations.TrainFramesInTest := by
  unfold Obligations.TrainFramesInTest
  intro l sender receiver offer flags s x hx hc hh ha hb h1 h2 hs heard loopback c y u echo takes
  obtain rfl := link?_id hx
  have hy : u.link? y.id = some y := link?_mapped _ (fun _ => rfl) hx
  have hlb : c.loopback = true ↔ loopback := decide_eq_true_iff
  have hhd : c.heard = true ↔ heard := decide_eq_true_iff
  have hd : x.state ≠ .disabled := by rw [hs]; nofun
  have hys : y.state = .loopback := hs
  have htake {v : State} (hv : takeTrain y c u = v) {e : State → Prop} (he : e v) : takes e :=
    ⟨_, trainFrame_taken sender receiver offer flags hx hc hh hd ha hb h1 h2, hv ▸ he⟩
  cases hr : x.test.role with
  | none =>
    have hyr : y.test.role = .none := hr
    exact htake (by unfold takeTrain; rw [hys, hyr]) rfl
  | slave =>
    have hyr : y.test.role = .slave := hr
    have ht : takeTrain y c u = if c.loopback = true then answerTest y u else enterTraining y .testEnd (some c) u := by
      unfold takeTrain; rw [hys, hyr]
    dsimp -zeta only
    by_cases hlo : loopback
    · rw [if_pos hlo]
      exact htake ((ht.trans (if_pos (hlb.2 hlo))).trans (answerTest_eq hy)) rfl
    · rw [if_neg hlo]
      exact htake (ht.trans (if_neg (mt hlb.1 hlo))) (enterTraining_entersTraining _ _ hy rfl rfl)
  | master =>
    have hyr : y.test.role = .master := hr
    cases hp : x.test.phase with
    | none =>
      have hyp : y.test.phase = .none := hp
      exact htake (by unfold takeTrain; rw [hys, hyr]; dsimp only; rw [hyp]) rfl
    | running =>
      have hyp : y.test.phase = .running := hp
      have ht : takeTrain y c u = if c.loopback = true then u else endTest y .incomplete .testEnd (some c) u := by
        unfold takeTrain; rw [hys, hyr]; dsimp only; rw [hyp]
      dsimp -zeta only
      by_cases hlo : loopback
      · rw [if_pos hlo]
        exact htake (ht.trans (if_pos (hlb.2 hlo))) rfl
      · rw [if_neg hlo]
        exact htake (ht.trans (if_neg (mt hlb.1 hlo))) (endTest_endsTest .incomplete .testEnd (some c) hy rfl rfl)
    | asking =>
      have hyp : y.test.phase = .asking := hp
      have ht : takeTrain y c u = if c.loopback = true then
          (if c.heard = true then startRunning y u else endTest y .refused .testEnd none u)
          else endTest y .refused .testEnd (some c) u := by
        unfold takeTrain; rw [hys, hyr]; dsimp only; rw [hyp]
      have hend (last : Option TrainContent) : EndsTest y ⟨.refused, 0, 0⟩ .testEnd last u
          (endTest y .refused .testEnd last u) := endTest_endsTest .refused .testEnd last hy rfl rfl
      dsimp -zeta only
      by_cases hlo : loopback
      · have ht := ht.trans (if_pos (hlb.2 hlo))
        by_cases hhe : heard
        · rw [if_pos ⟨hlo, hhe⟩]
          exact htake ((ht.trans (if_pos (hhd.2 hhe))).trans (startRunning_eq _ _)) rfl
        · rw [if_neg fun h => hhe h.2, if_pos hlo]
          exact htake (ht.trans (if_neg (mt hhd.1 hhe))) (hend none)
      · rw [if_neg fun h => hlo h.1, if_neg hlo]
        exact htake (ht.trans (if_neg (mt hlb.1 hlo))) (hend (some c))

/-! ## LOOP frames (R132, R133) -/

theorem loopFrame_taken {s : State} {l : Nat} {x : Link} (index : Byte) {pattern : List Byte}
    (hx : s.link? l = some x) (hc : x.conf ≠ none) (hh : x.halted = false) (hd : x.state ≠ .disabled)
    (hp : pattern.length = 16) : exec (.linkLoopFrame l index pattern) s =
      .next (takeLoop x.countValid index pattern (s.mapLink l Link.countValid)) := by
  have hf : loopFrame index pattern = some (.loop index pattern) := if_pos hp
  refine congrArg Host.Outcome.next ((congrArg (fun r => takeRun l (runOf r) s) hf).trans ?_)
  obtain rfl := link?_id hx
  exact takeRun_valid hx (.loop index pattern) hc hh hd nofun

section LoopFrames
variable {y : Link} (hs : y.state = .loopback)
include hs

theorem takeLoop_slave (index : Byte) (pattern : List Byte) (u : State) (hr : y.test.role = .slave) :
    takeLoop y index pattern u = (send y.id (.loop index pattern) u).mapLink y.id
      (fun z => { z with echo := Timer.start (superviseTime y u) }) := by
  unfold takeLoop
  rw [hs]
  dsimp only
  rw [hr]

theorem takeLoop_running (index : Byte) (pattern : List Byte) (u : State) (hr : y.test.role = .master)
    (hp : y.test.phase = .running) : takeLoop y index pattern u = takeEcho y index.toNat pattern u := by
  unfold takeLoop
  rw [hs]
  dsimp only
  rw [hr]
  dsimp only
  rw [hp]

end LoopFrames

theorem takeLoop_other {y : Link} (index : Byte) (pattern : List Byte) (u : State)
    (h1 : ¬ (y.state = .loopback ∧ y.test.role = .slave))
    (h2 : ¬ (y.state = .loopback ∧ y.test.role = .master ∧ y.test.phase = .running)) :
    takeLoop y index pattern u = u := by
  unfold takeLoop
  cases hs : y.state with
  | disabled | down | training | up => rfl
  | loopback =>
    dsimp only
    cases hr : y.test.role with
    | none => rfl
    | slave => exact absurd ⟨hs, hr⟩ h1
    | master =>
      dsimp only
      cases hp : y.test.phase with
      | asking | none => rfl
      | running => exact absurd ⟨hs, hr, hp⟩ h2

/-- Settles O39, by the role and the phase of the test. -/
theorem loopFramesByRole : Obligations.LoopFramesByRole := by
  unfold Obligations.LoopFramesByRole
  intro l index pattern s x hx hc hh hd hlen y u echo takes
  obtain rfl := link?_id hx
  have hy : u.link? y.id = some y := link?_mapped _ (fun _ => rfl) hx
  have htake {v : State} (hv : takeLoop y index pattern u = v) {e : State → Prop} (he : e v) : takes e :=
    ⟨_, loopFrame_taken index hx hc hh hd hlen, hv ▸ he⟩
  by_cases hslave : x.state = .loopback ∧ x.test.role = .slave
  · rw [if_pos hslave]
    exact htake (takeLoop_slave hslave.1 _ _ _ hslave.2) rfl
  · rw [if_neg hslave]
    by_cases hmaster : x.state = .loopback ∧ x.test.role = .master ∧ x.test.phase = .running
    · rw [if_pos hmaster]
      have ht : takeLoop y index pattern u = takeEcho y index.toNat pattern u :=
        takeLoop_running hmaster.1 _ _ _ hmaster.2.1 hmaster.2.2
      by_cases hnew : index.toNat < x.test.sent ∧ index.toNat ∉ x.test.echoed
      · rw [if_pos hnew]
        intro hit test v
        have htest : { y.test with
            echoes := y.test.echoes + 1
            matched := if pattern = y.test.pattern then y.test.matched + 1 else y.test.matched
            echoed := y.test.echoed ++ [index.toNat] } = test := by
          unfold test hit
          by_cases hp : pattern = x.test.pattern
          · rw [if_pos hp, if_pos hp]
          · rw [if_neg hp, if_neg hp]
            rfl
        have hecho : takeEcho y index.toNat pattern u =
            if test.echoes = test.count then endTest { y with test := test, echo := echo } .complete .testEnd none v else v := by
          refine (if_pos ⟨hnew.1, by simpa using hnew.2⟩).trans ?_
          rw [htest]
          rfl
        by_cases hall : x.test.echoes + 1 = x.test.count
        · rw [if_pos hall]
          refine htake (ht.trans (hecho.trans (if_pos hall))) ?_
          exact endTest_endsTest (x := { y with test := test, echo := echo }) .complete .testEnd none
            (link?_mapped (fun z => { z with test := test, echo := echo }) (fun _ => rfl) hy) rfl rfl
        · rw [if_neg hall]
          exact htake (ht.trans (hecho.trans (if_neg hall))) rfl
      · rw [if_neg hnew]
        refine htake (ht.trans (if_neg fun h => hnew ⟨h.1, ?_⟩)) rfl
        have := h.2
        simpa using this
    · rw [if_neg hmaster]
      exact htake (takeLoop_other _ _ _ hslave hmaster) rfl

/-! ## Runs that carry nothing (R121, R123, R129) -/

theorem Link.forgetTrain_eq (z : Link) : z.forgetTrain =
    { z with trainCount := if z.state = .down ∨ z.state = .training then 0 else z.trainCount
             lastTrain := if z.state = .training then none else z.lastTrain } := by
  rcases z with ⟨_, _, st, _⟩
  cases st <;> rfl

/-- The fourth bad frame in a row (R129, R133). -/
theorem badFrame_eq (x : Link) (s : State) : badFrame x s = if 3 ≤ x.badRun then
      (match x.state with
        | .up => enterDown x.countBad .errors (s.mapLink x.id Link.countBad)
        | .loopback => if x.test.role = .master then endTest x.countBad .incomplete .errors none (s.mapLink x.id Link.countBad)
            else enterTraining x.countBad .errors none (s.mapLink x.id Link.countBad)
        | .disabled | .down | .training => s.mapLink x.id Link.countBad)
    else s.mapLink x.id Link.countBad := by
  have hkeep : x.countBad.badRun = min 4 (x.badRun + 1) ∧ x.countBad.state = x.state ∧ x.countBad.test = x.test := by
    unfold Link.countBad
    rw [Link.forgetTrain_eq]
    exact ⟨rfl, rfl, rfl⟩
  unfold badFrame
  dsimp only
  rw [hkeep.1, hkeep.2.1, hkeep.2.2]
  by_cases h : 3 ≤ x.badRun
  · refine (if_neg (by omega)).trans (Eq.trans ?_ (if_pos h).symm)
    cases x.state <;> rfl
  · exact (if_pos (by omega)).trans (if_neg h).symm

/-- Settles O40, by the class of the run. -/
theorem runsThatCarryNothing : Obligations.RunsThatCarryNothing := by
  unfold Obligations.RunsThatCarryNothing
  intro l run s x hx forget commands
  obtain rfl := link?_id hx
  have hforget (z : Link) : z.forgetTrain = forget z := z.forgetTrain_eq
  have htake {v : State} (hv : takeRun x.id (classifyRun run) s = v) {e : State → Prop} (he : e v) : commands e := by
    rintro c (rfl | rfl | rfl) <;> exact ⟨_, congrArg Host.Outcome.next hv, he⟩
  by_cases hdeaf : x.conf = none ∨ x.state = .disabled ∨ x.halted = true
  · rw [if_pos hdeaf]
    exact htake (takeRun_deaf hx _ hdeaf) rfl
  · rw [if_neg hdeaf]
    have hrun {c : RunClass} (hc : classifyRun run = c) := (congrArg (takeRun x.id · s) hc).trans (takeRun_listens hx c hdeaf)
    refine ⟨fun hc => ?_, fun hc => htake (hrun hc) rfl, fun f a b hc hareas hno => ?_⟩
    · intro bad u
      have hbad : Link.countBad = bad := funext fun z => hforget _
      have hb : u.link? (bad x).id = some (bad x) := link?_mapped _ (fun _ => rfl) hx
      have hrun := (hrun hc).trans (badFrame_eq x s)
      rw [hbad] at hrun
      by_cases h3 : 3 ≤ x.badRun
      · have hrun := hrun.trans (if_pos h3)
        have hstay (hup : x.state ≠ .up) (hlo : x.state ≠ .loopback) : takeRun x.id (classifyRun run) s = u := by
          cases hs : x.state with
          | up => exact absurd hs hup
          | loopback => exact absurd hs hlo
          | disabled | down | training => rw [hs] at hrun; exact hrun
        by_cases hup : x.state = .up
        · rw [if_pos ⟨h3, hup⟩]
          rw [hup] at hrun
          exact htake hrun (enterDown_entersDown _ hb)
        · rw [if_neg fun h => hup h.2]
          by_cases hlo : x.state = .loopback
          · rw [hlo] at hrun
            by_cases hm : x.test.role = .master
            · rw [if_pos ⟨h3, hlo, hm⟩]
              exact htake (hrun.trans (if_pos hm)) (endTest_endsTest .incomplete .errors none hb rfl rfl)
            · rw [if_neg fun h => hm h.2.2, if_pos ⟨h3, hlo⟩]
              exact htake (hrun.trans (if_neg hm)) (enterTraining_entersTraining _ _ hb rfl rfl)
          · rw [if_neg fun h => hlo h.2.1, if_neg fun h => hlo h.2]
            exact htake (hstay hup hlo) rfl
      · rw [if_neg fun h => h3 h.1, if_neg fun h => h3 h.1, if_neg fun h => h3 h.1]
        exact htake (hrun.trans (if_neg h3)) rfl
    · intro u
      have hu : s.mapLink x.id (fun y => { { y with badRun := 0 }.forgetTrain with mismatch := true }) = u :=
        congrArg (s.mapLink x.id) (funext fun z => congrArg (fun w : Link => { w with mismatch := true }) (hforget _))
      have hk : knownFrame x f s = mismatchedFrame x a b s := by
        unfold knownFrame
        rw [hareas]
        exact if_neg hno
      refine htake ((hrun hc).trans (hk.trans ?_)) rfl
      unfold mismatchedFrame
      rw [hu]

end Sys2Proof.Machine

/-!
PROOFS. Deliveries: the cyclic frames of a link and the parts that its slots take of them. O38, O41.
-/

namespace Sys2Proof.Machine

/-! ## The Handover Unit in a delivery, as the units' reaction -/

section Delivery
variable {P : State → Prop} (h : UnitClosed P)
include h

theorem UnitClosed.permitFault {s : State} (x : Slot) (c : PermitCause) {f : Slot → Slot} (hf : SlotKeeps f) (hs : P s) :
    P (permitFault x c f s) := by
  have ht : P (Machine.setPermit x.ref .fault c f s) := h.setPermit hf hs
  unfold Machine.permitFault
  dsimp only
  split
  · exact h.endOutbound _ ht
  · exact ht

theorem UnitClosed.permitHere {s : State} (x : Slot) (c : PermitCause) {f : Slot → Slot} (hf : SlotKeeps f) (hs : P s) :
    P (permitHere x c f s) := h.tryOffer _ (h.setPermit hf hs)

theorem UnitClosed.bothHeldFault {s : State} (x : Slot) {f : Slot → Slot} (hf : SlotKeeps f) (hs : P s) :
    P (bothHeldFault x f s) := h.permitFault x _ hf (h.emit _ _ hs)

theorem UnitClosed.reconcile {s : State} (x : Slot) (p : PubPermit) (hs : P s) : P (reconcile x p s) := by
  have hset : SlotKeeps Slot.settled := fun _ => rfl
  have hmap : P (s.mapSlot x.ref Slot.settled) := h.mapSlot hset hs
  unfold Machine.reconcile
  cases reconcileWith x p with
  | stands => dsimp only; split <;> [exact h.tryOffer _ hmap; exact hmap]
  | waits => dsimp only; split <;> [exact hs; exact h.mapSlot (fun _ => rfl) hs]
  | becomes q =>
    cases q with
    | heldHere => exact h.permitHere _ _ hset hs
    | heldThere | taking | giving | fault | unknown => exact h.setPermit hset hs
  | bothHeld => exact h.bothHeldFault _ hset hs
  | noHolder => exact h.permitFault _ _ hset hs

theorem UnitClosed.permitStep {s : State} (x : Slot) (prev : Option PubPermit) (p : PubPermit) (hs : P s) :
    P (permitStep x prev p s) := by
  have hset {q : Permit} {c : PermitCause} {f : Slot → Slot} (hf : SlotKeeps f) : P (Machine.setPermit x.ref q c f s) :=
    h.setPermit hf hs
  unfold Machine.permitStep
  cases x.permit with
  | heldHere =>
    cases p with
    | hold => exact h.bothHeldFault _ (fun _ => rfl) hs
    | request =>
      dsimp only
      repeat' split
      · exact hs
      · exact hset fun _ => rfl
      · exact hset fun _ => rfl
    | notHold | release | refuse | yielded | fault => exact hs
  | heldThere => dsimp only; split <;> [exact h.permitFault _ _ (fun _ => rfl) hs; exact hs]
  | taking =>
    cases p with
    | release => exact h.permitHere _ _ (fun _ => rfl) hs
    | refuse => exact hset fun _ => rfl
    | hold | notHold | request | yielded | fault => exact hs
  | giving =>
    cases p with
    | hold => exact hset fun _ => rfl
    | notHold => exact h.permitHere _ _ (fun _ => rfl) hs
    | request => exact hs
    | release | refuse | yielded | fault => exact h.permitFault _ _ (fun _ => rfl) hs
  | fault | unknown => exact hs

theorem UnitClosed.outboundStep {s : State} (x : Slot) (prev : Option PubIn) (i : PubIn) (hs : P s) :
    P (outboundStep x prev i s) := by
  have hset {o : Outbound} {c : SlotCause} {f : Slot → Slot} (hf : SlotKeeps f) : P (Machine.setOutbound x.ref o c f s) :=
    h.setOutbound hf hs
  unfold Machine.outboundStep
  cases x.outb with
  | offered =>
    cases i with
    | accept => exact hset fun _ => rfl
    | decline =>
      have ht : P (s.mapSlot x.ref (fun y => { y with accept := .off })) := h.mapSlot (fun _ => rfl) hs
      dsimp only
      split <;> [exact ht; exact h.emit _ _ ht]
    | none | received => exact hs
  | accepted =>
    cases i with
    | accept | received => exact hs
    | none | decline => exact hset fun _ => rfl
  | transit => dsimp only; split <;> [exact h.reportReceived _ hs; exact hs]
  | withdrawing => dsimp only; split <;> [exact h.tryOffer _ (hset fun _ => rfl); exact hs]
  | none => exact hs

theorem UnitClosed.acceptedStep {s : State} (x : Slot) (o : PubOut) (iso : Bool) (hs : P s) :
    P (acceptedStep x o iso s) := by
  have hmap {f : Slot → Slot} (hf : SlotKeeps f) : P (s.mapSlot x.ref f) := h.mapSlot hf hs
  have hgone : P (if x.transitSeen = false then Machine.endInbound x.ref x.bsec .withdrawn s
      else if x.transitEnded = true then
        (if iso then Machine.emit (.slotIn x.ref .accepted .none) (s.mapSlot x.ref (fun y => { y with inb := .accepted })) else s)
      else Machine.emit (.slotIn x.ref .accepted .transitEnded)
        (s.mapSlot x.ref (fun y => { y with inb := .accepted, transitEnded := true }))) := by
    repeat' split
    · exact h.endInbound _ _ _ hs
    · exact h.emit _ _ (hmap fun _ => rfl)
    · exact hs
    · exact h.emit _ _ (hmap fun _ => rfl)
  unfold Machine.acceptedStep
  cases o with
  | offer => dsimp only; split <;> [exact h.emit _ _ (hmap fun _ => rfl); exact hs]
  | transit => dsimp only; split <;> [exact h.emit _ _ (hmap fun _ => rfl); exact hmap fun _ => rfl]
  | none | withdraw => exact hgone

theorem UnitClosed.inboundStep {s : State} (was : Bool) (x : Slot) (o : PubOut) (hs : P s) :
    P (inboundStep was x o s) := by
  unfold Machine.inboundStep
  cases x.inb with
  | none => exact h.testAcceptance _ hs
  | declining =>
    dsimp only
    split <;> [exact h.emit _ _ (h.mapSlot (fun _ => rfl) hs); exact h.testAcceptance _ hs]
  | accepted => exact h.acceptedStep _ _ _ hs
  | acceptedIsolated => dsimp only; split <;> [exact h.acceptedStep _ _ _ hs; exact hs]
  | receiving => exact hs

/-- One slot's part of a delivery, from the record that holds the peer's fields. -/
theorem UnitClosed.deliverSlot {s : State} {ref : SlotRef} {p : PubFields} (hs : P (s.mapSlot ref (·.received p))) {x : Slot}
    (hx : s.slot? ref = some x) : P (deliverSlot ref p s) := by
  unfold Machine.deliverSlot
  rw [hx]
  dsimp only
  have hu : P (if (x.received p).reconciled then
      Machine.permitStep (x.received p) (x.peer.map (·.permit)) p.permit (s.mapSlot ref (·.received p))
      else Machine.reconcile (x.received p) p.permit (s.mapSlot ref (·.received p))) := by
    split
    · exact h.permitStep _ _ _ hs
    · exact h.reconcile _ _ hs
  have hw (u : State) (hu : P u) : P (match u.slot? ref with
      | some y => if y.reconciled then Machine.outboundStep y (x.peer.map (·.inb)) p.inb u else u
      | none => u) := by
    cases u.slot? ref with
    | none => exact hu
    | some y => dsimp only; split <;> [exact h.outboundStep _ _ _ hu; exact hu]
  split
  · exact h.inboundStep _ _ _ (hw _ hu)
  · exact hw _ hu

end Delivery

/-! ## Deliveries (R128, R136) -/

/-- The slots of a link with the peer's fields for the first positions (R136). -/
def State.peered (v : State) (l : Nat) (ps : List PubFields) : State :=
  { v with slots := v.slots.map (fun y =>
    if y.ref.link = l then (match ps[y.ref.idx]? with
      | some p => { y with peer := some p }
      | none => y) else y) }

theorem mapSlot_none {s : State} {ref : SlotRef} (h : s.slot? ref = none) (f : Slot → Slot) : s.mapSlot ref f = s := by
  refine congrArg (fun l => ({ s with slots := l } : State)) ((List.map_congr_left fun y hy => ?_).trans (List.map_id _))
  have := List.find?_eq_none.1 h y hy
  exact if_neg (by simpa using this)

/-- The fields of one further position. -/
theorem peered_next (l : Nat) (pre : List PubFields) (p : PubFields) (y : Slot) :
    (if y.ref.link = l then (match (pre ++ [p])[y.ref.idx]? with
      | some q => { y with peer := some q }
      | none => y) else y) =
    (fun z : Slot => if z.ref = ⟨l, pre.length⟩ then { z with peer := some p } else z)
      (if y.ref.link = l then (match pre[y.ref.idx]? with
        | some q => { y with peer := some q }
        | none => y) else y) := by
  by_cases hl : y.ref.link = l
  · rw [if_pos hl, if_pos hl]
    rcases Nat.lt_trichotomy y.ref.idx pre.length with hi | hi | hi
    · have hq : (pre ++ [p])[y.ref.idx]? = pre[y.ref.idx]? := List.getElem?_append_left hi
      have hne : y.ref ≠ ⟨l, pre.length⟩ := fun e => by rw [e] at hi; exact lt_irrefl _ hi
      rw [hq, List.getElem?_eq_getElem hi]
      exact (if_neg hne).symm
    · have hq : (pre ++ [p])[y.ref.idx]? = some p := by rw [hi]; exact List.getElem?_concat_length
      have hn : pre[y.ref.idx]? = none := List.getElem?_eq_none hi.ge
      rw [hq, hn]
      exact (if_pos (by rw [← hl, ← hi])).symm
    · have hq : (pre ++ [p])[y.ref.idx]? = none := List.getElem?_eq_none (by simpa using hi)
      have hn : pre[y.ref.idx]? = none := List.getElem?_eq_none hi.le
      have hne : y.ref ≠ ⟨l, pre.length⟩ := fun e => by rw [e] at hi; exact lt_irrefl _ hi
      rw [hq, hn]
      exact (if_neg hne).symm
  · rw [if_neg hl, if_neg hl]
    exact (if_neg fun e : y.ref = ⟨l, pre.length⟩ => hl (by rw [e])).symm

theorem peered_append (v : State) (l : Nat) (pre : List PubFields) (p : PubFields) : v.peered l (pre ++ [p]) =
    (v.peered l pre).mapSlot ⟨l, pre.length⟩ (fun y => { y with peer := some p }) := by
  refine congrArg (fun ys => ({ v with slots := ys } : State)) ?_
  rw [State.peered, List.map_map]
  exact List.map_congr_left fun y _ => peered_next l pre p y

theorem reacts_received {v t : State} {l : Nat} {pre : List PubFields} (h : Reacts (v.peered l pre) t) (p : PubFields) :
    Reacts (v.peered l (pre ++ [p])) (t.mapSlot ⟨l, pre.length⟩ (·.received p)) := by
  rw [peered_append]
  refine ⟨h.base, h.sections, h.points, h.signals, h.routes, ?_, fun ch => by cases ch <;> [exact h.events .A; exact h.events .B]⟩
  let k (z : Slot) : Slot := if z.ref = ⟨l, pre.length⟩ then { z with peer := some p } else z
  have hk (g : Slot → Slot) (hg : ∀ z, (g z).core = { z with peer := some p }.core) (ys : List Slot) :
      (ys.map (fun z => if z.ref = ⟨l, pre.length⟩ then g z else z)).map Slot.core = (ys.map Slot.core).map k := by
    rw [List.map_map, List.map_map]
    refine List.map_congr_left fun z _ => ?_
    by_cases hz : z.ref = ⟨l, pre.length⟩
    · exact (congrArg Slot.core (if_pos hz)).trans ((hg z).trans (if_pos (c := z.core.ref = ⟨l, pre.length⟩) hz).symm)
    · exact (congrArg Slot.core (if_neg hz)).trans (if_neg (c := z.core.ref = ⟨l, pre.length⟩) hz).symm
  exact (hk (·.received p) (fun _ => rfl) t.slots).trans ((congrArg (List.map k) h.slots).trans (hk _ (fun _ => rfl) _).symm)

theorem reacts_delivered {v : State} {l : Nat} (qs : List PubFields) {pre : List PubFields} {t : State}
    (h : Reacts (v.peered l pre) t) : Reacts (v.peered l (pre ++ qs))
      ((qs.zipIdx pre.length).foldl (fun t q => deliverSlot ⟨l, q.2⟩ q.1 t) t) := by
  induction qs generalizing pre t with
  | nil => rwa [List.append_nil]
  | cons p qs ih =>
    have hp : Reacts (v.peered l (pre ++ [p])) (deliverSlot ⟨l, pre.length⟩ p t) := by
      have hr := reacts_received h p
      cases hx : t.slot? ⟨l, pre.length⟩ with
      | none =>
        have he : deliverSlot ⟨l, pre.length⟩ p t = t := by unfold deliverSlot; rw [hx]
        rwa [he, ← mapSlot_none hx (·.received p)]
      | some x => exact (reacts_closed _).deliverSlot hr hx
    have := ih hp
    rwa [List.append_assoc, List.length_append] at this

theorem stored_delivered {v : State} {l : Nat} (qs : List PubFields) (pre : List PubFields) :
    (qs.zipIdx pre.length).foldl (fun t q => storeSlot ⟨l, q.2⟩ q.1 t) (v.peered l pre) = v.peered l (pre ++ qs) := by
  induction qs generalizing pre with
  | nil => rw [List.append_nil]; rfl
  | cons p qs ih =>
    have := ih (pre ++ [p])
    rw [List.append_assoc, List.length_append, peered_append] at this
    exact this

theorem peered_nil (v : State) (l : Nat) : v.peered l [] = v := by
  refine congrArg (fun ys => ({ v with slots := ys } : State)) ((List.map_congr_left fun y _ => ?_).trans (List.map_id _))
  split <;> rfl

theorem acceptCyclic_accepts (x : Link) (counter : Byte) (ps : List PubFields) (u : State) :
    AcceptsCyclic x counter ps u (acceptCyclic x counter ps u) := by
  unfold AcceptsCyclic
  intro v stored
  have hstored : stored = v.peered x.id ps := rfl
  have hd : acceptCyclic x counter ps u = deliver x.id ps v := rfl
  have hv : v.dev.state = u.dev.state := rfl
  rw [hd]
  unfold deliver
  rw [hv]
  cases u.dev.state with
  | inService =>
    dsimp only
    rw [inOrder_map_foldl, hstored]
    have h0 : Reacts (v.peered x.id []) v := by rw [peered_nil]; exact .refl v
    exact ⟨reacts_delivered ps h0, rfl⟩
  | awaiting =>
    dsimp only
    rw [inOrder_map_foldl, hstored]
    have := stored_delivered (v := v) (l := x.id) ps []
    rwa [peered_nil] at this
  | loading | safeHalt => rfl

/-- A CYCLIC with the right areas is taken by the state of the link (R123). -/
theorem cyclicFrame_taken {s : State} {l : Nat} {x : Link} {sender receiver : Half} {counter : Byte} {fields : List Byte}
    {ps : List PubFields} (hx : s.link? l = some x) (hc : x.conf ≠ none) (hh : x.halted = false) (hd : x.state ≠ .disabled)
    (ha : sender.toNat = peerArea x) (hb : receiver.toNat = s.dev.area) (hlen : fields.length = 24)
    (hp : parseFields fields = some ps) : exec (.linkCyclicFrame l sender receiver counter fields) s =
      .next (takeCyclic x.countValid counter ps (s.mapLink l Link.countValid)) := by
  have hf : cyclicFrame sender.toNat receiver.toNat counter fields = some (.cyclic sender.toNat receiver.toNat counter ps) := by
    unfold cyclicFrame
    rw [if_pos hlen, hp]
  refine congrArg Host.Outcome.next ((congrArg (fun r => takeRun l (runOf r) s) hf).trans ?_)
  obtain rfl := link?_id hx
  exact takeRun_valid hx (.cyclic sender.toNat receiver.toNat counter ps) hc hh hd fun a b he => by
    cases he
    exact ⟨ha, hb⟩

theorem withLinkUp_link {u : State} {x : Link} (hx : u.link? x.id = some x) (p : Nat) :
    ∃ y, (u.withLinkUp x p).link? x.id = some y ∧ y.id = x.id ∧ y.period = some p :=
  ⟨_, link?_mapped (fun y => { y with
    state := .up, cause := .trained, period := some p, sendCounter := 1, lastCounter := none, training := .off
    sendTimer := ⟨.running, p⟩, supervision := ⟨.running, param 14 u * p⟩ }) (fun _ => rfl) hx, rfl, rfl⟩

/-- A CYCLIC that completes a training is then accepted (R125). -/
theorem cyclicInTraining_completes {u : State} {x : Link} (hx : u.link? x.id = some x) (counter : Byte) (ps : List PubFields)
    {c : TrainContent} (hl : x.lastTrain = some c) (hc : c.heard = true) (hs : x.sentHeard = true) :
    AcceptsCyclic { x with state := .up, period := some (max x.offer c.offer) } counter ps
      (u.withLinkUp x (max x.offer c.offer)) (cyclicInTraining x counter ps u) := by
  have had : adopted x = max x.offer c.offer := by unfold adopted; rw [hl]
  obtain ⟨y, hy, hid, hper⟩ := withLinkUp_link hx (max x.offer c.offer)
  have he : cyclicInTraining x counter ps u = acceptCyclic y counter ps (u.withLinkUp x (max x.offer c.offer)) := by
    unfold cyclicInTraining
    rw [hl]
    dsimp only
    rw [if_pos (by rw [hc, hs]; rfl), enterUp_eq hx, had, hy]
  have hsame : acceptCyclic y counter ps (u.withLinkUp x (max x.offer c.offer)) =
      acceptCyclic { x with state := .up, period := some (max x.offer c.offer) } counter ps
        (u.withLinkUp x (max x.offer c.offer)) := by
    unfold acceptCyclic superviseTime periodOf
    rw [hid, hper]
  rw [he, hsame]
  exact acceptCyclic_accepts _ _ _ _

theorem cyclicInTraining_waits {u : State} {x : Link} (counter : Byte) (ps : List PubFields)
    (h : ¬ ∃ c, x.lastTrain = some c ∧ c.heard = true ∧ x.sentHeard = true) : cyclicInTraining x counter ps u = u := by
  unfold cyclicInTraining
  refine if_neg fun hn => h ?_
  cases hl : x.lastTrain with
  | none => rw [hl] at hn; cases hn
  | some c =>
    rw [hl] at hn
    obtain ⟨hc, hs⟩ := Bool.and_eq_true_iff.1 hn
    exact ⟨c, rfl, hc, hs⟩

/-- Settles O38, by the state of the link. -/
theorem cyclicFramesByState : Obligations.CyclicFramesByState := by
  unfold Obligations.CyclicFramesByState
  intro l sender receiver counter fields ps s x hx hc hh ha hb hlen hp y u takes
  obtain rfl := link?_id hx
  have hy : u.link? y.id = some y := link?_mapped _ (fun _ => rfl) hx
  have hys : y.state = x.state := rfl
  have htake (hd : x.state ≠ .disabled) {v : State} (hv : takeCyclic y counter ps u = v) {e : State → Prop} (he : e v) :
      takes e := ⟨_, cyclicFrame_taken hx hc hh hd ha hb hlen hp, hv ▸ he⟩
  cases hs : x.state with
  | disabled => exact ⟨s, congrArg Host.Outcome.next (takeRun_deaf hx _ (.inr (.inl hs))), rfl⟩
  | down => exact htake (by rw [hs]; nofun) (by unfold takeCyclic; rw [hys, hs]) rfl
  | loopback => exact htake (by rw [hs]; nofun) (by unfold takeCyclic; rw [hys, hs]) rfl
  | up =>
    have ht : takeCyclic y counter ps u = if x.lastCounter = some counter then u else acceptCyclic y counter ps u := by
      unfold takeCyclic; rw [hys, hs]
    dsimp -zeta only
    by_cases hn : x.lastCounter = some counter
    · rw [if_pos hn]
      exact htake (by rw [hs]; nofun) (ht.trans (if_pos hn)) rfl
    · rw [if_neg hn]
      exact htake (by rw [hs]; nofun) (ht.trans (if_neg hn)) (acceptCyclic_accepts _ _ _ _)
  | training =>
    have ht : takeCyclic y counter ps u = cyclicInTraining y counter ps u := by unfold takeCyclic; rw [hys, hs]
    have hwait (h : ¬ ∃ c, y.lastTrain = some c ∧ c.heard = true ∧ y.sentHeard = true) : takes (fun t => t = u) :=
      htake (by rw [hs]; nofun) (ht.trans (cyclicInTraining_waits counter ps h)) rfl
    cases hl : x.lastTrain with
    | none =>
      refine hwait fun ⟨c, hc, _⟩ => ?_
      cases hl.symm.trans hc
    | some c =>
      dsimp -zeta only
      by_cases hup : c.heard = true ∧ x.sentHeard = true
      · rw [if_pos hup]
        exact htake (by rw [hs]; nofun) ht (cyclicInTraining_completes hy counter ps hl hup.1 hup.2)
      · rw [if_neg hup]
        refine hwait fun ⟨c', hc, hr⟩ => hup ?_
        cases hl.symm.trans hc
        exact hr

/-! ## LINK TEST (R131) -/

theorem Slot.idle_iff {z : Slot} :
    z.idle = true ↔ (z.permit = .heldHere ∨ z.permit = .heldThere) ∧ z.outb = .none ∧ z.inb = .none := by
  unfold Slot.idle
  simp [and_assoc]

/-- A configured slot position that is not idle. -/
def Busy (s : State) (l i : Nat) : Prop :=
  ∃ z, s.slot? ⟨l, i⟩ = some z ∧ ¬ ((z.permit = .heldHere ∨ z.permit = .heldThere) ∧ z.outb = .none ∧ z.inb = .none)

/-- The test of LINK TEST for one slot position (R131). -/
def busyAt (s : State) (l i : Nat) : Bool :=
  match s.slot? ⟨l, i⟩ with
  | some x => !x.idle
  | none => false

theorem busyAt_iff {s : State} {l i : Nat} : busyAt s l i = true ↔ Busy s l i := by
  unfold busyAt Busy
  cases s.slot? ⟨l, i⟩ with
  | none => simp
  | some z => simp [← Slot.idle_iff]

theorem busySlot_eq (s : State) (l : Nat) : busySlot s l = ((List.range 8).find? (busyAt s l)).map (fun i => ⟨l, i⟩) := by
  unfold busySlot slotRefs
  rw [List.find?_map]
  rfl

theorem busySlot_first {s : State} {l i : Nat} (hi : i < 8) (hb : Busy s l i) (hfirst : ∀ j, j < i → ¬ Busy s l j) :
    busySlot s l = some ⟨l, i⟩ := by
  have hfind : (List.range 8).find? (busyAt s l) = some i :=
    List.find?_range_eq_some.2 ⟨busyAt_iff.2 hb, List.mem_range.2 hi, fun j hj => by
      rw [Bool.not_eq_true', Bool.eq_false_iff]
      exact mt busyAt_iff.1 (hfirst j hj)⟩
  rw [busySlot_eq, hfind]
  rfl

theorem busySlot_none {s : State} {l : Nat} (h : ∀ i, i < 8 → ¬ Busy s l i) : busySlot s l = none := by
  rw [busySlot_eq, List.find?_eq_none.2 fun i hi => mt busyAt_iff.1 (h i (List.mem_range.1 hi))]
  rfl

theorem startTest_eq {u : State} {x : Link} (hx : u.link? x.id = some x) (pattern : List Byte) (count : Nat) :
    startTest x.id pattern count u =
      { emit (.linkState x.id .loopback .test) (u.mapLink x.id (fun z => { z with
          state := .loopback, cause := .test, supervision := ⟨.stopped, 0⟩, sendTimer := ⟨.running, periodOf x⟩
          answer := ⟨.running, param 14 u * periodOf x⟩
          test := { TestRec.idle with role := .master, phase := .asking, pattern := pattern, count := count } })) with
        tx := u.tx ++ [⟨x.id, .train ⟨u.dev.area, peerArea x, x.offer, false, true⟩⟩] } := by
  unfold startTest
  rw [hx]
  exact sendTrain_eq (s := emit (.linkState x.id .loopback .test) (u.mapLink x.id _))
    (link?_mapped (fun z => { z with
      state := .loopback, cause := .test, supervision := ⟨.stopped, 0⟩, sendTimer := ⟨.running, periodOf x⟩
      answer := ⟨.running, param 14 u * periodOf x⟩
      test := { TestRec.idle with role := .master, phase := .asking, pattern := pattern, count := count } })
      (fun _ => rfl) hx) false true

/-- Settles O41, line by line. -/
theorem linkTestTable : Obligations.LinkTestTable := by
  unfold Obligations.LinkTestTable
  intro ch tag l pattern count s x hlen c f hf hx
  have hid := link?_id hx
  have hargs : (pattern ++ [count]).take 16 = pattern ∧ byteAt (pattern ++ [count]) 16 = count.toNat := by
    constructor
    · rw [← hlen, List.take_left]
    · unfold byteAt
      rw [List.getElem?_append_right hlen.le, hlen]
      rfl
  have hdec : decide f.ch f.kind f.body (s.paired f) = if x.conf.isNone then .plain .notConfigured l.toNat
      else if count.toNat = 0 then .plain .badValue 0
      else if x.state ≠ .up then .plain .wrongState l.toNat
      else match busySlot (s.paired f) l.toNat with
        | some ref => .plain .wrongState (slotDetail ref)
        | none => { out := .done, detail := 0, act := startTest l.toNat pattern count.toNat } := by
    have hd : decide f.ch f.kind f.body (s.paired f) =
        decideLinkTest l.toNat ((pattern ++ [count]).take 16) (byteAt (pattern ++ [count]) 16) (s.paired f) := rfl
    rw [hd, hargs.1, hargs.2]
    unfold decideLinkTest
    rw [State.paired_link?, hx] <;> rfl
  have hbusy (i : Nat) : Busy (s.paired f) l.toNat i ↔ Busy s l.toNat i := by
    unfold Busy
    rw [State.paired_slot?]
  by_cases hc : x.conf = none
  · rw [if_pos hc]
    exact refuses_of rfl hf (hdec.trans (if_pos (by rw [hc]; rfl)))
  · rw [if_neg hc]
    have hdec := hdec.trans (if_neg (by simpa using hc))
    refine refuses_line rfl hf hdec fun _ hdec => ?_
    refine refuses_line rfl hf hdec fun _ hdec => ?_
    intro busy
    refine ⟨fun i hi hb hfirst => ?_, fun hnone => ?_⟩
    · have hfind := busySlot_first hi ((hbusy i).2 hb) fun j hj => mt (hbusy j).1 (hfirst j hj)
      rw [hfind] at hdec
      exact refuses_of rfl hf hdec
    · have hfind := busySlot_none fun i hi => mt (hbusy i).1 (hnone i hi)
      rw [hfind] at hdec
      refine concurs_of rfl hf hdec ?_
      intro time v
      have hu : (emit (.requestDone f.tag f.kind .done 0) (s.paired f)).link? x.id = some x := by
        rw [hid]
        exact (State.paired_link? s f l.toNat).trans hx
      have hst := startTest_eq hu pattern count.toNat
      have hpar : param 14 (emit (.requestDone f.tag f.kind .done 0) (s.paired f)) = param 14 s := State.paired_param s f 14
      have hdev : (emit (.requestDone f.tag f.kind .done 0) (s.paired f)).dev = s.dev := State.paired_dev s f
      rw [hid, hpar, hdev] at hst
      exact hst

end Sys2Proof.Machine

/-!
PROOFS. The Handover Unit's requests and slot timers, and what its tests leave of a slot's record. O42, O43, O44, O45.
-/

namespace Sys2Proof.Machine

/-! ## What the units' tests leave of a slot -/

/-- The Permission Unit writes signals, routes and events alone. -/
theorem permOn_keep {α : Type} (p : State → α) (he : ∀ e s, p (emit e s) = p s) (hg : ∀ s g, p { s with signals := g } = p s)
    (hr : ∀ s r, p { s with routes := r } = p s) (c : Concern) (s : State) : p (permOn c s) = p s := by
  have hwith (a : ActiveRoute) (x : PermCause) (t : State) : p (withdraw a x t) = p t :=
    (he _ _).trans ((hr _ _).trans ((he _ _).trans (hg _ _)))
  have hgrant (a : ActiveRoute) (t : State) : p (grant a t) = p t :=
    (he _ _).trans ((hr _ _).trans ((he _ _).trans (hg _ _)))
  have hroute (a : ActiveRoute) (t : State) : p (permRoute c a.id t) = p t := by
    unfold permRoute
    cases t.route? a.id with
    | none => rfl
    | some b =>
      dsimp only
      split
      · rfl
      · split
        · cases withdrawCause c t b with
          | none => rfl
          | some cause => exact hwith _ _ _
        · split
          · exact hgrant _ _
          · rfl
  unfold permOn withdrawAll
  split
  · exact inOrder_keep p (fun f hf t => by obtain ⟨a, -, rfl⟩ := List.mem_map.1 hf; exact hwith a _ t) s
  · exact inOrder_keep p (fun f hf t => by obtain ⟨a, -, rfl⟩ := List.mem_map.1 hf; exact hroute a t) s

theorem permOn_slots (c : Concern) (s : State) : (permOn c s).slots = s.slots :=
  permOn_keep State.slots (fun _ _ => rfl) (fun _ _ => rfl) (fun _ _ => rfl) c s

theorem permOn_slot? (c : Concern) (s : State) (ref : SlotRef) : (permOn c s).slot? ref = s.slot? ref :=
  congrArg (List.find? _) (permOn_slots c s)

theorem retest_other {s : State} {ref ref' : SlotRef} (h : ref' ≠ ref) : (retest ref' s).slot? ref = s.slot? ref := by
  have hmap (t : State) (f : Slot → Slot) (hf : ∀ y, (f y).ref = y.ref) : (t.mapSlot ref' f).slot? ref = t.slot? ref :=
    find?_map_other Slot.ref ref' ref h f hf t.slots
  have htest : (testAcceptance ref' s).slot? ref = s.slot? ref := by
    unfold testAcceptance
    cases s.slot? ref' with
    | none => rfl
    | some x =>
      dsimp only
      split
      · cases acceptFail s x with
        | none => exact hmap (s.mapSection _ _) _ fun _ => rfl
        | some k =>
          dsimp only
          split
          · rfl
          · exact hmap s _ fun _ => rfl
      · rfl
  unfold retest
  cases s.slot? ref' with
  | none => rfl
  | some x =>
    dsimp only
    split
    · exact htest
    · rfl

section SlotTests
variable {s : State} {ref : SlotRef} {x : Slot} (hx : s.slot? ref = some x)
include hx

theorem setOutbound_slot (o : Outbound) (c : SlotCause) {f : Slot → Slot} (hf : ∀ y, (f y).ref = y.ref) :
    (setOutbound ref o c f s).slot? ref = some { f x with outb := o } :=
  (permOn_slot? _ _ _).trans (slot?_mapped (fun y => { f y with outb := o }) hf hx)

/-- An offer that may begin changes the outbound state and its timer alone (R143). -/
theorem tryOffer_slot : ∃ o t, (tryOffer ref s).slot? ref = some { x with outb := o, accept := t } := by
  unfold tryOffer
  rw [hx]
  dsimp only
  split
  · exact ⟨_, _, setOutbound_slot hx _ _ fun _ => rfl⟩
  · exact ⟨x.outb, x.accept, hx⟩

theorem testAcceptance_slot :
    ∃ i a b, (testAcceptance ref s).slot? ref = some { x with inb := i, transitSeen := a, transitEnded := b } := by
  unfold testAcceptance
  rw [hx]
  dsimp only
  have hkeep : ∃ i a b, s.slot? ref = some { x with inb := i, transitSeen := a, transitEnded := b } := ⟨_, _, _, hx⟩
  split
  · cases acceptFail s x with
    | none =>
      exact ⟨_, _, _, slot?_mapped (s := s.mapSection _ _)
        (fun y => { y with inb := .accepted, transitSeen := peerTransit x, transitEnded := false }) (fun _ => rfl) hx⟩
    | some k =>
      dsimp only
      split
      · exact hkeep
      · exact ⟨_, _, _, slot?_mapped (fun y => { y with inb := .declining }) (fun _ => rfl) hx⟩
  · exact hkeep

theorem retest_slot :
    ∃ i a b, (retest ref s).slot? ref = some { x with inb := i, transitSeen := a, transitEnded := b } := by
  unfold retest
  rw [hx]
  dsimp only
  split
  · exact testAcceptance_slot hx
  · exact ⟨_, _, _, hx⟩

theorem endOutbound_slot :
    ∃ o t u r, (endOutbound ref s).slot? ref = some { x with outb := o, accept := t, transit := u, receivedReported := r } := by
  unfold endOutbound
  rw [hx]
  dsimp only
  cases x.outb with
  | offered | accepted => exact ⟨_, _, _, _, setOutbound_slot hx .withdrawing .none (f := fun y =>
      { y with accept := .off }) fun _ => rfl⟩
  | transit => exact ⟨_, _, _, _, setOutbound_slot hx .none .permitFault (f := fun y =>
      { y with transit := .off, receivedReported := false }) fun _ => rfl⟩
  | none | withdrawing => exact ⟨x.outb, x.accept, x.transit, x.receivedReported, hx⟩

/-- A test of the slots over a section leaves a slot that is not in DECLINING as it is (R146). -/
theorem retestOver_slot (b : Nat) (hi : x.inb ≠ .declining) : (retestOver b s).slot? ref = some x := by
  unfold retestOver
  refine inOrder_ind (P := fun t => t.slot? ref = some x) (forall_map (g := fun y : Slot => retest y.ref) fun y t ht => ?_) hx
  by_cases h : y.ref = ref
  · have he : retest ref t = t := by
      unfold retest
      rw [ht]
      exact if_neg fun hd => hi hd.1
    rw [h, he]
    exact ht
  · exact (retest_other h).trans ht

end SlotTests

/-- A slot's record after a change with its event. -/
theorem slot?_changed {s : State} {ref : SlotRef} {x : Slot} (e : Event) (f : Slot → Slot) (hf : ∀ y, (f y).ref = y.ref)
    (hx : s.slot? ref = some x) : (emit e (s.mapSlot ref f)).slot? ref = some (f x) := slot?_mapped f hf hx

theorem linkUp_iff {s : State} {l : Nat} : linkUp s l = true ↔ ∃ y, s.link? l = some y ∧ y.state = .up := by
  unfold linkUp
  cases s.link? l <;> simp

/-! ## O42: REQUEST PERMIT -/

/-- Settles O42, line by line. -/
theorem permitRequestTable : Obligations.PermitRequestTable := by
  unfold Obligations.PermitRequestTable
  intro ch tag l i s ref c f hf
  have hd : decide f.ch f.kind f.body (s.paired f) = decideRequestPermit ref (s.paired f) := rfl
  unfold decideRequestPermit at hd
  rw [State.paired_slot?] at hd
  have hup : linkUp (s.paired f) ref.link = linkUp s l.toNat := by
    unfold linkUp
    rw [State.paired_link?]
  cases hx : s.slot? ref with
  | none =>
    rw [hx] at hd
    exact refuses_of rfl hf hd
  | some x =>
    rw [hx] at hd
    dsimp only at hd ⊢
    refine refuses_line rfl hf hd fun _ hd => refuses_line rfl hf hd fun _ hd => ?_
    rw [hup] at hd
    have hlink : linkUp s l.toNat = false ↔ ∀ y, s.link? l.toNat = some y → y.state ≠ .up := by
      rw [Bool.eq_false_iff, ne_eq, linkUp_iff]
      push Not
      rfl
    by_cases hw : (∀ y, s.link? l.toNat = some y → y.state ≠ .up) ∨ x.reconciled = false ∨ x.permit ≠ .heldThere
        ∨ x.yielded = true ∨ x.inb ≠ .none
    · rw [if_pos hw]
      by_cases h1 : linkUp s l.toNat = false ∨ x.reconciled = false
      · exact refuses_of rfl hf (hd.trans (if_pos h1))
      · refine refuses_of rfl hf ((hd.trans (if_neg h1)).trans (if_pos ?_))
        rw [hlink] at h1
        tauto
    · rw [if_neg hw]
      rw [← hlink] at hw
      obtain ⟨h1, h2, h3⟩ := not_or.1 hw |>.imp_right not_or.1
      refine concurs_of rfl hf ((hd.trans (if_neg (not_or.2 ⟨h1, h2⟩))).trans (if_neg h3)) ?_
      have hpar : param 12 (emit (.requestDone f.tag f.kind .done 0) (s.paired f)) = param 12 s := State.paired_param s f 12
      dsimp only
      rw [hpar]
      rfl

/-! ## O43: blocks of slots, and RESTORE SLOT -/

theorem decide_slotBlock (ch : Channel) (l i : Byte) (on : Bool) (t : State) :
    decide ch (if on then .blockSlot else .unblockSlot) [l, i] t = decideSlotBlock ⟨l.toNat, i.toNat⟩ on t := by
  cases on <;> rfl

theorem requestOf_slotBlock (ch : Channel) (tag l i : Byte) (on : Bool) :
    requestOf (if on then .blockSlot ch tag l i else .unblockSlot ch tag l i) =
      some ⟨ch, if on then .blockSlot else .unblockSlot, tag, [l, i]⟩ := by
  cases on <;> rfl

/-- Settles O43, request by request. -/
theorem slotBlocksAndRestores : Obligations.SlotBlocksAndRestores := by
  unfold Obligations.SlotBlocksAndRestores
  refine ⟨?_, ?_⟩
  · intro ch tag l i on s ref c f hf
    have hd : decide f.ch f.kind f.body (s.paired f) = decideSlotBlock ref on (s.paired f) := decide_slotBlock ch l i on _
    unfold decideSlotBlock at hd
    rw [State.paired_slot?] at hd
    cases hx : s.slot? ref with
    | none =>
      rw [hx] at hd
      rw [if_pos rfl]
      exact refuses_of (requestOf_slotBlock ch tag l i on) hf hd
    | some x =>
      rw [hx] at hd
      rw [if_neg nofun]
      refine concurs_of (requestOf_slotBlock ch tag l i on) hf hd ?_
      intro t
      cases on with
      | true => rfl
      | false =>
        rw [if_neg nofun]
        exact ⟨(reacts_closed t).tryOffer _ ((reacts_closed t).retest _ (.refl t)), rfl⟩
  · intro ch tag l i m s ref c f hf
    have hd : decide f.ch f.kind f.body (s.paired f) = decideRestoreSlot ref (m.toNat == 2) (s.paired f) := rfl
    have hm : m.toNat = 1 ∨ m.toNat = 2 := by
      have hr : (l.toNat < 4 && i.toNat < 8 && (m.toNat == 1 || m.toNat == 2)) = true := hf.range
      simpa using (Bool.and_eq_true_iff.1 hr).2
    unfold decideRestoreSlot at hd
    rw [State.paired_slot?] at hd
    have hup : linkUp (s.paired f) ref.link = linkUp s l.toNat := by
      unfold linkUp
      rw [State.paired_link?]
    cases hx : s.slot? ref with
    | none =>
      rw [hx] at hd
      exact refuses_of rfl hf hd
    | some x =>
      rw [hx] at hd
      dsimp only at hd ⊢
      refine refuses_line rfl hf hd fun _ hd => ?_
      have hset (u : State) (p : Permit) (cause : PermitCause) :
          Reacts (emit (.permitState ref p cause) u) (emit (.permitState ref p cause) (u.mapSlot ref (fun y =>
            { y with permit := p, reconciled := true, recon := ⟨.stopped, 0⟩ }))) :=
        (reacts_closed (emit (.permitState ref p cause) u)).mapSlot
          (f := fun y => { y with permit := p, reconciled := true, recon := ⟨.stopped, 0⟩ }) (fun _ => rfl) (.refl _)
      have hu (out : Status) (detail : Nat) :
          (emit (.requestDone f.tag f.kind out detail) (s.paired f)).slot? ref = some x :=
        (State.paired_slot? s f ref).trans hx
      by_cases h1 : m.toNat = 1
      · rw [if_pos h1]
        have hd := hd.trans (if_pos (by rw [h1]; rfl))
        refine concurs_of rfl hf hd ⟨?_, rfl, ?_⟩
        · exact (reacts_closed _).retest ref ((reacts_closed _).mapSlot (f := fun y =>
            { y with permit := .heldThere, yielded := true, reconciled := true, recon := ⟨.stopped, 0⟩ })
            (fun _ => rfl) (.refl _))
        · obtain ⟨a, b, d, hy⟩ := retest_slot
            (slot?_changed (.permitState ref .heldThere .yielded) (fun y : Slot => { y with permit := .heldThere, yielded := true, reconciled := true, recon := .off })
              (fun _ => rfl) (hu .done 0))
          exact ⟨_, hy, rfl, rfl, rfl, rfl⟩
      · rw [if_neg h1]
        have h2 : m.toNat = 2 := hm.resolve_left h1
        have hd := hd.trans (if_neg (by rw [h2]; decide))
        rw [hup] at hd
        by_cases hy : (∃ y, s.link? l.toNat = some y ∧ y.state = .up) ∧ x.peer.map (·.permit) = some .yielded
        · rw [if_pos hy]
          have hd := hd.trans (if_pos ⟨linkUp_iff.2 hy.1, hy.2⟩)
          refine concurs_of rfl hf hd ?_
          have hhere (u : State) : permitHere x .restored Slot.settled u = tryOffer ref
              (emit (.permitState ref .heldHere .restored) (u.mapSlot ref (fun y =>
                { y with permit := .heldHere, reconciled := true, recon := ⟨.stopped, 0⟩ }))) := by
            unfold permitHere
            rw [slot?_ref hx]
            rfl
          dsimp only
          rw [hhere]
          refine ⟨(reacts_closed _).tryOffer ref (hset _ .heldHere .restored), rfl, ?_⟩
          obtain ⟨o, t, hs⟩ := tryOffer_slot
            (slot?_changed (.permitState ref .heldHere .restored) (fun y : Slot => { y with permit := .heldHere, reconciled := true, recon := ⟨.stopped, 0⟩ })
              (fun _ => rfl) (hu .done 0))
          exact ⟨_, hs, rfl, rfl, rfl⟩
        · rw [if_neg hy]
          exact refuses_of rfl hf (hd.trans (if_neg fun h => hy ⟨linkUp_iff.1 h.1, h.2⟩))

/-! ## O44: RELEASE RESERVATION -/

theorem peerGone_iff {x : Slot} : peerGone x = true ↔ ∃ p, x.peer = some p ∧ (p.outb = .none ∨ p.outb = .withdraw) := by
  unfold peerGone
  cases x.peer <;> simp

/-- The record that the drop of an entry reservation leaves (R146 to R148). -/
theorem endInbound_slot {s : State} {ref : SlotRef} {x : Slot} (hx : s.slot? ref = some x) (b : Nat) (c : SlotCause) :
    (endInbound ref b c s).slot? ref = some { x with inb := .none, transitSeen := false, transitEnded := false, reserve := .off } :=
  retestOver_slot (slot?_changed (s := dropEntry ref b s) (.slotIn ref .none c) (fun y =>
    { y with inb := .none, transitSeen := false, transitEnded := false, reserve := .off }) (fun _ => rfl) hx) b nofun

/-- Settles O44. -/
theorem reservationReleases : Obligations.ReservationReleases := by
  unfold Obligations.ReservationReleases
  refine ⟨?_, ?_⟩
  · intro ch tag l i s ref c f hf
    have hd : decide f.ch f.kind f.body (s.paired f) = decideReleaseReservation ref (s.paired f) := rfl
    unfold decideReleaseReservation at hd
    rw [State.paired_slot?] at hd
    cases hx : s.slot? ref with
    | none =>
      rw [hx] at hd
      exact refuses_of rfl hf hd
    | some x =>
      rw [hx] at hd
      dsimp only at hd ⊢
      have hgone : ((x.inb = .acceptedIsolated ∨ (x.inb = .accepted ∧ peerGone x = true)) ∧ x.reserve.mode ≠ .running) ↔ _ :=
        and_congr_left' (or_congr_right (and_congr_right' peerGone_iff))
      by_cases hc : (x.inb = .acceptedIsolated
          ∨ (x.inb = .accepted ∧ ∃ p, x.peer = some p ∧ (p.outb = .none ∨ p.outb = .withdraw))) ∧ x.reserve.mode ≠ .running
      · rw [if_pos hc]
        exact concurs_of rfl hf (hd.trans (if_pos (hgone.2 hc))) rfl
      · rw [if_neg hc]
        exact refuses_of rfl hf (hd.trans (if_neg (mt hgone.1 hc)))
  · intro l i s x hx
    have he : reserveExpired ⟨l, i⟩ s =
        if x.reserve.mode = .running ∧ (x.inb = .accepted ∨ x.inb = .acceptedIsolated) then endInbound ⟨l, i⟩ x.bsec
          .reservationReleased s else s := by
      unfold reserveExpired; rw [hx]
    by_cases hc : x.reserve.mode = .running ∧ (x.inb = .accepted ∨ x.inb = .acceptedIsolated)
    · rw [if_pos hc]
      refine ⟨endInbound ⟨l, i⟩ x.bsec .reservationReleased s, congrArg Host.Outcome.next (he.trans (if_pos hc)), rfl, ?_,
        _, endInbound_slot hx _ _, rfl, rfl, rfl⟩
      exact (reacts_closed _).retestOver _ ((reacts_closed _).mapSlot (f := fun y =>
        { y with inb := .none, transitSeen := false, transitEnded := false, reserve := .off }) (fun _ => rfl) (.refl _))
    · rw [if_neg hc]
      exact congrArg Host.Outcome.next (he.trans (if_neg hc))

/-! ## O45: slot timers -/

/-- A permit that becomes FAULT ends the outbound work of one HELD_HERE (R137, R145). -/
theorem permitFault_slot {s : State} {ref : SlotRef} {x : Slot} (hx : s.slot? ref = some x) (cause : PermitCause)
    {f : Slot → Slot} (hf : SlotKeeps f) (hr : ∀ y, (f y).ref = y.ref) :
    let u := emit (.permitState ref .fault cause) (s.mapSlot ref (fun y => { f y with permit := .fault }))
    permitFault x cause f s = (if x.permit = .heldHere then endOutbound ref u else u)
      ∧ Reacts (emit (.permitState ref .fault cause) s) (permitFault x cause f s)
      ∧ ∃ o t v r, (permitFault x cause f s).slot? ref =
          some { f x with permit := .fault, outb := o, accept := t, transit := v, receivedReported := r } := by
  intro u
  have he : permitFault x cause f s = if x.permit = .heldHere then endOutbound ref u else u := by
    unfold permitFault
    rw [slot?_ref hx]
    rfl
  have hu : Reacts (emit (.permitState ref .fault cause) s) u :=
    (reacts_closed (emit (.permitState ref .fault cause) s)).mapSlot (f := fun y => { f y with permit := .fault })
      (fun y => hf y) (.refl _)
  have hs : u.slot? ref = some { f x with permit := .fault } :=
    slot?_changed (.permitState ref .fault cause) (fun y => { f y with permit := .fault }) hr hx
  refine ⟨he, ?_⟩
  rw [he]
  split
  · exact ⟨(reacts_closed _).endOutbound ref hu, endOutbound_slot hs⟩
  · exact ⟨hu, _, _, _, _, hs⟩

/-- Settles O45, timer by timer. -/
theorem slotTimersExpire : Obligations.SlotTimersExpire := by
  unfold Obligations.SlotTimersExpire
  refine ⟨fun l i s x hx => ⟨?_, ?_⟩, fun l i s x hx => ⟨?_, ?_⟩⟩
  · have he : reconExpired ⟨l, i⟩ s = if x.recon.mode = .running then permitFault x .noHolder Slot.settled s else s := by
      unfold reconExpired; rw [hx]
    by_cases hc : x.recon.mode = .running
    · rw [if_pos hc]
      obtain ⟨hf, hr, o, t, v, r, hs⟩ := permitFault_slot hx .noHolder (f := Slot.settled) (fun _ => rfl) fun _ => rfl
      exact ⟨_, congrArg Host.Outcome.next (he.trans (if_pos hc)), hr, hf, _, hs, rfl, rfl, rfl⟩
    · rw [if_neg hc]
      exact congrArg Host.Outcome.next (he.trans (if_neg hc))
  · have he : transferExpired ⟨l, i⟩ s = if x.transfer.mode = .running then
        (match x.permit with
        | .taking => retest ⟨l, i⟩ (setPermit ⟨l, i⟩ .heldThere .timeout (fun y => { y with transfer := .off }) s)
        | .giving => permitFault x .timeout (fun y => { y with transfer := .off }) s
        | .heldHere => s
        | .heldThere => s
        | .fault => s
        | .unknown => s) else s := by
      unfold transferExpired; rw [hx] <;> rfl
    by_cases hc : x.transfer.mode = .running
    · have he := he.trans (if_pos hc)
      by_cases ht : x.permit = .taking
      · rw [if_pos ⟨hc, ht⟩]
        rw [ht] at he
        refine ⟨_, congrArg Host.Outcome.next he, ?_, rfl, ?_⟩
        · exact (reacts_closed _).retest _ ((reacts_closed _).mapSlot (f := fun y =>
            { y with permit := .heldThere, transfer := .off }) (fun _ => rfl) (.refl _))
        · obtain ⟨a, b, d, hs⟩ := retest_slot (slot?_changed (.permitState ⟨l, i⟩ .heldThere .timeout)
            (fun y : Slot => { y with permit := .heldThere, transfer := .off }) (fun _ => rfl) hx)
          exact ⟨_, hs, rfl, rfl⟩
      · rw [if_neg fun h => ht h.2]
        by_cases hg : x.permit = .giving
        · rw [if_pos ⟨hc, hg⟩]
          rw [hg] at he
          refine congrArg Host.Outcome.next (he.trans ?_)
          obtain ⟨hf, -⟩ := permitFault_slot hx .timeout (f := fun y => { y with transfer := .off }) (fun _ => rfl) fun _ => rfl
          exact hf.trans (if_neg (by rw [hg]; nofun))
        · rw [if_neg fun h => hg h.2]
          refine congrArg Host.Outcome.next (he.trans ?_)
          cases hp : x.permit with
          | taking => exact absurd hp ht
          | giving => exact absurd hp hg
          | heldHere | heldThere | fault | unknown => rfl
    · rw [if_neg fun h => hc h.1, if_neg fun h => hc h.1]
      exact congrArg Host.Outcome.next (he.trans (if_neg hc))
  · have he : acceptExpired ⟨l, i⟩ s = if x.accept.mode = .running then
        (if x.outb = .offered then emit (.slotOut ⟨l, i⟩ .offered .noAnswer)
          (s.mapSlot ⟨l, i⟩ (fun y => { y with accept := .off })) else s.mapSlot ⟨l, i⟩ (fun y => { y with accept := .off }))
        else s := by
      unfold acceptExpired; rw [hx]
    by_cases hc : x.accept.mode = .running
    · rw [if_pos hc]
      exact congrArg Host.Outcome.next (he.trans (if_pos hc))
    · rw [if_neg hc]
      exact congrArg Host.Outcome.next (he.trans (if_neg hc))
  · have he : transitExpired ⟨l, i⟩ s = if x.transit.mode = .running then
        (match s.routes.find? (fun a => a.exitSlot == some ⟨l, i⟩) with
          | some a => emit (.transitOverdue ⟨l, i⟩ a.id) (s.mapSlot ⟨l, i⟩ (fun y => { y with transit := .off }))
          | none => s.mapSlot ⟨l, i⟩ (fun y => { y with transit := .off }))
        else s := by
      unfold transitExpired; rw [hx] <;> rfl
    by_cases hc : x.transit.mode = .running
    · rw [if_pos hc]
      exact congrArg Host.Outcome.next (he.trans (if_pos hc))
    · rw [if_neg hc]
      exact congrArg Host.Outcome.next (he.trans (if_neg hc))

end Sys2Proof.Machine

/-!
PROOFS. The permit of a slot in a delivery, the inbound and the outbound side, and link loss. O46, O47, O48.
-/

namespace Sys2Proof.Machine

/-! ## The comparison of permits (R137) -/

theorem claiming_iff {p : PubPermit} : claiming p = true ↔ p = .hold ∨ p = .release ∨ p = .refuse := by
  cases p <;> simp [claiming]

/-- How the comparison leaves a slot: the permit `q` with the given events, the outbound work ended or begun (R137, R143,
R145). -/
def Settled (ref : SlotRef) (s : State) (x : Slot) (q : Permit) (es : List Event) (t : State) : Prop :=
  let u := emitAll es (s.mapSlot ref (fun y => { y with reconciled := true, recon := ⟨.stopped, 0⟩, permit := q }))
  Reacts (emitAll es s) t
    ∧ t = (if q = .fault ∧ x.permit = .heldHere then endOutbound ref u else if q = .heldHere then tryOffer ref u else u)
    ∧ ∃ y, t.slot? ref = some y ∧ y.permit = q ∧ y.reconciled = true ∧ y.recon = ⟨.stopped, 0⟩

section PermitComparison
variable {ref : SlotRef} {s : State} {x : Slot} (hx : s.slot? ref = some x)
include hx

theorem permitFault_settled (cause : PermitCause) : Settled ref s x .fault [.permitState ref .fault cause]
    (permitFault x cause Slot.settled s) := by
  obtain ⟨he, hr, o, a, v, r, hs⟩ := permitFault_slot hx cause (f := Slot.settled) (fun _ => rfl) fun _ => rfl
  refine ⟨hr, he.trans ?_, _, hs, rfl, rfl, rfl⟩
  by_cases hh : x.permit = .heldHere
  · rw [if_pos hh, if_pos ⟨rfl, hh⟩]
    rfl
  · rw [if_neg hh, if_neg fun h => hh h.2, if_neg nofun]
    rfl

theorem permitHere_settled (hh : x.permit ≠ .heldHere) : Settled ref s x .heldHere [.permitState ref .heldHere .reconciled]
    (permitHere x .reconciled Slot.settled s) := by
  have he : permitHere x .reconciled Slot.settled s = tryOffer ref (emit (.permitState ref .heldHere .reconciled)
      (s.mapSlot ref (fun y => { y with reconciled := true, recon := ⟨.stopped, 0⟩, permit := .heldHere }))) := by
    unfold permitHere
    rw [slot?_ref hx]
    rfl
  obtain ⟨o, a, hs⟩ := tryOffer_slot (slot?_changed (.permitState ref .heldHere .reconciled)
    (fun y : Slot => { y with reconciled := true, recon := ⟨.stopped, 0⟩, permit := .heldHere }) (fun _ => rfl) hx)
  unfold Settled
  rw [he]
  refine ⟨?_, ?_, _, hs, rfl, rfl, rfl⟩
  · exact (reacts_closed _).tryOffer ref ((reacts_closed _).mapSlot (f := fun y =>
      { y with reconciled := true, recon := ⟨.stopped, 0⟩, permit := .heldHere }) (fun _ => rfl) (.refl _))
  · rw [if_neg fun h => hh h.2, if_pos rfl]
    rfl

theorem setPermit_settled {q : Permit} (h1 : q ≠ .heldHere) (h2 : q ≠ .fault) :
    Settled ref s x q [.permitState ref q .reconciled] (setPermit x.ref q .reconciled Slot.settled s) := by
  have he : setPermit x.ref q .reconciled Slot.settled s = emit (.permitState ref q .reconciled)
      (s.mapSlot ref (fun y => { y with reconciled := true, recon := ⟨.stopped, 0⟩, permit := q })) := by
    rw [slot?_ref hx]
    rfl
  unfold Settled
  rw [he]
  refine ⟨?_, ?_, _, slot?_changed (.permitState ref q .reconciled)
    (fun y : Slot => { y with reconciled := true, recon := ⟨.stopped, 0⟩, permit := q }) (fun _ => rfl) hx, rfl, rfl, rfl⟩
  · exact (reacts_closed _).mapSlot (f := fun y =>
      { y with reconciled := true, recon := ⟨.stopped, 0⟩, permit := q }) (fun _ => rfl) (.refl _)
  · rw [if_neg fun h => h2 h.1, if_neg h1]
    rfl

/-- The permit stands and the slot is reconciled; one HELD_HERE may begin its offer (R137, R143). -/
theorem reconcile_stands {p : PubPermit} (hw : reconcileWith x p = .stands) :
    Reacts s (reconcile x p s)
      ∧ reconcile x p s = (if x.permit = .heldHere then tryOffer ref (s.mapSlot ref Slot.settled) else s.mapSlot ref Slot.settled)
      ∧ ∃ y, (reconcile x p s).slot? ref = some y ∧ y.permit = x.permit ∧ y.reconciled = true ∧ y.recon = ⟨.stopped, 0⟩ := by
  have he : reconcile x p s =
      if x.permit = .heldHere then tryOffer ref (s.mapSlot ref Slot.settled) else s.mapSlot ref Slot.settled := by
    unfold reconcile
    rw [hw, slot?_ref hx]
  have hs : (s.mapSlot ref Slot.settled).slot? ref = some x.settled := slot?_mapped Slot.settled (fun _ => rfl) hx
  have hr : Reacts s (s.mapSlot ref Slot.settled) := (reacts_closed s).mapSlot (fun _ => rfl) (.refl s)
  refine ⟨?_, he, ?_⟩
  · rw [he]
    split
    · exact (reacts_closed s).tryOffer ref hr
    · exact hr
  · rw [he]
    split
    · obtain ⟨o, a, ht⟩ := tryOffer_slot hs
      exact ⟨_, ht, rfl, rfl, rfl⟩
    · exact ⟨_, hs, rfl, rfl, rfl⟩

theorem reconcile_waits {p : PubPermit} (hw : reconcileWith x p = .waits) : reconcile x p s =
    if x.recon.mode = .running then s else s.mapSlot ref (fun y => { y with recon := ⟨.running, param 12 s⟩ }) := by
  unfold reconcile
  rw [hw, slot?_ref hx]
  rfl

theorem reconcile_becomes {p : PubPermit} {q : Permit} (hw : reconcileWith x p = .becomes q) (h1 : q ≠ .heldHere) (h2 : q ≠ .fault) :
    Settled ref s x q [.permitState ref q .reconciled] (reconcile x p s) := by
  have he : reconcile x p s = setPermit x.ref q .reconciled Slot.settled s := by
    unfold reconcile
    rw [hw]
    cases q with
    | heldHere => exact absurd rfl h1
    | heldThere | taking | giving | fault | unknown => rfl
  rw [he]
  exact setPermit_settled hx h1 h2

theorem reconcile_here {p : PubPermit} (hw : reconcileWith x p = .becomes .heldHere) (hh : x.permit ≠ .heldHere) :
    Settled ref s x .heldHere [.permitState ref .heldHere .reconciled] (reconcile x p s) := by
  have he : reconcile x p s = permitHere x .reconciled Slot.settled s := by
    unfold reconcile
    rw [hw]
  rw [he]
  exact permitHere_settled hx hh

theorem reconcile_noHolder {p : PubPermit} (hw : reconcileWith x p = .noHolder) :
    Settled ref s x .fault [.permitState ref .fault .noHolder] (reconcile x p s) := by
  have he : reconcile x p s = permitFault x .noHolder Slot.settled s := by
    unfold reconcile
    rw [hw]
  rw [he]
  exact permitFault_settled hx .noHolder

theorem reconcile_bothHeld {p : PubPermit} (hw : reconcileWith x p = .bothHeld) :
    Settled ref s x .fault [.bothHeld ref, .permitState ref .fault .bothHeld] (reconcile x p s) := by
  have he : reconcile x p s = permitFault x .bothHeld Slot.settled (emit (.bothHeld ref) s) := by
    unfold reconcile
    rw [hw, ← slot?_ref hx]
    rfl
  rw [he]
  exact permitFault_settled (s := emit (.bothHeld ref) s) hx .bothHeld

end PermitComparison

/-! ## The permit step of a reconciled slot (R137 to R140) -/

theorem canGive_iff {x : Slot} {s : State} : canGive x s = true ↔
    x.block = false ∧ (x.cap = .inward ∨ x.cap = .both) ∧ x.outb = .none
      ∧ (∀ b, s.section? x.bsec = some b → ∀ r, b.holder ≠ .route r ∧ b.holder ≠ .overlap r)
      ∧ ∀ a ∈ s.routes, a.exitSlot ≠ some x.ref := by
  have hsec : (match s.section? x.bsec with
      | some b => match b.holder with
        | .route _ => false
        | .overlap _ => false
        | .none => true
        | .entry _ _ => true
      | none => true) = true ↔ ∀ b, s.section? x.bsec = some b → ∀ r, b.holder ≠ .route r ∧ b.holder ≠ .overlap r := by
    cases s.section? x.bsec with
    | none => simp
    | some b => cases hb : b.holder <;> simp [hb]
  have hcap : canReceive x.cap = true ↔ x.cap = .inward ∨ x.cap = .both := by simp [canReceive]
  have hown : (!x.block && canReceive x.cap && x.outb == .none) = true ↔
      x.block = false ∧ (x.cap = .inward ∨ x.cap = .both) ∧ x.outb = .none := by
    rw [Bool.and_eq_true_iff, Bool.and_eq_true_iff, hcap]
    simp [and_assoc]
  have hroutes : (!s.routes.any fun a => a.exitSlot == some x.ref) = true ↔ ∀ a ∈ s.routes, a.exitSlot ≠ some x.ref := by
    simp
  refine (Bool.and_eq_true_iff.trans (and_congr (Bool.and_eq_true_iff.trans (and_congr hown hsec)) hroutes)).trans ?_
  simp only [and_assoc]

section PermitSteps
variable {x : Slot} (s : State) (prev : Option PubPermit)

/-- A slot in HELD_HERE against the peer's permit (R137, R139). -/
theorem permitStep_here (hp : x.permit = .heldHere) (p : PubPermit) : permitStep x prev p s = match p with
    | .hold => bothHeldFault x id s
    | .request =>
      if prev = some .request then s
      else if canGive x s then
        setPermit x.ref .giving .requested (fun y => { y with transfer := Timer.start (param 12 s) }) s
      else setPermit x.ref .heldHere .refusing (fun y => { y with refusing := true }) s
    | .notHold | .release | .refuse | .yielded | .fault => s := by
  unfold permitStep
  rw [hp] <;> cases p <;> rfl

theorem permitStep_there (hp : x.permit = .heldThere) (p : PubPermit) : permitStep x prev p s =
    if x.yielded = true ∧ (p = .notHold ∨ p = .yielded) then permitFault x .noHolder id s else s := by
  unfold permitStep
  rw [hp]

theorem permitStep_taking (hp : x.permit = .taking) (p : PubPermit) : permitStep x prev p s = match p with
    | .release => permitHere x .taken (fun y => { y with transfer := .off }) s
    | .refuse => setPermit x.ref .heldThere .refused (fun y => { y with transfer := .off }) s
    | .hold | .notHold | .request | .yielded | .fault => s := by
  unfold permitStep
  rw [hp] <;> cases p <;> rfl

theorem permitStep_giving (hp : x.permit = .giving) (p : PubPermit) : permitStep x prev p s = match p with
    | .hold => setPermit x.ref .heldThere .given (fun y => { y with transfer := .off }) s
    | .notHold => permitHere x .notTaken (fun y => { y with transfer := .off }) s
    | .request => s
    | .release | .refuse | .yielded | .fault => permitFault x .noHolder (fun y => { y with transfer := .off }) s := by
  unfold permitStep
  rw [hp] <;> cases p <;> rfl

theorem permitFault_other (h : x.permit ≠ .heldHere) (cause : PermitCause) (f : Slot → Slot) :
    permitFault x cause f s = setPermit x.ref .fault cause f s := if_neg h

end PermitSteps

/-! ## O46 -/

theorem Reacts.slot?_some {u t : State} (h : Reacts u t) {ref : SlotRef} {x : Slot} (hx : u.slot? ref = some x) :
    ∃ y, t.slot? ref = some y := by
  have e := congrArg (List.find? (fun z : Slot => z.ref == ref)) h.slots
  rw [List.find?_map, List.find?_map] at e
  have hu : (u.slots.find? ((fun z : Slot => z.ref == ref) ∘ Slot.core)).map Slot.core = some x.core :=
    congrArg (Option.map Slot.core) hx
  obtain ⟨y, hy, -⟩ := Option.map_eq_some_iff.1 (e.trans hu)
  exact ⟨y, hy⟩

/-- Settles O46, by the table of R137 and the permit of the slot. -/
theorem permitComparison : Obligations.PermitComparison := by
  unfold Obligations.PermitComparison
  refine ⟨?_, ?_, ?_⟩
  · intro ref s x p hx claims t settles here stands becomes waits toFault
    have hcl : claiming p = true ↔ claims := claiming_iff
    have hstands (hw : reconcileWith x p = .stands) : stands := reconcile_stands hx hw
    have hwaits (hw : reconcileWith x p = .waits) : waits := reconcile_waits hx hw
    have hfault (hw : reconcileWith x p = .noHolder) : toFault := reconcile_noHolder hx hw
    have hthere (hw : reconcileWith x p = .becomes .heldThere) :
        becomes .heldThere [.permitState ref .heldThere .reconciled] := reconcile_becomes hx hw nofun nofun
    cases hp : x.permit with
    | heldHere =>
      have hw : reconcileWith x p = if claiming p then .bothHeld else .stands := by unfold reconcileWith; rw [hp]
      dsimp only
      by_cases hc : claims
      · rw [if_pos hc]
        exact reconcile_bothHeld hx (hw.trans (if_pos (hcl.2 hc)))
      · rw [if_neg hc]
        exact hstands (hw.trans (if_neg (mt hcl.1 hc)))
    | heldThere =>
      have hw : reconcileWith x p = if claiming p then .stands
          else if p = .notHold then .waits
          else if x.yielded = true ∧ p = .fault then .stands
          else .noHolder := by unfold reconcileWith; rw [hp]
      dsimp only
      by_cases hc : claims
      · rw [if_pos (.inl hc)]
        exact hstands (hw.trans (if_pos (hcl.2 hc)))
      · have hw := hw.trans (if_neg (mt hcl.1 hc))
        by_cases hy : x.yielded = true ∧ p = .fault
        · rw [if_pos (.inr hy)]
          exact hstands (hw.trans ((if_neg (by rw [hy.2]; nofun)).trans (if_pos hy)))
        · rw [if_neg (not_or.2 ⟨hc, hy⟩)]
          by_cases hn : p = .notHold
          · rw [if_pos hn]
            exact hwaits (hw.trans (if_pos hn))
          · rw [if_neg hn]
            exact hfault (hw.trans ((if_neg hn).trans (if_neg hy)))
    | fault =>
      have hw : reconcileWith x p = if claiming p then .becomes .heldThere else .stands := by unfold reconcileWith; rw [hp]
      dsimp only
      by_cases hc : claims
      · rw [if_pos hc]
        exact hthere (hw.trans (if_pos (hcl.2 hc)))
      · rw [if_neg hc]
        exact hstands (hw.trans (if_neg (mt hcl.1 hc)))
    | unknown =>
      have hw : reconcileWith x p = if claiming p then .becomes .heldThere
          else if p = .notHold then (if x.initHere then .becomes .heldHere else .waits)
          else .noHolder := by unfold reconcileWith; rw [hp]
      dsimp only
      by_cases hc : claims
      · rw [if_pos hc]
        exact hthere (hw.trans (if_pos (hcl.2 hc)))
      · rw [if_neg hc]
        have hw := hw.trans (if_neg (mt hcl.1 hc))
        by_cases hn : p = .notHold
        · rw [if_pos hn]
          have hw := hw.trans (if_pos hn)
          by_cases hi : x.initHere = true
          · rw [if_pos hi]
            exact reconcile_here hx (hw.trans (if_pos hi)) (by rw [hp]; nofun)
          · rw [if_neg hi]
            exact hwaits (hw.trans (if_neg hi))
        · rw [if_neg hn]
          exact hfault (hw.trans (if_neg hn))
    | taking => exact hstands (by unfold reconcileWith; rw [hp])
    | giving => exact hstands (by unfold reconcileWith; rw [hp])
  · intro ref p s old hx stores t u
    have ht : t.slot? ref = some (stores old) := slot?_mapped stores (fun _ => rfl) hx
    have hu : Reacts t u := by
      unfold u
      split
      · exact (reacts_closed t).permitStep _ _ _ (.refl t)
      · exact (reacts_closed t).reconcile _ _ (.refl t)
    obtain ⟨y, hy⟩ := hu.slot?_some ht
    have hv : Reacts t (if y.reconciled = true then outboundStep y (old.peer.map (·.inb)) p.inb u else u) := by
      split
      · exact (reacts_closed t).outboundStep _ _ _ hu
      · exact hu
    obtain ⟨z, hz⟩ := hv.slot?_some ht
    refine ⟨y, z, hy, hz, ?_⟩
    unfold deliverSlot
    rw [hx]
    have hstep : (match u.slot? ref with
        | some y => if y.reconciled then outboundStep y (old.peer.map PubFields.inb) p.inb u else u
        | none => u) = if y.reconciled = true then outboundStep y (old.peer.map PubFields.inb) p.inb u else u := by
      rw [hy]
    refine (congrArg (fun w : State => match w.slot? ref with
      | some y => inboundStep old.reconciled y p.outb w
      | none => w) hstep).trans ?_
    rw [hz]
  · intro x prev p s hx sets stops starts gives t
    have hgive : canGive x s = true ↔ gives := canGive_iff
    cases hp : x.permit with
    | heldHere =>
      have ht : t = _ := permitStep_here s prev hp p
      cases p with
      | hold => exact ht.trans (if_pos hp)
      | request =>
        refine ⟨fun h => ht.trans (if_pos h), fun h hg => ht.trans ((if_neg h).trans (if_pos (hgive.2 hg))),
          fun h hg => ht.trans ((if_neg h).trans (if_neg (mt hgive.1 hg)))⟩
      | notHold | release | refuse | yielded | fault => exact ht
    | heldThere =>
      refine (permitStep_there s prev hp p).trans (if_congr Iff.rfl ?_ rfl)
      exact permitFault_other s (by rw [hp]; nofun) _ _
    | taking =>
      have ht : t = _ := permitStep_taking s prev hp p
      cases p <;> exact ht
    | giving =>
      have ht : t = _ := permitStep_giving s prev hp p
      have hf : permitFault x .noHolder (fun y => { y with transfer := .off }) s = _ :=
        permitFault_other s (by rw [hp]; nofun) _ _
      cases p with
      | hold | notHold | request => exact ht
      | release | refuse | yielded | fault => exact ht.trans hf
    | fault => unfold t permitStep; rw [hp]
    | unknown => unfold t permitStep; rw [hp]

end Sys2Proof.Machine

/-!
PROOFS. The inbound and the outbound side of a slot, and link loss. O47, O48.
-/

namespace Sys2Proof.Machine

/-! ## The conditions of acceptance (R146) -/

open Classical in
/-- The place of the first proposition of a list that fails, counted from `k`. -/
noncomputable def firstFail : Nat → List Prop → Option Nat
  | _, [] => none
  | k, c :: cs => if c then firstFail (k + 1) cs else some k

theorem firstFail_none {l : List Prop} (h : ∀ c ∈ l, c) (k : Nat) : firstFail k l = none := by
  induction l generalizing k with
  | nil => rfl
  | cons c cs ih => exact (if_pos (h c List.mem_cons_self)).trans (ih (fun d hd => h d (List.mem_cons_of_mem _ hd)) _)

theorem firstFail_some {before : List Prop} {q : Prop} {after : List Prop} (h : ∀ c ∈ before, c) (hq : ¬ q) (k : Nat) :
    firstFail k (before ++ q :: after) = some (k + before.length) := by
  induction before generalizing k with
  | nil => exact if_neg hq
  | cons c cs ih =>
    refine (if_pos (h c List.mem_cons_self)).trans ((ih (fun d hd => h d (List.mem_cons_of_mem _ hd)) _).trans ?_)
    rw [List.length_cons]
    exact congrArg some (by omega)

theorem firstFail_cons {k : Nat} {c : Prop} {cs : List Prop} {p : Prop} [Decidable p] (hc : c ↔ ¬ p) {o : Option Nat}
    (ho : o = firstFail (k + 1) cs) : (if p then some k else o) = firstFail k (c :: cs) := by
  unfold firstFail
  by_cases hp : p
  · rw [if_pos hp, if_neg (by tauto)]
  · rw [if_neg hp, if_pos (by tauto), ho]

theorem boundaryFree_iff {s : State} {b : Nat} : boundaryFree s b = true ↔
    ∃ y, s.section? b = some y ∧ y.status = .clear ∧ y.holder = .none ∧ y.faulted = false ∧ y.block = false := by
  unfold boundaryFree
  cases s.section? b <;> simp [and_assoc]

/-- The conditions of R146 in the order of its list. -/
def acceptConditions (s : State) (x : Slot) : List Prop := [
  x.cap = .inward ∨ x.cap = .both,
  x.block = false,
  ∃ y, s.section? x.bsec = some y ∧ y.status = .clear ∧ y.holder = .none ∧ y.faulted = false ∧ y.block = false,
  x.permit = .heldThere ∧ x.reconciled = true,
  ∃ y, s.link? x.ref.link = some y ∧ y.state = .up,
  s.dev.state = .inService,
  ∀ ch, (s.chan ch).state = .active ∨ (s.chan ch).state = .paused]

theorem acceptFail_eq (s : State) (x : Slot) : acceptFail s x = firstFail 1 (acceptConditions s x) := by
  have hch : (∀ ch, (s.chan ch).state = .active ∨ (s.chan ch).state = .paused) ↔
      (s.operating .A && s.operating .B) = true := by
    rw [Bool.and_eq_true_iff, operating_iff, operating_iff]
    exact ⟨fun h => ⟨h .A, h .B⟩, fun h ch => by cases ch <;> [exact h.1; exact h.2]⟩
  unfold acceptFail acceptConditions
  refine firstFail_cons ?_ (firstFail_cons ?_ (firstFail_cons ?_ (firstFail_cons ?_ (firstFail_cons ?_
    (firstFail_cons ?_ (firstFail_cons ?_ rfl))))))
  · simp [canReceive, or_iff_not_imp_left]
  · simp
  · rw [← boundaryFree_iff]
    simp
  · simp
  · rw [← linkUp_iff]
    simp
  · simp
  · rw [hch]
    simp

theorem offerStands_iff {x : Slot} : offerStands x = true ↔ ∃ p, x.peer = some p ∧ (p.outb = .offer ∨ p.outb = .transit) := by
  unfold offerStands
  cases x.peer <;> simp

section Acceptance
variable {ref : SlotRef} {s : State} {x : Slot} (hx : s.slot? ref = some x)
include hx

theorem testAcceptance_idle (h : ¬ ((x.inb = .none ∨ x.inb = .declining) ∧ offerStands x = true)) :
    testAcceptance ref s = s := by
  unfold testAcceptance
  rw [hx]
  exact if_neg h

theorem testAcceptance_accepts (h : (x.inb = .none ∨ x.inb = .declining) ∧ offerStands x = true)
    (hall : ∀ c ∈ acceptConditions s x, c) : testAcceptance ref s = emit (.slotIn ref .accepted .none)
      ((s.mapSection x.bsec (fun b => { b with holder := .entry ref.link ref.idx })).mapSlot ref
        (fun y => { y with inb := .accepted, transitSeen := peerTransit x, transitEnded := false })) := by
  have hf : acceptFail s x = none := (acceptFail_eq s x).trans (firstFail_none hall 1)
  unfold testAcceptance
  rw [hx]
  refine (if_pos h).trans ?_
  rw [hf]

theorem testAcceptance_declines (h : (x.inb = .none ∨ x.inb = .declining) ∧ offerStands x = true)
    {before : List Prop} {q : Prop} {after : List Prop} (hc : acceptConditions s x = before ++ q :: after)
    (hb : ∀ c ∈ before, c) (hq : ¬ q) : testAcceptance ref s = if x.inb = .declining then s
      else emit (.slotIn ref .declining (.condition (before.length + 1)))
        (s.mapSlot ref (fun y => { y with inb := .declining })) := by
  have hf : acceptFail s x = some (before.length + 1) := by
    rw [acceptFail_eq, hc, firstFail_some hb hq, Nat.add_comm]
  unfold testAcceptance
  rw [hx]
  refine (if_pos h).trans ?_
  rw [hf]

end Acceptance

/-! ## O47 -/

theorem acceptedStep_eq (x : Slot) (o : PubOut) (iso : Bool) (s : State) : acceptedStep x o iso s =
    let back : State := if iso then emit (.slotIn x.ref .accepted .none) (s.mapSlot x.ref (fun y => { y with inb := .accepted })) else s
    if o = .offer then back
    else if o = .transit then
      (if iso then emit (.slotIn x.ref .accepted .none)
          (s.mapSlot x.ref (fun y => { y with inb := .accepted, transitSeen := true }))
        else s.mapSlot x.ref (fun y => { y with inb := .accepted, transitSeen := true }))
    else if x.transitSeen = false then endInbound x.ref x.bsec .withdrawn s
    else if x.transitEnded = true then back
    else emit (.slotIn x.ref .accepted .transitEnded)
      (s.mapSlot x.ref (fun y => { y with inb := .accepted, transitEnded := true })) := by
  cases o <;> rfl

/-- Settles O47, with the conditions of R146 as an ordered list. -/
theorem acceptanceTest : Obligations.AcceptanceTest := by
  unfold Obligations.AcceptanceTest
  refine ⟨?_, ?_, ?_, ?_, ?_, ?_, ?_⟩
  · intro ref s x p hx hin hpeer hoffer conditions
    have hc : conditions = acceptConditions s x := by unfold acceptConditions; rw [slot?_ref hx]
    have hst : (x.inb = .none ∨ x.inb = .declining) ∧ offerStands x = true := ⟨hin, offerStands_iff.2 ⟨p, hpeer, hoffer⟩⟩
    refine ⟨fun hall => ?_, fun before q after hsplit hb hq => ?_⟩
    · have hseen : peerTransit x = Decidable.decide (p.outb = .transit) := by
        unfold peerTransit
        rw [hpeer]
        exact Bool.beq_eq_decide_eq _ _
      rw [testAcceptance_accepts hx hst (hc ▸ hall), hseen]
    · exact testAcceptance_declines hx hst (hc ▸ hsplit) hb hq
  · intro ref s x hx
    refine ⟨fun h => testAcceptance_idle hx fun ⟨hin, hst⟩ => ?_, ?_⟩
    · obtain ⟨p, hp, ho⟩ := offerStands_iff.1 hst
      rcases h with ⟨h1, h2⟩ | h
      · exact hin.elim h1 h2
      · exact ho.elim (h p hp).1 (h p hp).2
    · have hserved : slotsServed s = true ↔ s.dev.state ≠ .safeHalt := by simp [slotsServed]
      unfold retest
      rw [hx]
      exact if_congr (and_congr_right' hserved) rfl rfl
  · intro b s
    exact inOrder_map_foldl _ _ _
  · intro s
    exact inOrder_map_foldl _ _ _
  · intro was x o s turns drops gone t
    have hstep (iso : Bool) := acceptedStep_eq x o iso s
    cases hi : x.inb with
    | none => unfold t inboundStep; rw [hi]
    | receiving => unfold t inboundStep; rw [hi]
    | declining =>
      have ht : t = if o = .none ∨ o = .withdraw then
          emit (.slotIn x.ref .none .offerEnded)
            (s.mapSlot x.ref (fun y => { y with inb := .none, transitSeen := false, transitEnded := false }))
          else testAcceptance x.ref s := by unfold t inboundStep; rw [hi]
      exact ht
    | accepted =>
      have ht : t = acceptedStep x o false s := by unfold t inboundStep; rw [hi]
      exact ht.trans (hstep false)
    | acceptedIsolated =>
      have ht : t = if was then acceptedStep x o true s else s := by unfold t inboundStep; rw [hi]
      cases was with
      | false => exact ht
      | true => exact ht.trans (hstep true)
  · intro old ref s x hx
    unfold slotOnSection
    rw [hx]
    rfl
  · intro b old s
    have hserved : slotsServed s = true ↔ s.dev.state ≠ .safeHalt := by simp [slotsServed]
    unfold slotsOnSection
    by_cases hh : s.dev.state = .safeHalt
    · rw [if_pos hh, if_neg (mt hserved.1 (not_not.2 hh))]
    · rw [if_neg hh, if_pos (hserved.2 hh), inOrder_map_foldl]

/-! ## Link loss at a slot (R141) -/

/-- What the loss of its link leaves of the permit of slot `x`, in record `z` (R141). -/
def Slot.permitLost (x z : Slot) : Slot :=
  { z with
    permit := (match x.permit with
      | .taking => .heldThere
      | .giving => .fault
      | .heldHere => .heldHere
      | .heldThere => .heldThere
      | .fault => .fault
      | .unknown => .unknown)
    transfer := if x.permit = .taking ∨ x.permit = .giving then ⟨.stopped, 0⟩ else z.transfer
    refusing := if x.permit = .heldHere then false else z.refusing }

/-- What it leaves of the outbound state (R141). -/
def Slot.outboundLost (x z : Slot) : Slot :=
  { z with
    outb := if x.outb = .transit then .transit else .none
    accept := if x.outb = .offered ∨ x.outb = .accepted ∨ x.outb = .withdrawing then ⟨.stopped, 0⟩ else z.accept }

/-- What it leaves of the inbound state (R141). -/
def Slot.inboundLost (x z : Slot) : Slot :=
  { z with
    inb := (match x.inb with
      | .accepted => .acceptedIsolated
      | .declining => .none
      | .receiving => .receiving
      | .acceptedIsolated => .acceptedIsolated
      | .none => .none)
    transitSeen := if x.inb = .declining then false else z.transitSeen
    transitEnded := if x.inb = .declining then false else z.transitEnded }

section LinkLoss
variable {u : State} {x z : Slot} (hz : u.slot? x.ref = some z)
include hz

theorem losePermit_slot (hp : z.permit = x.permit) (hr : z.refusing = x.refusing) :
    (losePermit x u).slot? x.ref = some (x.permitLost z) := by
  have hkeep (h : x.permitLost z = z) : u.slot? x.ref = some (x.permitLost z) := by rw [h, hz]
  have hset {q : Permit} {f : Slot → Slot} (hf : ∀ y, (f y).ref = y.ref) (h : { f z with permit := q } = x.permitLost z) :
      (setPermit x.ref q .linkLoss f u).slot? x.ref = some (x.permitLost z) :=
    (slot?_changed _ (fun y => { f y with permit := q }) hf hz).trans (congrArg some h)
  rcases z with ⟨_, _, _, _, _, zp, _, zr, _, _⟩
  dsimp only at hp hr
  unfold losePermit
  cases h : x.permit with
  | taking => exact hset (fun _ => rfl) (by unfold Slot.permitLost; rw [h]; rfl)
  | giving => exact hset (fun _ => rfl) (by unfold Slot.permitLost; rw [h]; rfl)
  | heldHere =>
    dsimp only
    cases hf : x.refusing with
    | true => exact hset (fun _ => rfl) (by unfold Slot.permitLost; rw [h]; rfl)
    | false => exact hkeep (by unfold Slot.permitLost; rw [h, hp, h, hr, hf]; rfl)
  | heldThere => exact hkeep (by unfold Slot.permitLost; rw [h, hp, h]; rfl)
  | fault => exact hkeep (by unfold Slot.permitLost; rw [h, hp, h]; rfl)
  | unknown => exact hkeep (by unfold Slot.permitLost; rw [h, hp, h]; rfl)

theorem loseOutbound_slot (ho : z.outb = x.outb) : (loseOutbound x u).slot? x.ref = some (x.outboundLost z) := by
  have hkeep (h : x.outboundLost z = z) : u.slot? x.ref = some (x.outboundLost z) := by rw [h, hz]
  have hset (h : { z with accept := .off, outb := .none } = x.outboundLost z) :
      (setOutbound x.ref .none .linkLoss (fun y => { y with accept := .off }) u).slot? x.ref = some (x.outboundLost z) :=
    (setOutbound_slot hz .none .linkLoss (f := fun y => { y with accept := .off }) fun _ => rfl).trans (congrArg some h)
  rcases z with ⟨_, _, _, _, _, _, _, _, _, zo, _⟩
  dsimp only at ho
  unfold loseOutbound
  cases h : x.outb with
  | offered | accepted | withdrawing => exact hset (by unfold Slot.outboundLost; rw [h]; rfl)
  | transit | none => exact hkeep (by unfold Slot.outboundLost; rw [h, ho, h]; rfl)

theorem loseInbound_slot (hi : z.inb = x.inb) : (loseInbound x u).slot? x.ref = some (x.inboundLost z) := by
  have hkeep (h : x.inboundLost z = z) : u.slot? x.ref = some (x.inboundLost z) := by rw [h, hz]
  rcases z with ⟨_, _, _, _, _, _, _, _, _, _, _, zi, _⟩
  dsimp only at hi
  unfold loseInbound
  cases h : x.inb with
  | accepted =>
    exact (slot?_changed _ (fun y => { y with inb := .acceptedIsolated }) (fun _ => rfl) hz).trans
      (congrArg some (by unfold Slot.inboundLost; rw [h]; rfl))
  | declining =>
    exact (slot?_changed _ (fun y => { y with inb := .none, transitSeen := false, transitEnded := false }) (fun _ => rfl) hz).trans
      (congrArg some (by unfold Slot.inboundLost; rw [h]; rfl))
  | receiving | acceptedIsolated | none => exact hkeep (by unfold Slot.inboundLost; rw [h, hi, h]; rfl)

end LinkLoss

/-- The loss of its link leaves the sections, and of the slot what the table says (R141). -/
theorem loseSlot_slot {ref : SlotRef} {s : State} {x : Slot} (hx : s.slot? ref = some x) :
    (loseSlot ref s).slot? ref =
      some (x.inboundLost (x.outboundLost (x.permitLost { x with reconciled := false, recon := ⟨.stopped, 0⟩ }))) := by
  obtain rfl := slot?_ref hx
  have hu := slot?_mapped (fun y => { y with reconciled := false, recon := ⟨.stopped, 0⟩ }) (fun _ => rfl) hx
  unfold loseSlot
  rw [hx]
  exact loseInbound_slot (loseOutbound_slot (losePermit_slot hu rfl rfl) rfl) rfl

theorem loseSlot_sections (ref : SlotRef) (s : State) : (loseSlot ref s).sections = s.sections := by
  unfold loseSlot
  cases s.slot? ref with
  | none => rfl
  | some x =>
    have h1 (u : State) : (losePermit x u).sections = u.sections := by
      unfold losePermit
      cases x.permit with
      | heldHere => dsimp only; split <;> rfl
      | taking | giving | heldThere | fault | unknown => rfl
    have h2 (u : State) : (loseOutbound x u).sections = u.sections := by
      unfold loseOutbound
      cases x.outb with
      | offered | accepted | withdrawing =>
        exact permOn_keep State.sections (fun _ _ => rfl) (fun _ _ => rfl) (fun _ _ => rfl) _ _
      | transit | none => rfl
    have h3 (u : State) : (loseInbound x u).sections = u.sections := by
      unfold loseInbound
      cases x.inb <;> rfl
    exact (h3 _).trans ((h2 _).trans (h1 _))

/-! ## The outbound side (R143 to R145) -/

theorem mayOffer_iff {s : State} {x : Slot} : mayOffer s x = true ↔
    x.outb = .none ∧ (∃ a ∈ s.routes, a.state = .locked ∧ a.exitSlot = some x.ref) ∧ x.permit = .heldHere
      ∧ (∃ y, s.link? x.ref.link = some y ∧ y.state = .up) ∧ x.reconciled = true ∧ x.block = false
      ∧ (x.cap = .out ∨ x.cap = .both) ∧ s.dev.state = .inService := by
  unfold mayOffer
  simp only [Bool.and_eq_true, linkUp_iff, List.any_eq_true, beq_iff_eq, Bool.not_eq_true', canSend, Bool.or_eq_true, and_assoc]

section OutboundSide
variable {ref : SlotRef} {s : State} {x : Slot} (hx : s.slot? ref = some x)
include hx

theorem tryOffer_eq : tryOffer ref s = if mayOffer s x then
    setOutbound ref .offered .none (fun y => { y with accept := Timer.start (param 12 s) }) s else s := by
  unfold tryOffer
  rw [hx]

theorem reportReceived_eq : reportReceived ref s = if x.outb = .transit ∧ x.receivedReported = false then
      (match s.routes.find? (fun a => a.exitSlot == some ref && hasEntered a && !a.transitLost) with
        | some a => testCleared a.id ((s.mapSlot ref (fun y => { y with receivedReported := true })).mapRoute a.id
            (fun y => { y with received := true }))
        | none => s.mapSlot ref (fun y => { y with receivedReported := true }))
      else s := by
  have hroutes : (s.mapSlot ref (fun y => { y with receivedReported := true })).routes = s.routes := rfl
  unfold reportReceived
  rw [hx]
  dsimp only
  rw [hroutes]
  refine ite_congr rfl (fun _ => ?_) fun _ => rfl
  cases s.routes.find? (fun a => a.exitSlot == some ref && hasEntered a && !a.transitLost) <;> rfl

theorem testTransit_eq : testTransit ref s =
    if (slotsServed s && secStatusIs s x.bsec .occupied && x.permit == .heldHere
        && (x.outb == .none || x.outb == .offered || x.outb == .accepted)
        && s.routes.any (fun a => a.exitSlot == some ref && hasEntered a)) = true then
      (if peerReceived x then reportReceived ref (setOutbound ref .transit (if x.outb = .accepted then .accepted else .unaccepted)
          (fun y => { y with transit := Timer.start (param 16 s) }) s)
        else setOutbound ref .transit (if x.outb = .accepted then .accepted else .unaccepted)
          (fun y => { y with transit := Timer.start (param 16 s) }) s)
    else s := by
  unfold testTransit
  rw [hx]

end OutboundSide

theorem peerReceived_iff {x : Slot} : peerReceived x = true ↔ x.peer.map (·.inb) = some .received := by
  unfold peerReceived
  cases x.peer <;> simp

/-- The conditions of the entry to TRANSIT (R144). -/
theorem enters_iff {s : State} {x : Slot} {ref : SlotRef} :
    (slotsServed s && secStatusIs s x.bsec .occupied && x.permit == .heldHere
        && (x.outb == .none || x.outb == .offered || x.outb == .accepted)
        && s.routes.any (fun a => a.exitSlot == some ref && hasEntered a)) = true ↔
      s.dev.state ≠ .safeHalt ∧ secStatusIs s x.bsec .occupied = true ∧ x.permit = .heldHere
        ∧ (x.outb = .none ∨ x.outb = .offered ∨ x.outb = .accepted)
        ∧ ∃ a ∈ s.routes, a.exitSlot = some ref ∧ hasEntered a = true := by
  simp only [slotsServed, Bool.and_eq_true, bne_iff_ne, beq_iff_eq, Bool.or_eq_true, List.any_eq_true, and_assoc, or_assoc]

/-- Settles O48, with the loss at a slot stage by stage. -/
theorem linkLossTable : Obligations.LinkLossTable := by
  unfold Obligations.LinkLossTable
  refine ⟨?_, ?_⟩
  · intro ref s x hx sets stops unreconciled permit outbound
    have hslot := loseSlot_slot hx
    have hloss : loseSlot ref s = loseInbound x (loseOutbound x (losePermit x unreconciled)) := by
      unfold loseSlot
      rw [hx] <;> rfl
    obtain rfl := slot?_ref hx
    have hpermit : losePermit x unreconciled = permit := by
      unfold losePermit permit
      cases x.permit <;> rfl
    have houtbound : loseOutbound x permit = outbound := by
      unfold loseOutbound outbound
      cases x.outb <;> rfl
    refine ⟨?_, loseSlot_sections _ _, (reacts_closed s).loseSlot _ (.refl s), _, hslot, rfl, rfl, rfl, rfl, rfl, rfl, rfl, rfl, rfl⟩
    rw [hloss, hpermit, houtbound]
    unfold loseInbound
    cases x.inb <;> rfl
  · intro ref s x hx goes unasked ended offers
    obtain rfl := slot?_ref hx
    refine ⟨fun h => ?_, fun h => ?_, fun prev i => ?_, reportReceived_eq hx, ⟨fun h => ?_, fun h => ?_⟩, fun cause => ?_, ?_⟩
    · exact (tryOffer_eq hx).trans (if_pos (mayOffer_iff.2 h))
    · exact (tryOffer_eq hx).trans (if_neg (mt mayOffer_iff.1 h))
    · unfold outboundStep
      cases x.outb with
      | offered => cases i <;> rfl
      | accepted => cases i <;> rfl
      | transit | withdrawing | none => rfl
    · refine (testTransit_eq hx).trans ((if_pos (enters_iff.2 h)).trans ?_)
      exact if_congr peerReceived_iff rfl rfl
    · exact (testTransit_eq hx).trans (if_neg (mt enters_iff.1 h))
    · have hserved : slotsServed s = true ↔ s.dev.state ≠ .safeHalt := by simp [slotsServed]
      unfold slotRouteGone
      by_cases hh : s.dev.state = .safeHalt
      · rw [if_pos hh, if_neg (mt hserved.1 (not_not.2 hh))]
      · rw [if_neg hh, if_pos (hserved.2 hh), hx]
        dsimp only
        cases x.outb <;> rfl
    · unfold endOutbound
      rw [hx]
      dsimp only
      cases x.outb <;> rfl

end Sys2Proof.Machine

/-!
PROOFS. Parameters, acceptance, HEALTH, device time and DRST. O49, O50, O54, O55.
-/

namespace Sys2Proof.Machine

/-! ## O49: parameters -/

theorem clampTo_eq {lo hi : Nat} (h : lo ≤ hi) (v : Nat) :
    clampTo (lo, hi) v = if v < lo then lo else if hi < v then hi else v := by
  unfold clampTo
  dsimp only
  split
  · omega
  · split <;> omega

theorem paramRanges_ordered : ∀ r ∈ Config.paramRanges, r.1 ≤ r.2 := by decide

/-- The parameters that an apply changes, position by position (R169). -/
theorem countP_changed {α : Type} [DecidableEq α] (xs ys : List α) (h : xs.length = ys.length) :
    ((xs.zip ys).filter (fun p => p.1 != p.2)).length =
      (List.range xs.length).countP (fun i => Decidable.decide (xs[i]? ≠ ys[i]?)) := by
  induction xs generalizing ys with
  | nil => rfl
  | cons x xs ih =>
    cases ys with
    | nil => cases h
    | cons y ys =>
      have ih := ih ys (Nat.succ.inj h)
      rw [List.zip_cons_cons, List.filter_cons, List.length_cons, List.range_succ_eq_map, List.countP_cons, List.countP_map]
      have htail : (List.range xs.length).countP ((fun i => Decidable.decide ((x :: xs)[i]? ≠ (y :: ys)[i]?)) ∘ Nat.succ) =
          (List.range xs.length).countP (fun i => Decidable.decide (xs[i]? ≠ ys[i]?)) :=
        congrArg (fun p => (List.range xs.length).countP p) (funext fun i => by simp)
      rw [htail, ← ih]
      by_cases hxy : x = y <;> simp [hxy]

/-- Settles O49. -/
theorem parametersWrittenAndApplied : Obligations.ParametersWrittenAndApplied := by
  unfold Obligations.ParametersWrittenAndApplied
  refine ⟨?_, ?_⟩
  · intro ch tag id v s c f hf
    have hd : decide f.ch f.kind f.body (s.paired f) =
        decideSetParameter id.toNat (num2 (BitVec.ofNat 8 (v.toNat / 256)) (BitVec.ofNat 8 v.toNat)) (s.paired f) := rfl
    rw [num2_b2_eq] at hd
    unfold decideSetParameter at hd
    by_cases hid : id.toNat = 0 ∨ 16 < id.toNat
    · rw [if_pos hid]
      rcases hid with h0 | h16
      · exact refuses_of rfl hf (hd.trans (if_pos h0))
      · have hr : Config.paramRanges[id.toNat - 1]? = none := List.getElem?_eq_none (by
          have : Config.paramRanges.length = 16 := rfl
          omega)
        rw [hr] at hd
        exact refuses_of rfl hf (hd.trans (if_neg (by omega)))
    · rw [if_neg hid]
      obtain ⟨h0, h16⟩ := not_or.1 hid
      have hlt : id.toNat - 1 < Config.paramRanges.length := by
        have : Config.paramRanges.length = 16 := rfl
        omega
      obtain ⟨⟨lo, hi⟩, hr⟩ : ∃ r, Config.paramRanges[id.toNat - 1]? = some r := ⟨_, List.getElem?_eq_getElem hlt⟩
      rw [hr] at hd
      have hd := hd.trans (if_neg h0)
      have hle : lo ≤ hi := paramRanges_ordered _ (List.mem_of_getElem? hr)
      refine ⟨lo, hi, hr, ?_⟩
      intro n
      have hn : clampTo (lo, hi) v.toNat = n := clampTo_eq hle v.toNat
      dsimp only at hd
      rw [hn] at hd
      exact concurs_of rfl hf hd rfl
  · intro ch tag s f hf hlen
    have hd : decide f.ch f.kind f.body (s.paired f) = { out := .done, detail := 0, act := applyParams } := rfl
    refine concurs_of rfl hf hd ?_
    have hdev : (emit (.requestDone f.tag f.kind .done 0) (s.paired f)).dev = s.dev := State.paired_dev s f
    show applyParams _ = _
    unfold applyParams changedParams
    rw [hdev, countP_changed _ _ hlen]

/-! ## O50: ACCEPT CONFIGURATION -/

theorem num4_b4_eq (w : Word) : num4 (BitVec.ofNat 8 (w.toNat / 16777216)) (BitVec.ofNat 8 (w.toNat / 65536))
    (BitVec.ofNat 8 (w.toNat / 256)) (BitVec.ofNat 8 w.toNat) = w.toNat := by
  have := w.isLt
  simp only [num4, BitVec.toNat_ofNat]
  omega

theorem enterService_spec (u : State) :
    let t := emit (.deviceState .inService .accepted none) { u with dev := { u.dev with state := .inService } }
    Reacts t (enterService u) ∧ InSomeOrder [permOn .device, retestAll] t (enterService u) := by
  intro t
  refine ⟨(reacts_closed t).inAnyOrder (fun f hf => ?_) (.refl t), inAnyOrder_inSomeOrder _ _⟩
  rcases List.mem_cons.1 hf with rfl | hf
  · exact fun _ => (reacts_closed t).permOn _
  · rw [List.mem_singleton.1 hf]
    exact fun _ => (reacts_closed t).retestAll

/-- Settles O50. -/
theorem configurationIsAccepted : Obligations.ConfigurationIsAccepted := by
  unfold Obligations.ConfigurationIsAccepted
  intro ch tag digest s c f hf
  have hd : decide f.ch f.kind f.body (s.paired f) = decideAccept (num4 (BitVec.ofNat 8 (digest.toNat / 16777216))
      (BitVec.ofNat 8 (digest.toNat / 65536)) (BitVec.ofNat 8 (digest.toNat / 256)) (BitVec.ofNat 8 digest.toNat))
      (s.paired f) := rfl
  rw [num4_b4_eq] at hd
  unfold decideAccept at hd
  rw [State.paired_dev] at hd
  refine refuses_line rfl hf hd fun _ hd => ?_
  by_cases hc : imageCrc s.dev.copy = digest
  · rw [if_pos hc]
    exact concurs_of rfl hf (hd.trans (if_pos (congrArg BitVec.toNat hc))) (enterService_spec _)
  · rw [if_neg hc]
    exact refuses_of rfl hf (hd.trans (if_neg fun h => hc (BitVec.eq_of_toNat_eq h)))

/-! ## O54: HEALTH and device time -/

/-- Settles O54. -/
theorem clockAndHealth : Obligations.ClockAndHealth := by
  unfold Obligations.ClockAndHealth
  intro s
  refine ⟨rfl, fun h => congrArg Host.Outcome.next (if_pos h), fun h => ⟨tick s, rfl, ?_⟩⟩
  intro ds ms chan
  exact if_neg (by rw [h]; decide)

/-! ## O55: DRST -/

/-- Settles O55. -/
theorem deviceResetLine : Obligations.DeviceResetLine := by
  unfold Obligations.DeviceResetLine
  intro s
  refine ⟨⟨assertDrst s, rfl, rfl, rfl, rfl, rfl, rfl, rfl, rfl, rfl, rfl, rfl, rfl, rfl, rfl, rfl, rfl, ?_, rfl, rfl, rfl⟩, rfl⟩
  intro ch
  cases ch <;> exact ⟨rfl, rfl, rfl, rfl, rfl⟩

end Sys2Proof.Machine

/-!
PROOFS. The entry to SAFE_HALT: what every unit keeps on it, what each of them brings about, and the periodic image check
that leads there. O53.
-/

namespace Sys2Proof.Machine

/-! ## What a halt is made of (R167) -/

/-- A change of a slot that keeps what a halt keeps of it. -/
def SlotHalts (f : Slot → Slot) : Prop :=
  ∀ y, ((f y).ref, (f y).block, (f y).peer, (f y).yielded) = (y.ref, y.block, y.peer, y.yielded)

/-- A change of a link that keeps its configuration and its halt, once it is halted. -/
def LinkHalts (f : Link → Link) : Prop :=
  ∀ y, (f y).id = y.id ∧ (f y).conf = y.conf
    ∧ ((f y).state = y.state ∧ (f y).halted = y.halted ∨ (f y).state = .down ∧ (f y).halted = true)

/-- A property of halted states that is closed under every change that the units make on the entry to SAFE_HALT. -/
structure HaltClosed (P : State → Prop) : Prop where
  halted : ∀ s, P s → s.dev.state = .safeHalt
  choice : ∀ s c d, P s → P { s with choices := c, drawn := d }
  emit : ∀ s e, P s → P (emit e s)
  table : ∀ s, P s → P { s with table := [] }
  withdraw : ∀ s, P s → P (withdrawAll s)
  freeze : ∀ s, P s → P (freezeRoutes s)
  slots : ∀ s f, SlotHalts f → P s → P { s with slots := s.slots.map f }
  links : ∀ s l f, LinkHalts f → P s → P (s.mapLink l f)

section HaltParts
variable {P : State → Prop} (h : HaltClosed P)
include h

theorem HaltClosed.mapSlot {s : State} {ref : SlotRef} {f : Slot → Slot} (hf : SlotHalts f) (hs : P s) : P (s.mapSlot ref f) :=
  h.slots s _ (fun y => by split <;> [exact hf y; rfl]) hs

theorem HaltClosed.withdrawTable {s : State} (hs : P s) : P (withdrawTable s) :=
  h.table _ (foldl_ind (P := P) (fun t e ht => h.emit t e ht) _ hs)

theorem HaltClosed.permOn {s : State} (c : Concern) (hs : P s) : P (permOn c s) := by
  unfold Machine.permOn
  rw [if_pos (h.halted s hs)]
  exact h.withdraw s hs

theorem HaltClosed.setPermit {s : State} {ref : SlotRef} {p : Permit} {c : PermitCause} {f : Slot → Slot} (hf : SlotHalts f)
    (hs : P s) : P (setPermit ref p c f s) := h.emit _ _ (h.mapSlot hf hs)

theorem HaltClosed.setOutbound {s : State} {ref : SlotRef} {o : Outbound} {c : SlotCause} {f : Slot → Slot} (hf : SlotHalts f)
    (hs : P s) : P (setOutbound ref o c f s) := h.permOn _ (h.emit _ _ (h.mapSlot hf hs))

theorem HaltClosed.losePermit {s : State} (x : Slot) (hs : P s) : P (losePermit x s) := by
  unfold Machine.losePermit
  cases x.permit with
  | taking | giving => exact h.setPermit (fun _ => rfl) hs
  | heldHere => dsimp only; split <;> [exact h.setPermit (fun _ => rfl) hs; exact hs]
  | heldThere | fault | unknown => exact hs

theorem HaltClosed.loseOutbound {s : State} (x : Slot) (hs : P s) : P (loseOutbound x s) := by
  unfold Machine.loseOutbound
  cases x.outb with
  | offered | accepted | withdrawing => exact h.setOutbound (fun _ => rfl) hs
  | transit | none => exact hs

theorem HaltClosed.loseInbound {s : State} (x : Slot) (hs : P s) : P (loseInbound x s) := by
  unfold Machine.loseInbound
  cases x.inb with
  | accepted | declining => exact h.emit _ _ (h.mapSlot (fun _ => rfl) hs)
  | receiving | acceptedIsolated | none => exact hs

theorem HaltClosed.loseSlot {s : State} (ref : SlotRef) (hs : P s) : P (loseSlot ref s) := by
  unfold Machine.loseSlot
  cases s.slot? ref with
  | none => exact hs
  | some x => exact h.loseInbound _ (h.loseOutbound _ (h.losePermit _ (h.mapSlot (fun _ => rfl) hs)))

theorem HaltClosed.lossTaken {s : State} (x : Link) (hs : P s) : P (s.lossTaken x) := by
  unfold State.lossTaken
  split
  · exact foldl_ind (P := P) (fun t i ht => h.loseSlot _ ht) _ hs
  · exact hs

theorem HaltClosed.haltLink {s : State} (l : Nat) (hs : P s) : P (haltLink l s) := by
  unfold Machine.haltLink
  cases hx : s.link? l with
  | none => exact hs
  | some x =>
    have hid := link?_id hx
    subst hid
    dsimp -zeta only
    split
    · dsimp only
      rw [handLink_lossTaken]
      refine h.lossTaken _ (h.emit _ _ (h.links _ _ _ (fun y => ⟨rfl, rfl, .inr ⟨rfl, rfl⟩⟩) ?_))
      split
      · exact h.emit _ _ (h.links _ _ _ (fun y => ⟨rfl, rfl, .inl ⟨rfl, rfl⟩⟩) hs)
      · exact hs
    · exact hs

theorem HaltClosed.haltLinks {s : State} (hs : P s) : P (haltLinks s) :=
  h.slots _ _ (fun _ => rfl) (inAnyOrder_ind h.choice (forall_map fun l _ => h.haltLink l) hs)

/-- Every unit keeps the property on the halt. -/
theorem HaltClosed.units : ∀ f ∈ [Machine.withdrawTable, Machine.withdrawAll, freezeRoutes, Machine.haltLinks],
    ∀ s, P s → P (f s) := by
  simp only [List.forall_mem_cons]
  exact ⟨fun _ => h.withdrawTable, h.withdraw, h.freeze, fun _ => h.haltLinks, by simp⟩

end HaltParts

/-! ## What a halt keeps -/

/-- What the entry to SAFE_HALT leaves as it is. -/
structure HaltFrame (s t : State) : Prop where
  dev : t.dev = s.dev
  (sections : t.sections = s.sections)
  points : t.points = s.points
  signals : t.signals.map (fun x => { x with perm := none, watch := .off }) =
    s.signals.map (fun x => { x with perm := none, watch := .off })
  store : t.store = s.store
  speeds : t.speeds = s.speeds
  disagreements : t.disagreements = s.disagreements
  tx : t.tx = s.tx
  chans : ∀ ch, t.chan ch = s.chan ch ∧ t.port ch = s.port ch
  slots : t.slots.map (fun x => (x.ref, x.block, x.peer, x.yielded)) = s.slots.map (fun x => (x.ref, x.block, x.peer, x.yielded))
  links : t.links.map (·.id) = s.links.map (·.id)
  queue : ∀ ch, (s.queue ch).records <+: (t.queue ch).records

theorem HaltFrame.refl (s : State) : HaltFrame s s :=
  ⟨rfl, rfl, rfl, rfl, rfl, rfl, rfl, rfl, fun _ => ⟨rfl, rfl⟩, rfl, rfl, fun _ => List.prefix_rfl⟩

theorem HaltFrame.emit {s t : State} (h : HaltFrame s t) (e : Event) : HaltFrame s (emit e t) :=
  ⟨h.dev, h.sections, h.points, h.signals, h.store, h.speeds, h.disagreements, h.tx, fun ch => ⟨(emit_chan e t ch).trans (h.chans ch).1,
    Eq.trans (by cases ch <;> rfl) (h.chans ch).2⟩, h.slots, h.links, fun ch => (h.queue ch).trans (emit_queue_prefix ch e t)⟩

theorem HaltFrame.withdraw {s t : State} (h : HaltFrame s t) (a : ActiveRoute) (c : PermCause) : HaltFrame s (withdraw a c t) := by
  refine HaltFrame.emit (t := (Machine.emit _ (setPerm _ none t)).mapRoute a.id _) ?_ _
  have hp : HaltFrame s (setPerm (t.defOf a.id).entry none t) :=
    { h with signals := Eq.trans (by
        unfold setPerm State.mapSignal
        dsimp only
        rw [List.map_map]
        refine List.map_congr_left fun x _ => ?_
        dsimp only [Function.comp_apply]
        split <;> rfl) h.signals }
  exact { hp.emit _ with }

theorem HaltFrame.withdrawAll {s t : State} (h : HaltFrame s t) : HaltFrame s (withdrawAll t) := by
  unfold Machine.withdrawAll
  exact inOrder_ind (P := HaltFrame s) (forall_map fun a _ ht => ht.withdraw a _) h

theorem haltFrame_closed {s : State} (hs : s.dev.state = .safeHalt) : HaltClosed (HaltFrame s) where
  halted t h := h.dev ▸ hs
  choice t c d h := { h with }
  emit t e h := h.emit e
  table t h := { h with }
  withdraw t h := h.withdrawAll
  freeze t h := { h with }
  slots t f hf h := { h with slots := Eq.trans (by
    dsimp only
    rw [List.map_map]
    exact List.map_congr_left fun x _ => hf x) h.slots }
  links t l f hf h := { h with links := Eq.trans (by
    unfold State.mapLink
    dsimp only
    rw [List.map_map]
    refine List.map_congr_left fun x _ => ?_
    dsimp only [Function.comp_apply]
    split <;> [exact (hf x).1; rfl]) h.links }

/-! ## What each unit brings about -/

/-- A route after its permission is withdrawn, where it had one (R99). -/
def ActiveRoute.unpermitted (a : ActiveRoute) : ActiveRoute :=
  if a.state = .permitted then { a with state := .locked, grantAllowed := false } else a

/-- A route with its timers stopped where they stand (R73). -/
def ActiveRoute.frozen (a : ActiveRoute) : ActiveRoute :=
  { a with setting := a.setting.freeze, overlapTimer := a.overlapTimer.freeze, release := a.release.freeze }

/-- A slot with its timers stopped where they stand (R141). -/
def Slot.frozen (x : Slot) : Slot :=
  { x with transfer := x.transfer.freeze, recon := x.recon.freeze, accept := x.accept.freeze, transit := x.transit.freeze
           reserve := x.reserve.freeze }

theorem Timer.freeze_freeze (t : Timer) : t.freeze.freeze = t.freeze := by
  unfold Timer.freeze
  split <;> simp_all

theorem ActiveRoute.frozen_frozen (a : ActiveRoute) : a.frozen.frozen = a.frozen := by
  simp only [ActiveRoute.frozen, Timer.freeze_freeze]

theorem Slot.frozen_frozen (x : Slot) : x.frozen.frozen = x.frozen := by
  simp only [Slot.frozen, Timer.freeze_freeze]

theorem ActiveRoute.unpermitted_of_ne {a : ActiveRoute} (h : a.state ≠ .permitted) : a.unpermitted = a := if_neg h

theorem ActiveRoute.unpermitted_state (a : ActiveRoute) : a.unpermitted.state ≠ .permitted := by
  unfold ActiveRoute.unpermitted
  split <;> simp_all

theorem ActiveRoute.frozen_unpermitted (a : ActiveRoute) : a.unpermitted.frozen = a.frozen.unpermitted := by
  by_cases h : a.state = .permitted
  · rw [show a.unpermitted = _ from if_pos h, show a.frozen.unpermitted = _ from if_pos h]
    rfl
  · rw [show a.unpermitted = a from if_neg h, show a.frozen.unpermitted = a.frozen from if_neg h]

theorem withdraw_routes (a : ActiveRoute) (c : PermCause) (s : State) : (withdraw a c s).routes =
    s.routes.map (fun b => if b.id = a.id then { b with state := .locked, grantAllowed := false } else b) := rfl

/-- The routes after a list of withdrawals. -/
theorem withdrawn_routes (c : PermCause) (as : List ActiveRoute) (s : State) : (inOrder (as.map (withdraw · c)) s).routes =
    s.routes.map (fun b => if b.id ∈ as.map (·.id) then { b with state := .locked, grantAllowed := false } else b) := by
  induction as generalizing s with
  | nil => simp
  | cons a as ih =>
    rw [List.map_cons, inOrder_cons, ih, withdraw_routes, List.map_map]
    refine List.map_congr_left fun b _ => ?_
    by_cases ha : b.id = a.id <;> by_cases hm : b.id ∈ as.map (·.id) <;> simp_all

theorem withdrawAll_routes_eq {s : State} (hn : (s.routes.map (·.id)).Nodup) :
    (withdrawAll s).routes = s.routes.map ActiveRoute.unpermitted := by
  refine (withdrawn_routes .deviceState _ s).trans (List.map_congr_left fun b hb => if_congr ?_ rfl rfl)
  simp only [List.mem_map, List.mem_filter, beq_iff_eq]
  constructor
  · rintro ⟨a, ⟨ha, hp⟩, he⟩
    rwa [← List.inj_on_of_nodup_map hn ha hb he]
  · exact fun hp => ⟨b, ⟨hb, hp⟩, rfl⟩

/-- No route is in PERMITTED after the withdrawal of every permission (R99). -/
theorem withdrawAll_locks (s : State) : ∀ a ∈ (withdrawAll s).routes, a.state ≠ .permitted := by
  intro a ha
  rw [show (withdrawAll s).routes = _ from withdrawn_routes .deviceState _ s] at ha
  obtain ⟨b, hb, rfl⟩ := List.mem_map.1 ha
  split
  · simp
  · next hm =>
    exact fun hp => hm (List.mem_map.2 ⟨b, List.mem_filter.2 ⟨hb, beq_iff_eq.2 hp⟩, rfl⟩)

theorem unpermitted_closed : HaltClosed (fun t => t.dev.state = .safeHalt ∧ ∀ a ∈ t.routes, a.state ≠ .permitted) where
  halted _ h := h.1
  choice _ _ _ h := h
  emit _ _ h := h
  table _ h := h
  withdraw t h := ⟨(congrArg Device.state ((HaltFrame.refl t).withdrawAll).dev).trans h.1, withdrawAll_locks t⟩
  freeze t h := ⟨h.1, fun a ha => by
    obtain ⟨b, hb, rfl⟩ := List.mem_map.1 ha
    exact h.2 b hb⟩
  slots _ _ _ h := h
  links _ _ _ _ h := h

/-- Up to permission and running timers the routes stay, and their ids stay distinct. -/
def RoutesHalt (s t : State) : Prop :=
  t.dev.state = .safeHalt ∧ (t.routes.map (·.id)).Nodup
    ∧ t.routes.map (fun a => a.frozen.unpermitted) = s.routes.map (fun a => a.frozen.unpermitted)

theorem ActiveRoute.unpermitted_id (a : ActiveRoute) : a.unpermitted.id = a.id := by
  unfold ActiveRoute.unpermitted
  split <;> rfl

theorem routesHalt_closed (s : State) : HaltClosed (RoutesHalt s) where
  halted _ h := h.1
  choice _ _ _ h := h
  emit _ _ h := h
  table _ h := h
  withdraw t h := by
    obtain ⟨hd, hn, hr⟩ := h
    have hi : (fun a : ActiveRoute => a.id) ∘ ActiveRoute.unpermitted = (·.id) := funext ActiveRoute.unpermitted_id
    refine ⟨(congrArg Device.state ((HaltFrame.refl t).withdrawAll).dev).trans hd, ?_, ?_⟩
    · rwa [withdrawAll_routes_eq hn, List.map_map, hi]
    · rw [withdrawAll_routes_eq hn, List.map_map, ← hr]
      refine List.map_congr_left fun a _ => ?_
      dsimp only [Function.comp_apply]
      rw [ActiveRoute.frozen_unpermitted]
      exact ActiveRoute.unpermitted_of_ne (ActiveRoute.unpermitted_state _)
  freeze t h := by
    obtain ⟨hd, hn, hr⟩ := h
    refine ⟨hd, ?_, Eq.trans ?_ hr⟩
    · show ((t.routes.map ActiveRoute.frozen).map (·.id)).Nodup
      rwa [List.map_map]
    · show (t.routes.map ActiveRoute.frozen).map _ = _
      rw [List.map_map]
      exact List.map_congr_left fun a _ => congrArg ActiveRoute.unpermitted a.frozen_frozen
  slots _ _ _ h := h
  links _ _ _ _ h := h

theorem routesFrozen_closed : HaltClosed (fun t => t.dev.state = .safeHalt ∧ ∀ a ∈ t.routes, a.frozen = a) where
  halted _ h := h.1
  choice _ _ _ h := h
  emit _ _ h := h
  table _ h := h
  withdraw t h := ⟨(congrArg Device.state ((HaltFrame.refl t).withdrawAll).dev).trans h.1, fun a ha => by
    rw [show (withdrawAll t).routes = _ from withdrawn_routes .deviceState _ t] at ha
    obtain ⟨b, hb, rfl⟩ := List.mem_map.1 ha
    have hf := h.2 b hb
    split
    · exact congrArg (fun x : ActiveRoute => { x with state := .locked, grantAllowed := false }) hf
    · exact hf⟩
  freeze t h := ⟨h.1, fun a ha => by
    obtain ⟨b, -, rfl⟩ := List.mem_map.1 ha
    exact b.frozen_frozen⟩
  slots _ _ _ h := h
  links _ _ _ _ h := h

/-- A route that had permission still has it, or its entry signal has lost it. -/
def PermHalts (s : State) (a : ActiveRoute) (t : State) : Prop :=
  t.dev.state = .safeHalt ∧ t.store = s.store
    ∧ ((∃ b ∈ t.routes, b.id = a.id ∧ b.state = .permitted)
      ∨ ∀ x, t.signal? (s.defOf a.id).entry = some x → x.perm = none)

theorem setPerm_none_lost (g : Nat) (s : State) : ∀ x, (setPerm g none s).signal? g = some x → x.perm = none := by
  intro x hx
  cases hg : s.signal? g with
  | none =>
    have hn : (setPerm g none s).signal? g = none := by
      show ((s.signals.map _).find? _) = none
      rw [List.find?_eq_none]
      intro y hy
      obtain ⟨z, hz, rfl⟩ := List.mem_map.1 hy
      have hne := List.find?_eq_none.1 hg z hz
      split <;> exact hne
    rw [hn] at hx
    cases hx
  | some y =>
    have hy : (setPerm g none s).signal? g = _ := signal?_mapped (s := s) (fun x => { x with
      perm := none, watch := SignalRec.watchTimer (param 7 s) { x with perm := none } }) (fun _ => rfl) hg
    rw [hy] at hx
    cases hx
    rfl

/-- Permission that a signal has not is not there after another one is withdrawn either. -/
theorem setPerm_none_keeps (g : Nat) {k : Nat} {s : State} (h : ∀ x, s.signal? k = some x → x.perm = none) :
    ∀ x, (setPerm g none s).signal? k = some x → x.perm = none := by
  by_cases he : g = k
  · subst he
    exact setPerm_none_lost g s
  · intro x hx
    refine h x (Eq.trans ?_ hx)
    exact (find?_map_other (fun y : SignalRec => y.id) g k he (fun y => { y with
      perm := none, watch := SignalRec.watchTimer (param 7 s) { y with perm := none } }) (fun _ => rfl) s.signals).symm

theorem permHalts_closed (s : State) (a : ActiveRoute) : HaltClosed (PermHalts s a) where
  halted _ h := h.1
  choice _ _ _ h := h
  emit _ _ h := h
  table _ h := h
  withdraw t h := by
    obtain ⟨hd, hs, hp⟩ := h
    have hf := (HaltFrame.refl t).withdrawAll
    refine ⟨(congrArg Device.state hf.dev).trans hd, hf.store.trans hs, .inr ?_⟩
    have hdef : ∀ u : State, u.store = t.store → u.defOf a.id = s.defOf a.id := fun u hu => by
      have hd : u.def? a.id = s.def? a.id := congrArg (List.find? _) (hu.trans hs)
      unfold State.defOf
      rw [hd]
    have hkeep : ∀ (b : ActiveRoute) (u : State), (∀ x, u.signal? (s.defOf a.id).entry = some x → x.perm = none) →
        ∀ x, (Machine.withdraw b .deviceState u).signal? (s.defOf a.id).entry = some x → x.perm = none :=
      fun b u => setPerm_none_keeps (u.defOf b.id).entry
    unfold withdrawAll
    rcases hp with ⟨b, hb, he, hbp⟩ | hp
    · have hm : b ∈ t.routes.filter (fun b => b.state == .permitted) := List.mem_filter.2 ⟨hb, by simpa using hbp⟩
      refine inOrder_reach (P := fun u => u.store = t.store)
        (Q := fun u => ∀ x, u.signal? (s.defOf a.id).entry = some x → x.perm = none)
        (f := Machine.withdraw b .deviceState)
        (List.mem_map_of_mem (f := (Machine.withdraw · .deviceState)) hm) ?_
        (fun u hu => ?_) ?_ rfl
      · exact forall_map (g := (Machine.withdraw · .deviceState)) fun b _ hu => hu
      · rw [← hdef u hu, ← he]
        exact setPerm_none_lost _ u
      · intro f hf u _
        obtain ⟨b, -, rfl⟩ := List.mem_map.1 hf
        exact hkeep b u
    · exact inOrder_ind (forall_map (g := (Machine.withdraw · .deviceState)) hkeep) hp
  freeze t h := by
    obtain ⟨hd, hs, hp⟩ := h
    refine ⟨hd, hs, hp.imp_left ?_⟩
    rintro ⟨b, hb, he⟩
    exact ⟨b.frozen, List.mem_map_of_mem (f := ActiveRoute.frozen) hb, he⟩
  slots _ _ _ h := h
  links _ _ _ _ h := h

theorem withdrawAll_slots (s : State) : (withdrawAll s).slots = s.slots :=
  inOrder_keep (fun t => t.slots) (by
    intro f hf t
    obtain ⟨a, -, rfl⟩ := List.mem_map.1 hf
    rfl) s

theorem withdrawAll_links (s : State) : (withdrawAll s).links = s.links :=
  inOrder_keep (fun t => t.links) (by
    intro f hf t
    obtain ⟨a, -, rfl⟩ := List.mem_map.1 hf
    rfl) s

theorem withdrawAll_table (s : State) : (withdrawAll s).table = s.table :=
  inOrder_keep (fun t => t.table) (by
    intro f hf t
    obtain ⟨a, -, rfl⟩ := List.mem_map.1 hf
    rfl) s

theorem halted_withdrawAll {s : State} (h : s.dev.state = .safeHalt) : (withdrawAll s).dev.state = .safeHalt :=
  (congrArg Device.state ((HaltFrame.refl s).withdrawAll).dev).trans h

/-- A halted link, if its id is the given one and it is configured. -/
def LinkHalted (l : Nat) (t : State) : Prop :=
  t.dev.state = .safeHalt ∧ ∀ x ∈ t.links, x.id = l → x.conf ≠ none → x.state = .down ∧ x.halted = true

theorem linkHalted_closed (l : Nat) : HaltClosed (LinkHalted l) where
  halted _ h := h.1
  choice _ _ _ h := h
  emit _ _ h := h
  table _ h := h
  withdraw t h := ⟨halted_withdrawAll h.1, withdrawAll_links t ▸ h.2⟩
  freeze _ h := h
  slots _ _ _ h := h
  links t k f hf h := ⟨h.1, fun x hx => by
    obtain ⟨y, hy, rfl⟩ := List.mem_map.1 hx
    split
    · obtain ⟨hid, hconf, hstate⟩ := hf y
      rw [hid, hconf]
      intro hl hc
      obtain ⟨hd, hh⟩ := h.2 y hy hl hc
      rcases hstate with ⟨e1, e2⟩ | hdown
      · exact ⟨e1.trans hd, e2.trans hh⟩
      · exact hdown
    · exact h.2 y hy⟩

theorem link?_of_mem {s : State} (hn : (s.links.map (·.id)).Nodup) {x : Link} (hx : x ∈ s.links) : s.link? x.id = some x := by
  cases hl : s.link? x.id with
  | none => simpa using List.find?_eq_none.1 hl x hx
  | some y => rw [List.inj_on_of_nodup_map hn (List.mem_of_find?_eq_some hl) hx (link?_id hl)]

/-- A link of the device is halted (R134). -/
theorem haltLink_halts {l : Nat} {s : State} (hs : s.dev.state = .safeHalt) (hn : (s.links.map (·.id)).Nodup) :
    LinkHalted l (haltLink l s) := by
  unfold haltLink
  cases hl : s.link? l with
  | none => exact ⟨hs, fun y hy hid => absurd hid (by simpa using List.find?_eq_none.1 hl y hy)⟩
  | some x =>
    have hid := link?_id hl
    dsimp -zeta only
    split
    · dsimp only
      subst hid
      rw [handLink_lossTaken]
      refine (linkHalted_closed x.id).lossTaken _ ⟨?_, fun y hy hyl _ => ?_⟩
      · show (State.dev (ite _ _ _)).state = _
        split <;> exact hs
      · obtain ⟨z, -, rfl⟩ := List.mem_map.1 hy
        split
        · exact ⟨rfl, rfl⟩
        · next hne =>
          rw [if_neg hne] at hyl
          exact absurd hyl hne
    · next hc =>
      refine ⟨hs, fun y hy hyl hyc => ?_⟩
      have he := List.inj_on_of_nodup_map hn hy (List.mem_of_find?_eq_some hl) (hyl.trans hid.symm)
      subst he
      exact absurd (Option.isSome_iff_ne_none.2 hyc) hc

/-- The halt keeps the ids of the links. -/
theorem linkIds_closed (ids : List Nat) : HaltClosed (fun t => t.dev.state = .safeHalt ∧ t.links.map (·.id) = ids) where
  halted _ h := h.1
  choice _ _ _ h := h
  emit _ _ h := h
  table _ h := h
  withdraw t h := ⟨halted_withdrawAll h.1, withdrawAll_links t ▸ h.2⟩
  freeze _ h := h
  slots _ _ _ h := h
  links t l f hf h := ⟨h.1, Eq.trans (by
    unfold State.mapLink
    dsimp only
    rw [List.map_map]
    refine List.map_congr_left fun x _ => ?_
    dsimp only [Function.comp_apply]
    split <;> [exact (hf x).1; rfl]) h.2⟩

/-- Every configured link of the four is halted (R134). -/
theorem haltLinks_halts {s : State} (hs : s.dev.state = .safeHalt) (hids : s.links.map (·.id) = [0, 1, 2, 3])
    {l : Nat} (hl : l ∈ List.range 4) : LinkHalted l (haltLinks s) := by
  have hids' := linkIds_closed [0, 1, 2, 3]
  have hh := linkHalted_closed l
  exact hh.slots _ _ (fun _ => rfl) (inAnyOrder_reach hids'.choice hh.choice (List.mem_map_of_mem hl)
    (forall_map fun k _ => hids'.haltLink k)
    (fun t ht => haltLink_halts ht.1 (by rw [ht.2]; decide))
    (fun f hf t _ => forall_map (fun k _ => hh.haltLink k) f hf t) ⟨hs, hids⟩)

theorem table_closed : HaltClosed (fun t => t.dev.state = .safeHalt ∧ t.table = []) where
  halted _ h := h.1
  choice _ _ _ h := h
  emit _ _ h := h
  table _ h := ⟨h.1, rfl⟩
  withdraw t h := ⟨halted_withdrawAll h.1, (withdrawAll_table t).trans h.2⟩
  freeze _ h := h
  slots _ _ _ h := h
  links _ _ _ _ h := h

theorem freezeSlots_frozen (s : State) : ∀ x ∈ (freezeSlots s).slots, x.frozen = x := by
  intro x hx
  obtain ⟨y, -, rfl⟩ := List.mem_map.1 hx
  exact y.frozen_frozen

/-- The slots stay frozen where they are, once they are frozen. -/
theorem haltUnit_slotsFrozen : ∀ f ∈ [withdrawTable, withdrawAll, freezeRoutes, haltLinks],
    ∀ s, (∀ x ∈ s.slots, x.frozen = x) → ∀ x ∈ (f s).slots, x.frozen = x := by
  simp only [List.forall_mem_cons]
  refine ⟨fun s h => ?_, fun s h => ?_, fun s h => h, fun s _ => freezeSlots_frozen _, by simp⟩
  · rwa [show (withdrawTable s).slots = s.slots from emitAll_keep (fun t => t.slots) (fun _ _ => rfl) _ s]
  · rwa [withdrawAll_slots]

/-! ## The whole halt -/

/-- The four units on the halt, which act in some order (R167). -/
def haltUnits : List (State → State) := [withdrawTable, withdrawAll, freezeRoutes, haltLinks]

section WholeHalt
variable {h : State} (hs : h.dev.state = .safeHalt)
include hs

theorem halt_frame : HaltFrame h (inAnyOrder haltUnits h) :=
  inAnyOrder_ind (haltFrame_closed hs).choice (haltFrame_closed hs).units (.refl h)

/-- What one unit brings about and every unit keeps holds after the halt. -/
theorem halt_reaches {Q : State → Prop} (hQ : HaltClosed Q) {f : State → State} (hf : f ∈ haltUnits)
    (hq : ∀ t, t.dev.state = .safeHalt → Q (f t)) : Q (inAnyOrder haltUnits h) :=
  have hd := haltFrame_closed hs
  inAnyOrder_reach hd.choice hQ.choice hf hd.units (fun t ht => hq t ((congrArg Device.state ht.dev).trans hs))
    (fun f hf t _ => hQ.units f hf t) (.refl h)

theorem halt_table : (inAnyOrder haltUnits h).table = [] :=
  (halt_reaches hs table_closed (f := withdrawTable) (by simp [haltUnits]) fun _ ht =>
    ⟨Eq.trans (congrArg Device.state (emitAll_keep (fun t => t.dev) (fun _ _ => rfl) _ _)) ht, rfl⟩).2

theorem halt_unpermitted : ∀ a ∈ (inAnyOrder haltUnits h).routes, a.state ≠ .permitted :=
  (halt_reaches hs unpermitted_closed (f := withdrawAll) (by simp [haltUnits]) fun t ht =>
    ⟨halted_withdrawAll ht, withdrawAll_locks t⟩).2

theorem halt_routesFrozen : ∀ a ∈ (inAnyOrder haltUnits h).routes, a.frozen = a :=
  (halt_reaches hs routesFrozen_closed (f := freezeRoutes) (by simp [haltUnits]) fun t ht =>
    ⟨ht, fun a ha => by
      obtain ⟨b, -, rfl⟩ := List.mem_map.1 ha
      exact b.frozen_frozen⟩).2

/-- The records of the Active Route List after the halt (R73, R99). -/
theorem halt_routes (hn : (h.routes.map (·.id)).Nodup) :
    (inAnyOrder haltUnits h).routes = h.routes.map (fun a => a.frozen.unpermitted) := by
  have hr : RoutesHalt h (inAnyOrder haltUnits h) :=
    inAnyOrder_ind (routesHalt_closed h).choice (routesHalt_closed h).units ⟨hs, hn, rfl⟩
  refine ((List.map_id _).symm.trans (List.map_congr_left fun a ha => ?_)).trans hr.2.2
  rw [halt_routesFrozen hs a ha, ActiveRoute.unpermitted_of_ne (halt_unpermitted hs a ha)]
  rfl

/-- A route that had permission has lost it at its entry signal (R99). -/
theorem halt_entrySignal {a : ActiveRoute} (ha : a ∈ h.routes) (hp : a.state = .permitted) :
    ∀ x, (inAnyOrder haltUnits h).signal? (h.defOf a.id).entry = some x → x.perm = none := by
  have hi : PermHalts h a (inAnyOrder haltUnits h) :=
    inAnyOrder_ind (permHalts_closed h a).choice (permHalts_closed h a).units ⟨hs, rfl, .inl ⟨a, ha, rfl, hp⟩⟩
  refine hi.2.2.resolve_left ?_
  rintro ⟨b, hb, -, hbp⟩
  exact halt_unpermitted hs b hb hbp

theorem halt_slotsFrozen : ∀ x ∈ (inAnyOrder haltUnits h).slots, x.frozen = x :=
  have hd := haltFrame_closed hs
  inAnyOrder_reach hd.choice (Q := fun t => ∀ x ∈ t.slots, x.frozen = x) (fun _ _ _ ht => ht) (f := haltLinks)
    (by simp) hd.units (fun _ _ => freezeSlots_frozen _) (fun f hf t _ => haltUnit_slotsFrozen f hf t) (.refl h)

theorem halt_links (hids : h.links.map (·.id) = [0, 1, 2, 3]) :
    ∀ x ∈ (inAnyOrder haltUnits h).links, x.conf ≠ none → x.state = .down ∧ x.halted = true := by
  have hi := linkIds_closed [0, 1, 2, 3]
  have hall {l : Nat} (hl : l ∈ List.range 4) : LinkHalted l (inAnyOrder haltUnits h) :=
    inAnyOrder_reach hi.choice (linkHalted_closed l).choice (f := haltLinks) (by simp) hi.units
      (fun t ht => haltLinks_halts ht.1 ht.2 hl) (fun f hf t _ => (linkHalted_closed l).units f hf t) ⟨hs, hids⟩
  intro x hx
  have hid : x.id ∈ List.range 4 := by
    have hm : x.id ∈ [0, 1, 2, 3] := ((halt_frame hs).links.trans hids) ▸ List.mem_map_of_mem (f := fun y : Link => y.id) hx
    exact hm
  exact (hall hid).2 x hx rfl

end WholeHalt

/-- The halt of the device, before the units take it (R165, R167). -/
def State.halted (s : State) (cause : HaltCause) (item : Option FailItem) (index : Nat) : State :=
  emit (.deviceState .safeHalt (haltEventCause cause) item) { s with dev := { s.dev with
    state := .safeHalt, haltCause := some cause, failItem := item, failIndex := index, checkTimer := .off, health := false } }

theorem enterSafeHalt_eq (cause : HaltCause) (item : Option FailItem) (index : Nat) (s : State) :
    enterSafeHalt cause item index s = inAnyOrder haltUnits (s.halted cause item index) := rfl

/-- One link's part of the halt. -/
theorem haltLink_eq {l : Nat} {x : Link} {u : State} (hx : u.link? l = some x) :
    haltLink l u = if x.conf = none then u
      else (emit (.linkState l .down .halt)
        ((if x.state = .loopback ∧ x.test.role = .master then
            emit (.linkTestResult l ⟨.incomplete, x.test.sent, x.test.matched⟩)
              (u.mapLink l (fun y => { y with lastResult := some ⟨.incomplete, x.test.sent, x.test.matched⟩ })) else u).mapLink l
          (fun y => { y with
            state := .down, cause := .halt, halted := true, offer := param 13 u, trainCount := 0, lastTrain := none
            sentHeard := false, period := none, test := .idle, sendTimer := ⟨.stopped, 0⟩, training := ⟨.stopped, 0⟩
            supervision := ⟨.stopped, 0⟩, answer := ⟨.stopped, 0⟩, echo := ⟨.stopped, 0⟩ }))).lossTaken x := by
  have hid := link?_id hx
  subst hid
  unfold haltLink
  rw [hx]
  by_cases hc : x.conf = none
  · rw [if_pos hc]
    exact if_neg (by simp [hc])
  · rw [if_neg hc]
    refine (if_pos (Option.isSome_iff_ne_none.2 hc)).trans ?_
    rw [handLink_lossTaken]
    rfl

/-- Settles O53. The halt is the four units in some order; each clause is kept by all of them or brought about by one and
kept by the rest. -/
theorem imageCheckHalts : Obligations.ImageCheckHalts := by
  unfold Obligations.ImageCheckHalts
  intro stop still stilled
  refine ⟨fun s => ?_, fun u => ⟨rfl, ?_, rfl, ⟨_, inAnyOrder_inSomeOrder _ _, rfl⟩, fun l x hx => haltLink_eq hx⟩⟩
  · split
    · next hr =>
      have hrun : exec .imageCheckTimerExpiry s =
          .next (if copyIntact s then { s with dev := { s.dev with checkTimer := Timer.start Config.imageCheckTime } }
            else enterSafeHalt .imageCheck none 0 s) := congrArg Host.Outcome.next (if_pos hr)
      split
      · next hi => exact hrun.trans (congrArg Host.Outcome.next (if_pos (beq_iff_eq.2 hi)))
      · next hi =>
        intro halted
        have hs : (s.halted .imageCheck none 0).dev.state = .safeHalt := rfl
        have hf := halt_frame hs
        refine ⟨inAnyOrder haltUnits (s.halted .imageCheck none 0),
          hrun.trans (congrArg Host.Outcome.next (if_neg fun h => hi (beq_iff_eq.1 h))), hf.dev, halt_table hs, halt_unpermitted hs,
          fun hn => ?_, fun a ha hp => halt_entrySignal hs ha hp, hf.sections, hf.points, hf.signals, hf.store, hf.speeds,
          hf.disagreements, hf.tx, fun ch => ?_, hf.slots, halt_slotsFrozen hs, halt_links hs, hf.queue,
          inAnyOrder_inSomeOrder _ _⟩
        · exact halt_routes hs hn
        · obtain ⟨hc, hp⟩ := hf.chans ch
          exact ⟨hc.trans (by cases ch <;> rfl), hp.trans (by cases ch <;> rfl)⟩
    · next hr => exact congrArg Host.Outcome.next (if_neg hr)
  · exact inOrder_map_foldl (withdraw · .deviceState) _ u

end Sys2Proof.Machine

/-!
PROOFS. DEVICE RESET: the work on each of the links, one after another or in any order, and what the reset leaves. O51.
-/

namespace Sys2Proof.Machine

/-! ## Work on every link -/

/-- The state with other link records and other frames sent. -/
def State.linked (s : State) (links : List Link) (tx : List TxFrame) : State := { s with links := links, tx := tx }

theorem emitAll_linked (es : List Event) (s : State) (links : List Link) (tx : List TxFrame) :
    emitAll es (s.linked links tx) = (emitAll es s).linked links tx := by
  induction es generalizing s with
  | nil => rfl
  | cons e es ih => exact ih (emit e s)

theorem emitAll_append (es fs : List Event) (s : State) : emitAll (es ++ fs) s = emitAll fs (emitAll es s) :=
  List.foldl_append

/-- The change of one link in a list of links with distinct ids. -/
theorem mapLink_split {s : State} {before after : List Link} {x : Link} (f : Link → Link)
    (hl : s.links = before ++ x :: after) (hn : (s.links.map (·.id)).Nodup) :
    s.mapLink x.id f = { s with links := before ++ f x :: after } := by
  unfold State.mapLink
  refine congrArg (fun ls => ({ s with links := ls } : State)) ?_
  rw [hl, List.map_append, List.map_cons, List.nodup_append, List.nodup_cons] at hn
  obtain ⟨-, ⟨ha, -⟩, hb⟩ := hn
  rw [hl, List.map_append, List.map_cons, if_pos rfl]
  refine congrArg₂ (· ++ f x :: ·) ?_ ?_
  · refine (List.map_congr_left fun y hy => if_neg fun he => ?_).trans (List.map_id _)
    exact hb _ (List.mem_map_of_mem hy) _ List.mem_cons_self he
  · refine (List.map_congr_left fun y hy => if_neg fun he => ?_).trans (List.map_id _)
    exact ha (he ▸ List.mem_map_of_mem (f := fun z : Link => z.id) hy)

/-- Work that maps each link's record, sends frames and queues events, carried out link by link. -/
theorem inOrder_links {op : Nat → State → State} {g : Link → Link} {es : Link → List Event} {out : Link → List TxFrame}
    {d : Device} {ok : Link → Prop} (hg : ∀ x, (g x).id = x.id)
    (h : ∀ s x, ok x → s.dev = d → (s.links.map (·.id)).Nodup → s.link? x.id = some x →
      op x.id s = emitAll (es x) { s.mapLink x.id g with tx := s.tx ++ out x }) (after before : List Link)
    (hok : ∀ x ∈ after, ok x) : ∀ s : State, s.dev = d → s.links = before ++ after → (s.links.map (·.id)).Nodup →
      inOrder (after.map (fun x => op x.id)) s = emitAll (after.flatMap es)
        (s.linked (before ++ after.map g) (s.tx ++ after.flatMap out)) := by
  induction after generalizing before with
  | nil =>
    intro s _ hl _
    simp only [List.map_nil, inOrder_nil, List.flatMap_nil, List.append_nil] at hl ⊢
    rw [← hl]
    rfl
  | cons x after ih =>
    intro s hd hl hn
    have hx : s.link? x.id = some x := link?_of_mem hn (by rw [hl]; simp)
    have hop : op x.id s = (emitAll (es x) s).linked (before ++ g x :: after) (s.tx ++ out x) := by
      rw [h s x (hok x (by simp)) hd hn hx, mapLink_split g hl hn]
      exact emitAll_linked (es x) s _ _
    have hids : ((before ++ g x :: after).map (·.id)).Nodup := by
      simpa [hl, hg] using hn
    have hih := ih (before ++ [g x]) (fun y hy => hok y (List.mem_cons_of_mem x hy)) ((emitAll (es x) s).linked (before ++ g x :: after) (s.tx ++ out x))
      ((emitAll_keep (fun t => t.dev) (fun _ _ => rfl) (es x) s).trans hd) (List.append_cons before (g x) after) hids
    rw [List.map_cons, inOrder_cons, hop, hih, List.flatMap_cons, List.flatMap_cons, emitAll_linked, emitAll_linked,
      emitAll_append, emitAll_linked, emitAll_linked, List.map_cons, List.append_assoc]
    exact congrArg (State.linked _ _) (List.append_assoc _ _ _)

/-! ## The reset of the links (R121) -/

/-- The record of a link after DEVICE RESET, with its offer `p13` where it is configured. -/
def Link.relinked (p13 : Nat) (x : Link) : Link :=
  if x.conf = none then { Link.initial x.id none with cause := .reset }
  else { Link.initial x.id x.conf with state := .down, cause := .reset, offer := p13, sendTimer := ⟨.running, 200⟩ }

/-- The TRAIN that a configured link sends at DEVICE RESET. -/
def Link.resetTrain (area p13 : Nat) (x : Link) : List TxFrame :=
  if x.conf = none then [] else [⟨x.id, .train ⟨area, peerArea x, p13, false, false⟩⟩]

theorem mapLink_congr {s : State} {l : Nat} {x : Link} {f g : Link → Link} (hn : (s.links.map (·.id)).Nodup)
    (hx : s.link? l = some x) (h : f x = g x) : s.mapLink l f = s.mapLink l g := by
  unfold State.mapLink
  refine congrArg (fun ls => ({ s with links := ls } : State)) (List.map_congr_left fun y hy => ?_)
  by_cases he : y.id = l
  · rw [List.inj_on_of_nodup_map hn hy (List.mem_of_find?_eq_some hx) (he.trans (link?_id hx).symm), if_pos (link?_id hx),
      if_pos (link?_id hx), h]
  · rw [if_neg he, if_neg he]

theorem resetLink_eq {s : State} {x : Link} (hn : (s.links.map (·.id)).Nodup) (hx : s.link? x.id = some x) :
    resetLink x.id s = { s.mapLink x.id (Link.relinked (param 13 s)) with
      tx := s.tx ++ x.resetTrain s.dev.area (param 13 s) } := by
  unfold resetLink
  rw [hx]
  dsimp only
  by_cases hc : x.conf = none
  · rw [if_neg (by simp [hc]), mapLink_congr hn hx (g := Link.relinked (param 13 s))
      (by unfold Link.restarted Link.relinked; rw [if_pos hc, hc])]
    rw [show x.resetTrain s.dev.area (param 13 s) = [] from if_pos hc, List.append_nil]
    rfl
  · rw [if_pos (Option.isSome_iff_ne_none.2 hc), sendTrain_mapped (s := s) (fun y : Link => { y.restarted with
      state := .down, offer := param 13 s, sendTimer := Timer.start Config.trainInterval }) (fun _ => rfl) hx]
    rw [mapLink_congr hn hx (g := Link.relinked (param 13 s)) (if_neg hc).symm,
      show x.resetTrain s.dev.area (param 13 s) = _ from if_neg hc]
    rfl

/-- What the reset of every link does. -/
theorem resetLinks_eq {s : State} (hids : s.links.map (·.id) = [0, 1, 2, 3]) :
    inOrder ((List.range 4).map resetLink) s = { s with
      links := s.links.map (Link.relinked (param 13 s))
      tx := s.tx ++ s.links.flatMap (Link.resetTrain s.dev.area (param 13 s)) } := by
  have hn : (s.links.map (·.id)).Nodup := by rw [hids]; decide
  have hg (x : Link) : (x.relinked (param 13 s)).id = x.id := by
    unfold Link.relinked
    split <;> rfl
  have hl : (List.range 4).map resetLink = s.links.map (fun x => resetLink x.id) := by
    rw [show List.range 4 = s.links.map (·.id) from hids.symm, List.map_map]
    rfl
  rw [hl]
  refine (inOrder_links (es := fun _ => []) (out := Link.resetTrain s.dev.area (param 13 s)) (ok := fun _ => True) hg
    (fun t x _ hd hn hx => ?_) s.links [] (fun _ _ => trivial) s rfl rfl hn).trans ?_
  · have hp : param 13 t = param 13 s := by unfold param; rw [hd]
    rw [resetLink_eq hn hx, hp, hd]
    rfl
  · rw [List.flatMap_eq_nil_iff.2 fun _ _ => rfl]
    rfl

/-! ## The halt of a device that has been cleared (R134, R167) -/

/-- The record of a link after the halt of a device that has just been reset. -/
def Link.rehalted (p13 : Nat) (x : Link) : Link :=
  if x.conf = none then { Link.initial x.id none with cause := .reset }
  else { Link.initial x.id x.conf with state := .down, cause := .halt, halted := true, offer := p13 }

/-- The record of a configured link that halts. -/
def Link.haltNow (p13 : Nat) (y : Link) : Link :=
  { y with
    state := .down, cause := .halt, halted := true, offer := p13, trainCount := 0, lastTrain := none
    sentHeard := false, period := none, test := .idle, sendTimer := ⟨.stopped, 0⟩, training := ⟨.stopped, 0⟩
    supervision := ⟨.stopped, 0⟩, answer := ⟨.stopped, 0⟩, echo := ⟨.stopped, 0⟩ }

/-- Both queues hold the same records and have lost none. -/
def State.queued (s : State) (es : List Event) : State :=
  { s with queueA := ⟨es.map (⟨·, s.dev.time⟩), 0⟩, queueB := ⟨es.map (⟨·, s.dev.time⟩), 0⟩ }

theorem emit_queued {s : State} {es : List Event} (h : es.length < 64) (e : Event) :
    emit e (s.queued es) = s.queued (es ++ [e]) := by
  have ho (ch : Channel) : EventQueue.offer ⟨es.map (⟨·, s.dev.time⟩), 0⟩ ch s.dev.time e =
      ⟨(es ++ [e]).map (⟨·, s.dev.time⟩), 0⟩ := by
    unfold EventQueue.offer
    rw [if_neg (by simp only [List.length_map]; exact Nat.not_le.2 h), if_pos rfl, List.map_append]
    rfl
  exact congrArg₂ (fun a b => ({ s with queueA := a, queueB := b } : State)) (ho .A) (ho .B)

/-- A halted device in which the links `order` have halted so far, each with its LINK_STATE. -/
def State.halting (s : State) (order : List Nat) : State :=
  { s.queued (.deviceState .safeHalt .imageCheck none :: order.map (fun l => .linkState l .down .halt)) with
    links := s.links.map (fun x => if x.id ∈ order then x.rehalted (param 13 s) else x.relinked (param 13 s)) }

theorem Link.relinked_id (p13 : Nat) (x : Link) : (x.relinked p13).id = x.id := by
  unfold Link.relinked
  split <;> rfl

theorem Link.rehalted_id (p13 : Nat) (x : Link) : (x.rehalted p13).id = x.id := by
  unfold Link.rehalted
  split <;> rfl

theorem State.halting_ids (s : State) (order : List Nat) : (s.halting order).links.map (·.id) = s.links.map (·.id) := by
  show (s.links.map _).map _ = _
  rw [List.map_map]
  refine List.map_congr_left fun x _ => ?_
  dsimp only [Function.comp_apply]
  split
  · exact x.rehalted_id _
  · exact x.relinked_id _

section ClearedHalt
variable {s : State} (hids : s.links.map (·.id) = [0, 1, 2, 3]) {order : List Nat} {x : Link} (hx : x ∈ s.links)
  (hn : x.id ∉ order)
include hids hx hn

theorem halting_link? : (s.halting order).link? x.id = some (x.relinked (param 13 s)) := by
  have hm : x.relinked (param 13 s) ∈ (s.halting order).links :=
    List.mem_map.2 ⟨x, hx, if_neg hn⟩
  have := link?_of_mem (by rw [State.halting_ids, hids]; decide) hm
  rwa [x.relinked_id] at this

/-- A link that is not configured takes no part in the halt. -/
theorem haltLink_unconfigured (hc : x.conf = none) (c : List Nat) (d : Nat) :
    haltLink x.id { s.halting order with choices := c, drawn := d } = { s.halting order with choices := c, drawn := d } := by
  have hl : ({ s.halting order with choices := c, drawn := d } : State).link? x.id = some (x.relinked (param 13 s)) :=
    halting_link? hids hx hn
  rw [haltLink_eq hl]
  exact if_pos (by unfold Link.relinked; rw [if_pos hc]; rfl)

/-- A configured link of a device that is halting halts. -/
theorem haltLink_configured (hc : x.conf ≠ none) (ho : order.length < 63) (c : List Nat) (d : Nat) :
    haltLink x.id { s.halting order with choices := c, drawn := d } =
      { s.halting (order ++ [x.id]) with choices := c, drawn := d } := by
  have hnd : (s.links.map (·.id)).Nodup := by rw [hids]; decide
  have hl : ({ s.halting order with choices := c, drawn := d } : State).link? x.id = some (x.relinked (param 13 s)) :=
    halting_link? hids hx hn
  have hr : x.relinked (param 13 s) = _ := if_neg hc
  rw [haltLink_eq hl, if_neg (by rw [hr]; exact hc), if_neg (by rw [hr]; exact fun h => nomatch h.1)]
  refine (if_neg (by rw [hr]; exact fun h => nomatch h)).trans ?_
  let p13 := param 13 s
  have hlinks : (s.links.map (fun y => if y.id ∈ order then y.rehalted p13 else y.relinked p13)).map
      (fun y => if y.id = x.id then y.haltNow p13 else y) =
      s.links.map (fun y => if y.id ∈ order ++ [x.id] then y.rehalted p13 else y.relinked p13) := by
    rw [List.map_map]
    refine List.map_congr_left fun y hy => ?_
    dsimp only [Function.comp_apply]
    by_cases he : y.id = x.id
    · obtain rfl := List.inj_on_of_nodup_map hnd hy hx he
      rw [if_neg hn, if_pos (y.relinked_id p13), if_pos (by simp)]
      exact (congrArg (Link.haltNow p13) (if_neg hc)).trans (if_neg hc).symm
    · by_cases hm : y.id ∈ order
      · rw [if_pos hm, if_neg (by rw [y.rehalted_id]; exact he), if_pos (by simp [hm])]
      · rw [if_neg hm, if_neg (by rw [y.relinked_id]; exact he), if_neg (by simp [hm, he])]
  have hes : (Event.deviceState .safeHalt .imageCheck none :: order.map (fun l => .linkState l .down .halt)) ++
      [.linkState x.id .down .halt] =
      .deviceState .safeHalt .imageCheck none :: (order ++ [x.id]).map (fun l => Event.linkState l .down .halt) := by
    rw [List.map_append]
    rfl
  refine (emit_queued (s := { s with
    links := (s.links.map (fun y => if y.id ∈ order then y.rehalted p13 else y.relinked p13)).map
      (fun y => if y.id = x.id then y.haltNow p13 else y)
    choices := c, drawn := d }) (by simp only [List.length_cons, List.length_map]; omega) _).trans ?_
  exact congrArg₂ (fun ls es => ({ s with links := ls, choices := c, drawn := d } : State).queued es) hlinks hes

end ClearedHalt

/-- The ids of the configured links of a list. -/
def configuredIds (ls : List Link) : List Nat := (ls.filter (fun x => x.conf.isSome)).map (·.id)

/-- The links of a cleared device halt in some order, each configured one once. -/
theorem haltLinks_inSomeOrder {s t u : State} (hids : s.links.map (·.id) = [0, 1, 2, 3]) {fs : List (State → State)}
    (h : InSomeOrder fs t u) : ∀ (order : List Nat) (c : List Nat) (d : Nat) (ls : List Link), fs = ls.map (haltLink ·.id) →
      (∀ x ∈ ls, x ∈ s.links ∧ x.id ∉ order) → (ls.map (·.id)).Nodup → order.length + ls.length ≤ 4 →
      t = { s.halting order with choices := c, drawn := d } →
      ∃ more c' d', more.Perm (configuredIds ls) ∧ u = { s.halting (order ++ more) with choices := c', drawn := d' } := by
  induction h with
  | done t =>
    intro order c d ls hfs _ _ _ ht
    obtain rfl := List.map_eq_nil_iff.1 hfs.symm
    exact ⟨[], c, d, .refl _, by rw [List.append_nil]; exact ht⟩
  | next before f after t c₀ d₀ u h ih =>
    intro order c d ls hfs hls hnd hlen ht
    obtain ⟨l₁, l', rfl, rfl, hl'⟩ := List.map_eq_append_iff.1 hfs.symm
    obtain ⟨x, l₂, rfl, rfl, rfl⟩ := List.map_eq_cons_iff.1 hl'
    obtain ⟨hx, hxo⟩ := hls x (by simp)
    have hperm : (l₁ ++ x :: l₂).Perm (x :: (l₁ ++ l₂)) := List.perm_middle
    obtain ⟨hxn, hnd'⟩ := List.nodup_cons.1 ((hperm.map (·.id)).nodup_iff.1 hnd)
    have hrest : ∀ y ∈ l₁ ++ l₂, y ∈ s.links ∧ y.id ∉ order ∧ y.id ≠ x.id := fun y hy => by
      obtain ⟨hm, hmo⟩ := hls y (hperm.mem_iff.2 (List.mem_cons_of_mem _ hy))
      exact ⟨hm, hmo, fun he => hxn (List.mem_map.2 ⟨y, hy, he⟩)⟩
    have hlen' : order.length + (l₁ ++ l₂).length + 1 ≤ 4 := by
      simp only [List.length_append, List.length_cons] at hlen ⊢
      omega
    subst ht
    by_cases hc : x.conf = none
    · obtain ⟨more, c', d', hp, hu⟩ := ih order c₀ d₀ (l₁ ++ l₂) (by rw [List.map_append])
        (fun y hy => ⟨(hrest y hy).1, (hrest y hy).2.1⟩) hnd' (by omega) (haltLink_unconfigured hids hx hxo hc c₀ d₀)
      refine ⟨more, c', d', hp.trans ?_, hu⟩
      unfold configuredIds
      simp [hc]
    · obtain ⟨more, c', d', hp, hu⟩ := ih (order ++ [x.id]) c₀ d₀ (l₁ ++ l₂) (by rw [List.map_append])
        (fun y hy => ⟨(hrest y hy).1, by simp [(hrest y hy).2.1, (hrest y hy).2.2]⟩) hnd'
        (by simp only [List.length_append, List.length_cons, List.length_nil] at hlen' ⊢; omega)
        (haltLink_configured hids hx hxo hc (by omega) c₀ d₀)
      refine ⟨x.id :: more, c', d', (hp.cons x.id).trans ?_, ?_⟩
      · have := (hperm.filter (fun y => y.conf.isSome)).map (·.id)
        rw [List.filter_cons_of_pos (by simpa [Option.isSome_iff_ne_none] using hc)] at this
        exact this.symm
      · rw [hu, List.append_assoc]
        rfl

/-- What all changes keep holds after them in some order. -/
theorem InSomeOrder.keeps {J : State → Prop} (hJ : BlindToChoice J) {fs : List (State → State)} {s t : State}
    (h : InSomeOrder fs s t) : (∀ g ∈ fs, ∀ u, J u → J (g u)) → J s → J t := by
  induction h with
  | done _ => exact fun _ hs => hs
  | next before g after s c d t _ ih =>
    intro hk hs
    exact ih (fun f hf => hk f (by simp only [List.mem_append, List.mem_cons] at hf ⊢; tauto)) (hk g (by simp) _ (hJ _ _ _ hs))

/-- One change brings about `J` from `I`, and the changes beside it keep both. -/
theorem InSomeOrder.last {I J : State → Prop} (hI : BlindToChoice I) (hJ : BlindToChoice J) {fs : List (State → State)}
    {s t : State} (h : InSomeOrder fs s t) : ∀ (others : List (State → State)) (f : State → State), fs = others ++ [f] →
      (∀ g ∈ others, ∀ u, (I u → I (g u)) ∧ (J u → J (g u))) → (∀ u, I u → J (f u)) → I s → J t := by
  induction h with
  | done s => exact fun others f hfs => absurd hfs (by simp)
  | next before g after s c d t h ih =>
    intro others f hfs hk hf hs
    have hs' := hI s c d hs
    rcases List.eq_nil_or_concat after with rfl | ⟨after', x, rfl⟩
    · obtain ⟨rfl, he⟩ := List.append_inj' hfs rfl
      cases he
      rw [List.append_nil] at h
      exact h.keeps hJ (fun k hk' u => (hk k hk' u).2) (hf _ hs')
    · rw [List.concat_eq_append, ← List.cons_append, ← List.append_assoc] at hfs
      obtain ⟨rfl, he⟩ := List.append_inj' hfs rfl
      cases he
      exact ih (before ++ after') f (by rw [List.concat_eq_append, List.append_assoc])
        (fun k hk' => hk k (by simp only [List.mem_append, List.mem_cons] at hk' ⊢; tauto)) hf
        ((hk g (by simp) _).1 hs')

/-! ## The units on a halt with nothing to give up -/

theorem withdrawTable_nil {s : State} (h : s.table = []) : withdrawTable s = s := by
  unfold withdrawTable
  rw [h]
  show ({ s with table := [] } : State) = s
  rw [← h]

theorem withdrawAll_nil {s : State} (h : s.routes = []) : withdrawAll s = s := by
  unfold withdrawAll
  rw [h]
  rfl

theorem freezeRoutes_nil {s : State} (h : s.routes = []) : freezeRoutes s = s := by
  unfold freezeRoutes
  rw [h]
  show ({ s with routes := [] } : State) = s
  rw [← h]

/-- The units but for the links do nothing where no half waits and no route is active. -/
theorem haltUnits_idle {s : State} (ht : s.table = []) (hr : s.routes = []) :
    ∀ g ∈ [withdrawTable, withdrawAll, freezeRoutes], g s = s := by
  simp only [List.forall_mem_cons]
  exact ⟨withdrawTable_nil ht, withdrawAll_nil hr, freezeRoutes_nil hr, by simp⟩

/-- Slots whose timers are stopped stay. -/
theorem freezeSlots_of_frozen {s : State} (h : ∀ x ∈ s.slots, x.frozen = x) : freezeSlots s = s := by
  show ({ s with slots := s.slots.map Slot.frozen } : State) = s
  rw [(List.map_congr_left h).trans (List.map_id _)]

/-- The halt of a device whose blocks have just been cleared: each configured link halts, in some order. -/
theorem halt_cleared {s : State} (hids : s.links.map (·.id) = [0, 1, 2, 3]) (ht : s.table = []) (hr : s.routes = [])
    (hslots : ∀ x ∈ s.slots, x.frozen = x) : ∃ order c d, order.Perm (configuredIds s.links)
      ∧ inAnyOrder haltUnits (s.halting []) = { s.halting order with choices := c, drawn := d } := by
  refine (inAnyOrder_inSomeOrder haltUnits (s.halting [])).last
    (I := fun t => ∃ c d, t = { s.halting [] with choices := c, drawn := d })
    (J := fun t => ∃ order c d, order.Perm (configuredIds s.links) ∧ t = { s.halting order with choices := c, drawn := d })
    ?_ ?_ [withdrawTable, withdrawAll, freezeRoutes] haltLinks rfl (fun g hg u => ⟨?_, ?_⟩) ?_ ⟨_, _, rfl⟩
  · rintro t c d ⟨_, _, rfl⟩
    exact ⟨c, d, rfl⟩
  · rintro t c d ⟨order, _, _, hp, rfl⟩
    exact ⟨order, c, d, hp, rfl⟩
  · rintro ⟨c, d, rfl⟩
    exact ⟨c, d, haltUnits_idle (s := { s.halting [] with choices := c, drawn := d }) ht hr g hg⟩
  · rintro ⟨order, c, d, hp, rfl⟩
    exact ⟨order, c, d, hp, haltUnits_idle (s := { s.halting order with choices := c, drawn := d }) ht hr g hg⟩
  · rintro _ ⟨c, d, rfl⟩
    have hn : (s.links.map (·.id)).Nodup := by rw [hids]; decide
    have hlen : s.links.length = 4 := by simpa using congrArg List.length hids
    have hl : (List.range 4).map haltLink = s.links.map (haltLink ·.id) := by
      rw [show List.range 4 = s.links.map (·.id) from hids.symm, List.map_map]
      rfl
    obtain ⟨order, c', d', hp, hu⟩ := haltLinks_inSomeOrder hids (inAnyOrder_inSomeOrder ((List.range 4).map haltLink)
      { s.halting [] with choices := c, drawn := d }) [] c d s.links hl (fun x hx => ⟨hx, List.not_mem_nil⟩) hn (by simp [hlen]) rfl
    refine ⟨order, c', d', hp, ?_⟩
    show freezeSlots (inAnyOrder _ _) = _
    rw [hu]
    exact freezeSlots_of_frozen hslots

/-! ## O51: DEVICE RESET -/

/-- What DEVICE RESET clears, field by field (R2, R40, R170). -/
theorem resetBlocks_eq (ch : Channel) (u : State) : resetBlocks ch u = { u with
    points := u.points.map (fun x => { newPoint x.id x.sec x.supTime with block := x.block, mask := x.mask })
    signals := u.signals.map (fun x => { newSignal x.id x.protSec with
      block := x.block, mask := x.mask, status := if x.mask = true then .danger else .unproven })
    routes := [], table := [], disagreements := 0, sections := u.sections.map
      (fun x => { newSection x.id with block := x.block, mask := x.mask })
    slots := u.slots.map (fun x => { x with
      permit := .unknown, reconciled := false, refusing := false, yielded := false, outb := .none
      receivedReported := false, inb := .none, transitSeen := false, transitEnded := false, peer := none
      transfer := ⟨.stopped, 0⟩, recon := ⟨.stopped, 0⟩, accept := ⟨.stopped, 0⟩, transit := ⟨.stopped, 0⟩
      reserve := ⟨.stopped, 0⟩ })
    chanA := .initial u.chanA.crst, chanB := .initial u.chanB.crst
    portA := if ch = .A then { u.portA with badFrames := 0, taken := 0, resetOnEnd := true } else .initial
    portB := if ch = .B then { u.portB with badFrames := 0, taken := 0, resetOnEnd := true } else .initial
    queueA := ⟨[], 0⟩, queueB := ⟨[], 0⟩ } := by
  have hsig : u.signals.map SignalRec.reset = u.signals.map (fun x => { newSignal x.id x.protSec with
      block := x.block, mask := x.mask, status := if x.mask = true then .danger else .unproven }) :=
    List.map_congr_left fun x _ => by
      unfold SignalRec.reset SignalRec.derivedStatus newSignal
      cases x.mask <;> simp
  unfold resetBlocks
  rw [hsig]
  cases ch <;> rfl

theorem fresh_frozen (x : Slot) : x.fresh.frozen = x.fresh := rfl

theorem copyIntact_iff {s : State} : copyIntact s = true ↔ some (imageCrc s.dev.copy) = s.dev.digest := by
  unfold copyIntact
  exact beq_iff_eq

theorem resetBlocks_dev (ch : Channel) (u : State) : (resetBlocks ch u).dev = u.dev := by rw [resetBlocks_eq]

theorem resetBlocks_links (ch : Channel) (u : State) : (resetBlocks ch u).links = u.links := by rw [resetBlocks_eq]

theorem resetBlocks_tx (ch : Channel) (u : State) : (resetBlocks ch u).tx = u.tx := by rw [resetBlocks_eq]

/-- DEVICE RESET with the copy intact (R170). -/
theorem deviceReset_intact (ch : Channel) {u : State} (hids : u.links.map (·.id) = [0, 1, 2, 3])
    (hi : some (imageCrc u.dev.copy) = u.dev.digest) : deviceReset ch u = { resetBlocks ch u with
      dev := { u.dev with state := .awaiting, checkTimer := ⟨.running, 100⟩ }
      links := u.links.map (Link.relinked (param 13 u))
      tx := u.tx ++ u.links.flatMap (Link.resetTrain u.dev.area (param 13 u)) } := by
  unfold deviceReset
  rw [resetLinks_eq (by rw [resetBlocks_links, hids])]
  refine (if_pos (copyIntact_iff.2 ?_)).trans ?_
  · show some (imageCrc (resetBlocks ch u).dev.copy) = (resetBlocks ch u).dev.digest
    rwa [resetBlocks_dev]
  · simp only [param, resetBlocks_dev, resetBlocks_links, resetBlocks_tx]
    rfl

theorem State.halting_nil {s : State} (hA : s.queueA = ⟨[], 0⟩) (hB : s.queueB = ⟨[], 0⟩) :
    emit (.deviceState .safeHalt .imageCheck none) { s with links := s.links.map (Link.relinked (param 13 s)) } =
      s.halting [] := by
  have hq : ({ s with links := s.links.map (Link.relinked (param 13 s)) } : State) =
      State.queued { s with links := s.links.map (Link.relinked (param 13 s)) } [] :=
    congrArg₂ (fun a b => ({ s with links := s.links.map (Link.relinked (param 13 s)), queueA := a, queueB := b } : State)) hA hB
  rw [hq, emit_queued (by decide)]
  rfl

/-- The device of a halt by the image check. -/
def Device.checkFailed (d : Device) : Device :=
  { d with state := .safeHalt, haltCause := some .imageCheck, failItem := none, failIndex := 0, checkTimer := ⟨.stopped, 0⟩
           health := false }

/-- DEVICE RESET with the copy damaged (R134, R170). -/
theorem deviceReset_halts (ch : Channel) {u : State} (hids : u.links.map (·.id) = [0, 1, 2, 3])
    (hi : some (imageCrc u.dev.copy) ≠ u.dev.digest) : ∃ order c d, order.Perm (configuredIds u.links) ∧
      deviceReset ch u = { State.halting { resetBlocks ch u with dev := u.dev.checkFailed } order with choices := c, drawn := d } := by
  obtain ⟨order, c, d, hp, he⟩ := halt_cleared (s := { resetBlocks ch u with dev := u.dev.checkFailed }) (by simpa only [resetBlocks_links] using hids) (by rw [resetBlocks_eq]) (by rw [resetBlocks_eq]) (by
      rw [resetBlocks_eq]
      intro x hx
      obtain ⟨y, -, rfl⟩ := List.mem_map.1 hx
      exact fresh_frozen y)
  refine ⟨order, c, d, by rwa [resetBlocks_links] at hp, Eq.trans ?_ he⟩
  unfold deviceReset
  rw [resetLinks_eq (by rw [resetBlocks_links, hids])]
  refine (if_neg fun h => hi ?_).trans ?_
  · have := copyIntact_iff.1 h
    rwa [show (State.dev _) = (resetBlocks ch u).dev from rfl, resetBlocks_dev] at this
  · rw [enterSafeHalt_eq]
    refine congrArg (inAnyOrder haltUnits) (Eq.trans ?_ (State.halting_nil (by rw [resetBlocks_eq]) (by rw [resetBlocks_eq])))
    refine congrArg₂ (fun (d : Device) tx => emit (.deviceState .safeHalt .imageCheck none) { resetBlocks ch u with
      links := (resetBlocks ch u).links.map (Link.relinked (param 13 { resetBlocks ch u with dev := d.checkFailed }))
      dev := d.checkFailed, tx := tx })
      (resetBlocks_dev ch u) (resetBlocks_tx ch u).symm

/-- The record of a configured link sends one frame, and no other record does. -/
theorem flatMap_resetTrain (area p13 : Nat) (ls : List Link) : ls.flatMap (Link.resetTrain area p13) =
    ls.filterMap (fun x => if x.conf = none then none else some ⟨x.id, .train ⟨area, peerArea x, p13, false, false⟩⟩) := by
  induction ls with
  | nil => rfl
  | cons x ls ih =>
    rw [List.flatMap_cons, ih, List.filterMap_cons]
    by_cases hc : x.conf = none
    · simp [Link.resetTrain, hc]
    · simp [Link.resetTrain, hc]

/-- Once every configured link has halted, each record of the list is that of a halted device. -/
theorem allHalted {links : List Link} {order : List Nat}
    (hp : order.Perm (configuredIds links)) (p13 : Nat) :
    links.map (fun x => if x.id ∈ order then x.rehalted p13 else x.relinked p13) = links.map (Link.rehalted p13) := by
  refine List.map_congr_left fun x hx => ?_
  by_cases hm : x.id ∈ order
  · exact if_pos hm
  · refine (if_neg hm).trans ?_
    have hc : x.conf = none := by
      by_contra hc
      exact hm (hp.mem_iff.2 (List.mem_map_of_mem (List.mem_filter.2 ⟨hx, Option.isSome_iff_ne_none.2 hc⟩)))
    exact (if_pos hc).trans (if_pos hc).symm

/-- Settles O51: the blocks and the links are cleared one after another, and a damaged copy halts the cleared device. -/
theorem deviceResetClears : Obligations.DeviceResetClears := by
  unfold Obligations.DeviceResetClears
  intro ch tag s f hf hids
  refine concurs_of rfl hf (v := decideDeviceReset ch (s.paired f)) rfl ?_
  intro cleared
  have hdev : (emit (.requestDone f.tag f.kind .done 0) (s.paired f)).dev = s.dev := State.paired_dev s f
  have hlinks : (emit (.requestDone f.tag f.kind .done 0) (s.paired f)).links = s.links := State.paired_links s f
  have hparam : param 13 (emit (.requestDone f.tag f.kind .done 0) (s.paired f)) = param 13 s :=
    (param_emit _ _ _).trans (State.paired_param s f 13)
  have hids' := (congrArg (List.map (·.id)) hlinks).trans hids
  split
  · next hi =>
    refine (deviceReset_intact ch hids' (by rw [hdev]; exact hi)).trans ?_
    rw [resetBlocks_eq, flatMap_resetTrain, ← hparam, ← hdev, ← hlinks] <;> rfl
  · next hi =>
    intro halted
    dsimp only [halted]
    rw [← hdev]
    obtain ⟨order, c, d, hp, he⟩ := deviceReset_halts ch hids' (by rw [hdev]; exact hi)
    refine ⟨order, c, d, hlinks ▸ hp, he.trans ?_⟩
    refine congrArg (fun t : State => ({ t with choices := c, drawn := d } : State)) ?_
    unfold State.halting State.queued
    dsimp only
    rw [resetBlocks_links, allHalted hp, resetBlocks_eq, List.map_cons, List.map_map, ← hparam] <;> rfl

end Sys2Proof.Machine

/-!
PROOFS. The end of the image read: an image passes exactly where it is sound, and what it fills or halts. O52.
-/

namespace Sys2Proof.Machine

/-! ## Validation (R163) -/

theorem byteAt_lt (bs : List Byte) (i : Nat) : byteAt bs i < 256 := by
  unfold byteAt
  cases bs[i]? with
  | none => exact Nat.zero_lt_succ _
  | some b => exact b.isLt

/-- Checks 3 to 12 on the parts of any bytes. -/
theorem checkParts_imageOf (bs : List Byte) : checkParts (imageOf bs) = none ↔ (imageOf bs).Sound := by
  refine checkParts_sound (fun f hf => ?_) (by simp [imageOf])
  obtain ⟨b, -, rfl⟩ := List.mem_map.1 hf
  exact byteAt_lt b 1

/-- An image passes every check exactly where it is sound. -/
theorem validate_none (bs : List Byte) : validate bs = none ↔ 20 ≤ bs.length ∧ (headerOf bs).length ≤ bs.length
    ∧ (imageCrc (imageBytes bs)).toNat = (headerOf bs).crc ∧ (imageOf (imageBytes bs)).Sound := by
  unfold validate
  rw [← checkParts_imageOf]
  by_cases hm : bs.length < 20 ∨ bs.length < (headerOf bs).length
  · rw [if_pos hm]
    exact ⟨fun h => (by cases h), fun h => by omega⟩
  · rw [if_neg hm]
    by_cases hc : (imageCrc (imageBytes bs)).toNat = (headerOf bs).crc
    · rw [if_neg (not_not.2 hc)]
      exact ⟨fun h => ⟨by omega, by omega, hc, h⟩, fun h => h.2.2.2⟩
    · rw [if_pos hc]
      exact ⟨fun h => (by cases h), fun h => absurd h.2.2.1 hc⟩

/-! ## The start of the links (R122) -/

/-- The record of a configured link after its start, with its offer `p13`. -/
def Link.startNow (p13 : Nat) (y : Link) : Link :=
  { y with
    state := .down, cause := .start, offer := p13, trainCount := 0, lastTrain := none, sentHeard := false
    period := none, test := .idle, supervision := .off, answer := .off, echo := .off, training := .off
    sendTimer := ⟨.running, 200⟩ }

/-- The record of a link after the start of the configured links. -/
def Link.started (p13 : Nat) (y : Link) : Link := if y.conf = none then y else y.startNow p13

/-- The event and the frame of a link's start. -/
def Link.startEvents (y : Link) : List Event := if y.conf = none then [] else [.linkState y.id .down .start]

theorem startLink_eq {s : State} {x : Link} (hup : x.state ≠ .up) (hn : (s.links.map (·.id)).Nodup)
    (hx : s.link? x.id = some x) : startLink x.id s = emitAll x.startEvents { s.mapLink x.id (Link.started (param 13 s)) with
      tx := s.tx ++ x.resetTrain s.dev.area (param 13 s) } := by
  unfold startLink
  rw [hx]
  dsimp only
  by_cases hc : x.conf = none
  · rw [if_neg (by simp [hc]), mapLink_congr hn hx (f := Link.started (param 13 s)) (g := id) (if_pos hc),
      show x.startEvents = [] from if_pos hc, show x.resetTrain _ _ = [] from if_pos hc, List.append_nil]
    unfold State.mapLink
    dsimp only [id]
    simp only [ite_self, List.map_id']
    rfl
  · obtain ⟨v, -, hv, hw⟩ := enterDown_entersDown .start hx
    rw [if_pos (Option.isSome_iff_ne_none.2 hc), hw, hv, show x.startEvents = _ from if_neg hc,
      show x.resetTrain _ _ = _ from if_neg hc]
    unfold State.lossTaken
    rw [if_neg hup, mapLink_congr hn hx (f := Link.started (param 13 s)) (g := Link.startNow (param 13 s)) (if_neg hc)]
    rfl

theorem param_getD (n : Nat) (s : State) : param n s = (s.dev.active[n - 1]?).getD (Config.unsetParameter n) := by
  unfold param
  cases s.dev.active[n - 1]? <;> rfl

/-- The id and the descriptor of each link that the image configures. -/
def upLinks (m : Image) : List (Nat × LinkDef) :=
  (List.range 4).filterMap (fun l => (newLink m l).conf.map (fun c => (l, c)))

theorem startEvents_newLinks (m : Image) (ids : List Nat) : (ids.map (newLink m)).flatMap Link.startEvents =
    (ids.filterMap (fun l => (newLink m l).conf.map (fun c => (l, c)))).map (fun p => .linkState p.1 .down .start) := by
  induction ids with
  | nil => rfl
  | cons l ids ih =>
    rw [List.map_cons, List.flatMap_cons, ih, List.filterMap_cons]
    unfold Link.startEvents
    cases hc : (newLink m l).conf with
    | none => rfl
    | some c => rfl

theorem startTrains_newLinks (m : Image) (area p13 : Nat) (ids : List Nat) :
    (ids.map (newLink m)).flatMap (Link.resetTrain area p13) =
    (ids.filterMap (fun l => (newLink m l).conf.map (fun c => (l, c)))).map
      (fun p => ⟨p.1, .train ⟨area, p.2.peer, p13, false, false⟩⟩) := by
  induction ids with
  | nil => rfl
  | cons l ids ih =>
    rw [List.map_cons, List.flatMap_cons, ih, List.filterMap_cons]
    unfold Link.resetTrain peerArea
    cases hc : (newLink m l).conf with
    | none => rfl
    | some c => rfl

theorem newLink_started (m : Image) (p13 l : Nat) : (newLink m l).started p13 = match (newLink m l).conf with
    | none => Link.initial l none
    | some c => { Link.initial l (some c) with
        state := .down, cause := .start, offer := p13, sendTimer := ⟨.running, 200⟩ } := by
  have hl : newLink m l = Link.initial l (newLink m l).conf := rfl
  unfold Link.started
  rw [hl]
  cases (newLink m l).conf with
  | none => rfl
  | some c => rfl

/-- The entry to AWAITING_ACCEPTANCE with the blocks filled from an image: DEVICE_STATE, then every link starts. -/
theorem enterAwaiting_filled (bs : List Byte) (s : State) : enterAwaiting (fillBlocks bs s) =
    emitAll (.deviceState .awaiting .loaded none :: (upLinks (imageOf bs)).map (fun p => .linkState p.1 .down .start))
      { fillBlocks bs s with
        links := (List.range 4).map (fun l => (newLink (imageOf bs) l).started
          (((imageOf bs).params[12]?).getD (Config.unsetParameter 13)))
        tx := s.tx ++ (upLinks (imageOf bs)).map (fun p => ⟨p.1, .train ⟨(imageOf bs).header.area, p.2.peer,
          ((imageOf bs).params[12]?).getD (Config.unsetParameter 13), false, false⟩⟩)
        dev := { (fillBlocks bs s).dev with state := .awaiting, checkTimer := ⟨.running, 100⟩ } } := by
  let w : State := { fillBlocks bs s with
    dev := { (fillBlocks bs s).dev with state := .awaiting, checkTimer := ⟨.running, 100⟩ } }
  let p13 := ((imageOf bs).params[12]?).getD (Config.unsetParameter 13)
  have hids : (w.links.map (·.id)) = [0, 1, 2, 3] := rfl
  have hl : (List.range 4).map startLink = ((List.range 4).map (newLink (imageOf bs))).map (fun x => startLink x.id) := by
    rw [List.map_map]
    rfl
  have hg (x : Link) : (x.started p13).id = x.id := by
    unfold Link.started
    split <;> rfl
  have hok : ∀ x ∈ (List.range 4).map (newLink (imageOf bs)), x.state ≠ .up := fun x hx => by
    obtain ⟨l, -, rfl⟩ := List.mem_map.1 hx
    exact nofun
  have hrun := inOrder_links (op := startLink) (es := Link.startEvents) (d := w.dev)
    (out := Link.resetTrain (imageOf bs).header.area p13) hg (fun t x hup hd hn hx => by
      have hp : param 13 t = p13 := (param_getD 13 t).trans
        (congrArg (fun d : Device => (d.active[12]?).getD (Config.unsetParameter 13)) hd)
      have ha : t.dev.area = (imageOf bs).header.area := congrArg Device.area hd
      rw [startLink_eq hup hn hx, hp, ha]) _ [] hok (emit (.deviceState .awaiting .loaded none) w) rfl rfl
    (by show (w.links.map (·.id)).Nodup; rw [hids]; decide)
  unfold enterAwaiting
  rw [hl]
  refine hrun.trans ?_
  rw [startEvents_newLinks, startTrains_newLinks, List.map_map]
  rfl

/-- A link that is not configured takes no part in a halt. -/
theorem haltLink_idle {s : State} (hc : ∀ x ∈ s.links, x.conf = none) (l : Nat) : haltLink l s = s := by
  cases hx : s.link? l with
  | none => unfold haltLink; rw [hx]
  | some x => rw [haltLink_eq hx, if_pos (hc x (List.mem_of_find?_eq_some hx))]

/-- The halt of a device with no route, no half-request, no slot and no configured link. -/
theorem halt_idle {s : State} (ht : s.table = []) (hr : s.routes = []) (hslots : s.slots = [])
    (hc : ∀ x ∈ s.links, x.conf = none) : ∃ c d, inAnyOrder haltUnits s = { s with choices := c, drawn := d } := by
  have hlinks (c : List Nat) (d : Nat) : ∃ c' d', haltLinks { s with choices := c, drawn := d } =
      { s with choices := c', drawn := d' } := by
    obtain ⟨c', d', he⟩ : ∃ c' d', inAnyOrder ((List.range 4).map haltLink) { s with choices := c, drawn := d } =
        { s with choices := c', drawn := d' } := by
      refine inAnyOrder_ind (P := fun t => ∃ c' d', t = { s with choices := c', drawn := d' }) ?_
        (forall_map fun l t ht => ?_) ⟨c, d, rfl⟩
      · rintro t c d ⟨_, _, rfl⟩
        exact ⟨c, d, rfl⟩
      · obtain ⟨c', d', rfl⟩ := ht
        exact ⟨c', d', haltLink_idle (s := { s with choices := c', drawn := d' }) hc l⟩
    refine ⟨c', d', ?_⟩
    show freezeSlots (inAnyOrder _ _) = _
    rw [he]
    exact freezeSlots_of_frozen (s := { s with choices := c', drawn := d' }) (by simp [hslots])
  refine inAnyOrder_ind (P := fun t => ∃ c d, t = { s with choices := c, drawn := d }) ?_ ?_ ⟨s.choices, s.drawn, rfl⟩
  · rintro t c d ⟨_, _, rfl⟩
    exact ⟨c, d, rfl⟩
  · intro f hf t hft
    obtain ⟨c, d, rfl⟩ := hft
    rcases List.mem_append.1 (show f ∈ [withdrawTable, withdrawAll, freezeRoutes] ++ [haltLinks] from hf) with h | h
    · exact ⟨c, d, haltUnits_idle (s := { s with choices := c, drawn := d }) ht hr f h⟩
    · rw [List.mem_singleton.1 h]
      exact hlinks c d

/-- Settles O52: the filled device record by record, and the halt of one that has nothing to give up. -/
theorem imageFillsOrHalts : Obligations.ImageFillsOrHalts := by
  unfold Obligations.ImageFillsOrHalts
  refine ⟨validate_none, fun bs s => ?_⟩
  split
  · next hl =>
    have hrun : exec (.imageReadComplete bs) s = .next (match validate bs with
        | none => enterAwaiting (fillBlocks (imageBytes bs) s)
        | some (item, i) => enterSafeHalt .config (some item) i s) := congrArg Host.Outcome.next (if_pos hl)
    cases hv : validate bs with
    | none =>
      rw [hv] at hrun
      dsimp -zeta only
      refine hrun.trans (congrArg Host.Outcome.next ((enterAwaiting_filled _ _).trans ?_))
      rw [List.map_congr_left fun l _ => newLink_started (imageOf (imageBytes bs)) _ l] <;> rfl
    | some bad =>
      obtain ⟨item, index⟩ := bad
      rw [hv] at hrun
      dsimp -zeta only
      intro halted
      have hs : (s.halted .config (some item) index).dev.state = .safeHalt := rfl
      have hf := halt_frame hs
      refine ⟨_, hrun, hf.dev, hf.sections, hf.points, hf.store, halt_table hs, hf.queue, fun hr ht hslots hc => ?_⟩
      exact halt_idle ht hr hslots hc
  · next hl => exact congrArg Host.Outcome.next (if_neg hl)

end Sys2Proof.Machine

/-!
PROOFS. Two laws about counts and names: the bounds of the stores, and the routes that holders, holds, entries and claims
name. Both are closed under the kinds of change of `StepClosed`. Parts of O57 and O58.
-/

namespace Sys2Proof.Machine

/-! ## The bounds of the stores -/

theorem StoreLaw.of_eq {s t : State} (h : StoreLaw s) (hq : ∀ ch, t.queue ch = s.queue ch) (ht : t.table = s.table)
    (hr : t.routes.map (·.id) = s.routes.map (·.id)) (hl : t.links.map (·.id) = s.links.map (·.id)) : StoreLaw t where
  events ch := by rw [hq]; exact h.events ch
  halves := by rw [ht]; exact h.halves
  tags := by rw [ht]; exact h.tags
  routes := by
    have := congrArg List.length hr
    rw [List.length_map, List.length_map] at this
    rw [this]; exact h.routes
  ids := by rw [hr]; exact h.ids
  links := by rw [hl]; exact h.links

/-- A queue set to one that meets the bounds. -/
theorem StoreLaw.setQueue {s : State} (h : StoreLaw s) (ch : Channel) {q : EventQueue} (hn : q.records.length ≤ 64)
    (hl : q.lost ≤ 65535) : StoreLaw (s.setQueue ch q) := by
  have hq : ∀ c, ((s.setQueue ch q).queue c).records.length ≤ 64 ∧ ((s.setQueue ch q).queue c).lost ≤ 65535 := by
    intro c
    cases ch <;> cases c
    · exact ⟨hn, hl⟩
    · exact h.events .B
    · exact h.events .A
    · exact ⟨hn, hl⟩
  cases ch <;> exact ⟨hq, h.halves, h.tags, h.routes, h.ids, h.links⟩

theorem StoreLaw.emitTo {s : State} (h : StoreLaw s) (ch : Channel) (e : Event) : StoreLaw (emitTo ch e s) :=
  h.setQueue ch (EventQueue.offer_length_le ch s.dev.time e (h.events ch).1)
    (EventQueue.offer_lost_le ch s.dev.time e (h.events ch).1)

theorem StoreLaw.emit {s : State} (h : StoreLaw s) (e : Event) : StoreLaw (emit e s) := (h.emitTo .A e).emitTo .B e

theorem StoreLaw.setTable {s : State} (h : StoreLaw s) {t : List HalfRequest}
    (ht : (t.map HalfRequest.tag).Sublist (s.table.map HalfRequest.tag)) : StoreLaw { s with table := t } where
  events := h.events
  halves := by
    have := ht.length_le
    rw [List.length_map, List.length_map] at this
    exact this.trans h.halves
  tags := h.tags.sublist ht
  routes := h.routes
  ids := h.ids
  links := h.links

theorem ActiveRoute.core_id {x y : ActiveRoute} (h : x.core = y.core) : x.id = y.id := congrArg Prod.fst h

theorem storeLaw_unitClosed : UnitClosed StoreLaw where
  choice _ _ _ h := h.of_eq (fun ch => by cases ch <;> rfl) rfl rfl rfl
  emit _ e h := h.emit e; sections _ _ _ h := h.of_eq (fun ch => by cases ch <;> rfl) rfl rfl rfl
  points _ _ _ h := h.of_eq (fun ch => by cases ch <;> rfl) rfl rfl rfl
  signals _ _ _ h := h.of_eq (fun ch => by cases ch <;> rfl) rfl rfl rfl
  routes _ _ hf h := h.of_eq (fun ch => by cases ch <;> rfl) rfl
    (map_core_eq (fun x => ActiveRoute.core_id (hf x).1) _) rfl
  slots _ _ _ h := h.of_eq (fun ch => by cases ch <;> rfl) rfl rfl rfl
  grant s a _ _ _ h := by
    have h1 : StoreLaw (emit (.permissionGranted (s.defOf a.id).entry a.id) (setPerm (s.defOf a.id).entry (some a.id) s)) :=
      (h.of_eq (t := setPerm (s.defOf a.id).entry (some a.id) s) (fun ch => by cases ch <;> rfl) rfl rfl rfl).emit _
    have h2 := h1.of_eq (t := (emit (.permissionGranted (s.defOf a.id).entry a.id)
        (setPerm (s.defOf a.id).entry (some a.id) s)).mapRoute a.id
        (fun x => { x with state := .permitted, permittedBefore := true })) (fun ch => by cases ch <;> rfl) rfl
      (map_core_eq (fun x => by split <;> rfl) _) rfl
    exact h2.emit _
  dropRoute s r h := by
    have hs : ((s.routes.filter (fun a => a.id != r)).map (·.id)).Sublist (s.routes.map (·.id)) :=
      List.filter_sublist.map _
    exact ⟨h.events, h.halves, h.tags, (List.length_filter_le _ _).trans h.routes, h.ids.sublist hs, h.links⟩

theorem storeLaw_take (s : State) (d : RouteDef) (v : Option Nat) (flanks : List FlankRec) (opts : List Nat)
    (hn : s.routes.length < 32) (hd : ∀ a ∈ s.routes, a.id ≠ d.id) (h : StoreLaw s) :
    StoreLaw (takeRoute d v flanks opts s) := by
  refine takeRoute_ind d v flanks opts s ?_ (fun t ht => ?_) (fun f _ t ht => ?_) (fun t e ht => ?_)
  · exact h.of_eq (fun ch => by cases ch <;> rfl) rfl rfl rfl
  · exact ht.of_eq (fun ch => by cases ch <;> rfl) rfl rfl rfl
  · unfold addClaim; split
    · exact ht.of_eq (fun ch => by cases ch <;> rfl) rfl rfl rfl
    · exact ht.of_eq (fun ch => by cases ch <;> rfl) rfl rfl rfl
  · refine ⟨ht.events, ht.halves, ht.tags, ?_, ?_, ht.links⟩
    · show (t.routes ++ [_]).length ≤ 32
      rw [List.length_append, e]; exact hn
    · show ((t.routes ++ [newRecord d v flanks opts (param 11 s)]).map (·.id)).Nodup
      rw [List.map_append, e]
      refine List.nodup_append.2 ⟨h.ids, List.nodup_singleton _, fun i hi j hj hij => ?_⟩
      obtain ⟨a, ha, rfl⟩ := List.mem_map.1 hi
      exact hd a ha (hij.trans (List.mem_singleton.1 hj))

theorem storeLaw_stepClosed : StepClosed StoreLaw where
  toUnitClosed := storeLaw_unitClosed
  offer _ ch e h := h.emitTo ch e
  drain _ ch _ hn hl h := h.setQueue ch (hn.trans (h.events ch).1) (hl.trans (h.events ch).2); sectionStep _ _ _ h :=
    h.of_eq (fun ch => by cases ch <;> rfl) rfl rfl rfl
  pointStep _ _ _ h := h.of_eq (fun ch => by cases ch <;> rfl) rfl rfl rfl
  signalStep _ _ _ h := h.of_eq (fun ch => by cases ch <;> rfl) rfl rfl rfl
  slotStep _ _ _ h := h.of_eq (fun ch => by cases ch <;> rfl) rfl rfl rfl
  linkStep _ _ hf h := h.of_eq (fun ch => by cases ch <;> rfl) rfl rfl
    (map_core_eq (core := Link.id) (fun x => congrArg Prod.fst (hf x)) _)
  tx _ _ h := h.of_eq (fun ch => by cases ch <;> rfl) rfl rfl rfl
  device _ _ _ h := h.of_eq (fun ch => by cases ch <;> rfl) rfl rfl rfl
  chan _ c _ h := by cases c <;> exact h.of_eq (fun ch => by cases ch <;> rfl) rfl rfl rfl
  port _ c _ h := by cases c <;> exact h.of_eq (fun ch => by cases ch <;> rfl) rfl rfl rfl
  speeds _ _ h := h.of_eq (fun ch => by cases ch <;> rfl) rfl rfl rfl
  count _ _ h := h.of_eq (fun ch => by cases ch <;> rfl) rfl rfl rfl
  table _ _ ht h := h.setTable ht
  half s x hn hx h := by
    refine ⟨h.events, ?_, ?_, h.routes, h.ids, h.links⟩
    · show (s.table ++ [x]).length ≤ 16
      rw [List.length_append]; exact hn
    · show ((s.table ++ [x]).map (·.tag)).Nodup
      rw [List.map_append]
      refine List.nodup_append.2 ⟨h.tags, List.nodup_singleton _, fun i hi j hj hij => ?_⟩
      obtain ⟨y, hy, rfl⟩ := List.mem_map.1 hi
      exact hx y hy (hij.trans (List.mem_singleton.1 hj))
  take s d v flanks opts hn hd h := storeLaw_take s d v flanks opts hn hd h
  blocks s ch h := by
    cases ch <;> exact ⟨fun c => by cases c <;> exact ⟨Nat.zero_le _, Nat.zero_le _⟩, Nat.zero_le _, List.nodup_nil,
      Nat.zero_le _, List.nodup_nil, h.links⟩

theorem storeLaw_kept : StepKept StoreLaw where
  closed := storeLaw_stepClosed
  pending _ _ h := h.of_eq (fun ch => by cases ch <;> rfl) rfl rfl rfl
  loading s _ := ⟨fun c => by cases c <;> exact ⟨Nat.zero_le _, Nat.zero_le _⟩, Nat.zero_le _, List.nodup_nil,
      Nat.zero_le _, List.nodup_nil, rfl⟩
  fill s bs _ h := h.of_eq (fun ch => by cases ch <;> rfl) rfl rfl (by rw [h.links]; rfl)

/-! ## Holders, holds, entries and claims name active routes -/

/-- Every route that a holder, a hold, an entry-of or a claim names is one of `A`. -/
structure Names (A : Nat → Prop) (s : State) : Prop where
  holders : ∀ x ∈ s.sections, ∀ r, x.holder = .route r ∨ x.holder = .overlap r → A r
  points : ∀ x ∈ s.points, ∀ r p, x.hold = .route r p ∨ x.hold = .overlap r p → A r
  entries : ∀ x ∈ s.signals, ∀ r, x.entryOf = some r → A r
  pointClaims : ∀ x ∈ s.points, ∀ c ∈ x.claims, A c.route
  signalClaims : ∀ x ∈ s.signals, ∀ c ∈ x.claims, A c.route

/-- The routes of the Active Route List. -/
def Active (s : State) (r : Nat) : Prop := ∃ a ∈ s.routes, a.id = r

theorem holderLaw_iff {s : State} : HolderLaw s ↔ Names (Active s) s :=
  ⟨fun h => ⟨h.sections, h.points, h.entries, h.pointClaims, h.signalClaims⟩,
    fun h => ⟨h.holders, h.points, h.entries, h.pointClaims, h.signalClaims⟩⟩

section ActiveNames
variable {A : Nat → Prop} {s : State} (h : Names A s)
include h

theorem Names.of_eq {t : State} (e1 : t.sections = s.sections) (e2 : t.points = s.points) (e3 : t.signals = s.signals) :
    Names A t := ⟨e1 ▸ h.holders, e2 ▸ h.points, e3 ▸ h.entries, e2 ▸ h.pointClaims, e3 ▸ h.signalClaims⟩

theorem Names.mono {B : Nat → Prop} (hAB : ∀ r, A r → B r) : Names B s :=
  ⟨fun x hx r e => hAB r (h.holders x hx r e), fun x hx r p e => hAB r (h.points x hx r p e),
    fun x hx r e => hAB r (h.entries x hx r e), fun x hx c hc => hAB _ (h.pointClaims x hx c hc),
    fun x hx c hc => hAB _ (h.signalClaims x hx c hc)⟩

/-- A change of the sections that names no route beside those of `A`. -/
theorem Names.mapSections {f : SectionRec → SectionRec}
    (hf : ∀ x r, (f x).holder = .route r ∨ (f x).holder = .overlap r → (x.holder = .route r ∨ x.holder = .overlap r) ∨ A r) :
    Names A { s with sections := s.sections.map f } :=
  ⟨List.forall_mem_map.2 fun x hx r e => (hf x r e).elim (h.holders x hx r) id, h.points, h.entries, h.pointClaims,
    h.signalClaims⟩

theorem Names.mapPoints {f : PointRec → PointRec}
    (hf : ∀ x r p, (f x).hold = .route r p ∨ (f x).hold = .overlap r p →
      (x.hold = .route r p ∨ x.hold = .overlap r p) ∨ A r)
    (hc : ∀ x, ∀ c ∈ (f x).claims, c ∈ x.claims ∨ A c.route) : Names A { s with points := s.points.map f } :=
  ⟨h.holders, List.forall_mem_map.2 fun x hx r p e => (hf x r p e).elim (h.points x hx r p) id, h.entries,
    List.forall_mem_map.2 fun x hx c e => (hc x c e).elim (h.pointClaims x hx c) id, h.signalClaims⟩

theorem Names.mapSignals {f : SignalRec → SignalRec} (hf : ∀ x r, (f x).entryOf = some r → x.entryOf = some r ∨ A r)
    (hc : ∀ x, ∀ c ∈ (f x).claims, c ∈ x.claims ∨ A c.route) : Names A { s with signals := s.signals.map f } :=
  ⟨h.holders, h.points, List.forall_mem_map.2 fun x hx r e => (hf x r e).elim (h.entries x hx r) id, h.pointClaims,
    List.forall_mem_map.2 fun x hx c e => (hc x c e).elim (h.signalClaims x hx c) id⟩

theorem Names.sectionStep {f : SectionRec → SectionRec} (hf : SectionStep f) :
    Names A { s with sections := s.sections.map f } :=
  h.mapSections fun x r e => by
    rcases (hf x).2.1 with hd | hd | ⟨l, i, hd⟩ <;> rw [hd] at e
    · exact .inl e
    · exact e.elim nofun nofun
    · exact e.elim nofun nofun

theorem Names.pointStep {f : PointRec → PointRec} (hf : PointStep f) : Names A { s with points := s.points.map f } :=
  h.mapPoints (fun x r p e => by
    rcases (hf x).2.1.1 with hd | hd <;> rw [hd] at e
    · exact .inl e
    · exact e.elim nofun nofun) (fun x c hc => .inl ((hf x).2.1.2.subset hc))

theorem Names.signalStep {f : SignalRec → SignalRec} (hf : SignalStep f) : Names A { s with signals := s.signals.map f } :=
  h.mapSignals (fun x r e => by
    rcases (hf x).2.1.1 with hd | hd <;> rw [hd] at e
    · exact .inl e
    · cases e) (fun x c hc => .inl ((hf x).2.1.2.1.subset hc))

end ActiveNames

/-- Where no element is held, entered or claimed nothing is named. -/
theorem names_free {A : Nat → Prop} {s : State} (h1 : ∀ x ∈ s.sections, x.holder = .none)
    (h2 : ∀ x ∈ s.points, x.hold = .none ∧ x.claims = []) (h3 : ∀ x ∈ s.signals, x.entryOf = none ∧ x.claims = []) :
    Names A s where
  holders x hx r e := by rw [h1 x hx] at e; exact e.elim nofun nofun
  points x hx r p e := by rw [(h2 x hx).1] at e; exact e.elim nofun nofun
  entries x hx r e := by rw [(h3 x hx).1] at e; cases e
  pointClaims x hx c hc := by rw [(h2 x hx).2] at hc; cases hc
  signalClaims x hx c hc := by rw [(h3 x hx).2] at hc; cases hc

theorem holderIs_iff {r : Nat} {h : Holder} : holderIs r h = true ↔ h = .route r ∨ h = .overlap r := by
  cases h <;> simp [holderIs]

theorem holdIs_iff {r : Nat} {h : PointHold} : holdIs r h = true ↔ ∃ p, h = .route r p ∨ h = .overlap r p := by
  cases h <;> simp [holdIs]

/-- What a route held, it holds no longer once it is dropped. -/
theorem Names.dropRoute {A : Nat → Prop} {s : State} (h : Names A s) (r : Nat) :
    Names (fun q => A q ∧ q ≠ r) (dropRoute r s) where
  holders := by
    refine List.forall_mem_map.2 fun x hx q e => ?_
    by_cases hr : holderIs r x.holder = true
    · rw [if_pos hr] at e; exact e.elim nofun nofun
    · rw [if_neg hr] at e
      exact ⟨h.holders x hx q e, fun hq => hr (holderIs_iff.2 (hq ▸ e))⟩
  points := by
    refine List.forall_mem_map.2 (List.forall_mem_map.2 fun x hx q p e => ?_)
    by_cases hr : holdIs r x.hold = true
    · rw [if_pos hr] at e; exact e.elim nofun nofun
    · rw [if_neg hr] at e
      exact ⟨h.points x hx q p e, fun hq => hr (holdIs_iff.2 ⟨p, hq ▸ e⟩)⟩
  entries := by
    refine List.forall_mem_map.2 (List.forall_mem_map.2 fun x hx q e => ?_)
    by_cases hr : x.entryOf = some r
    · exact absurd e (by simp [SignalRec.dropClaims, hr])
    · have hq : x.entryOf = some q := by simpa [SignalRec.dropClaims, hr] using e
      exact ⟨h.entries x hx q hq, fun hqr => hr (hqr ▸ hq)⟩
  pointClaims := by
    refine List.forall_mem_map.2 (List.forall_mem_map.2 fun x hx c hc => ?_)
    have hc' := List.mem_filter.1 hc
    refine ⟨h.pointClaims x hx c ?_, by simpa using hc'.2⟩
    have := hc'.1
    split at this <;> exact this
  signalClaims := by
    refine List.forall_mem_map.2 (List.forall_mem_map.2 fun x hx c hc => ?_)
    have hc' : c ∈ (x.dropClaims (fun c => c.route == r)).claims := by
      split at hc <;> exact hc
    obtain ⟨hm, hn⟩ := List.mem_filter.1 hc'
    exact ⟨h.signalClaims x hx c hm, by simpa using hn⟩

theorem HolderLaw.of_eq {s t : State} (h : HolderLaw s) (e1 : t.sections = s.sections) (e2 : t.points = s.points)
    (e3 : t.signals = s.signals) (er : t.routes.map (·.id) = s.routes.map (·.id)) : HolderLaw t := by
  refine holderLaw_iff.2 (((holderLaw_iff.1 h).of_eq e1 e2 e3).mono fun r ⟨a, ha, e⟩ => ?_)
  have hm : r ∈ t.routes.map (·.id) := er ▸ (List.mem_map.2 ⟨a, ha, e⟩)
  exact List.mem_map.1 hm

theorem holderLaw_unitClosed : UnitClosed HolderLaw where
  choice _ _ _ h := h.of_eq rfl rfl rfl rfl
  emit _ _ h := h.of_eq rfl rfl rfl rfl; sections _ _ hf h := holderLaw_iff.2 ((holderLaw_iff.1 h).sectionStep hf.step)
  points _ _ hf h := holderLaw_iff.2 ((holderLaw_iff.1 h).pointStep hf.step)
  signals _ _ hf h := holderLaw_iff.2 ((holderLaw_iff.1 h).signalStep hf.step)
  routes _ _ hf h := h.of_eq rfl rfl rfl (map_core_eq (fun x => ActiveRoute.core_id (hf x).1) _)
  slots _ _ _ h := h.of_eq rfl rfl rfl rfl
  grant s a _ _ _ h := by
    have h1 : HolderLaw { s with signals := s.signals.map (fun x => if x.id = (s.defOf a.id).entry then
        { x with perm := some a.id, watch := SignalRec.watchTimer (param 7 s) { x with perm := some a.id } } else x) } :=
      holderLaw_iff.2 ((holderLaw_iff.1 h).mapSignals (fun x r e => .inl (by split at e <;> exact e))
        (fun x c hc => .inl (by split at hc <;> exact hc)))
    exact h1.of_eq rfl rfl rfl (map_core_eq
      (core := ActiveRoute.id) (f := fun x : ActiveRoute => if x.id = a.id then { x with state := .permitted, permittedBefore := true } else x)
      (fun x => by split <;> rfl) _)
  dropRoute s r h := by
    refine holderLaw_iff.2 (((holderLaw_iff.1 h).dropRoute r).mono ?_)
    rintro q ⟨⟨a, ha, rfl⟩, hq⟩
    exact ⟨a, List.mem_filter.2 ⟨ha, by simpa using hq⟩, rfl⟩

theorem mem_claimsFor {r : Nat} {flanks : List FlankRec} {o : FlankOpt → Bool} {c : Claim} :
    c ∈ claimsFor r flanks o ↔ ∃ g ∈ flanks, o g.opt = true ∧ (⟨r, g.index⟩ : Claim) = c := by
  simp only [claimsFor, List.mem_map, List.mem_filter, and_assoc]

theorem holderLaw_take (s : State) (d : RouteDef) (v : Option Nat) (flanks : List FlankRec) (opts : List Nat)
    (h : HolderLaw s) : HolderLaw (takeRoute d v flanks opts s) := by
  have h0 : Names (fun r => Active s r ∨ r = d.id) s := (holderLaw_iff.1 h).mono fun _ => .inl
  have hclaim : ∀ {o : FlankOpt → Bool} {cs : List Claim}, ∀ c ∈ cs ++ claimsFor d.id flanks o,
      c ∈ cs ∨ (Active s c.route ∨ c.route = d.id) := by
    intro o cs c hc
    refine (List.mem_append.1 hc).imp_right fun hm => ?_
    obtain ⟨g, -, -, rfl⟩ := mem_claimsFor.1 hm
    exact .inr rfl
  rw [takeRoute_taken]
  have h1 := h0.mapSections (f := fun x : SectionRec => { x with
      holder := if x.id ∈ d.secs then .route d.id else if x.id ∈ overlapSecs d v then .overlap d.id else x.holder })
    fun x r e => by
      dsimp only at e
      split_ifs at e
      · exact .inr (.inr (e.elim (fun e => (Holder.route.inj e).symm) nofun))
      · exact .inr (.inr (e.elim nofun (fun e => (Holder.overlap.inj e).symm)))
      · exact .inl e
  have h2 := h1.mapPoints (f := PointRec.taken d v flanks) (fun x r p e => by
      dsimp only [PointRec.taken] at e
      split at e
      · exact .inr (.inr (e.elim (fun e => (PointHold.route.inj e).1.symm) nofun))
      · exact .inr (.inr (e.elim nofun (fun e => (PointHold.overlap.inj e).1.symm)))
      · exact .inl e) (fun x => hclaim)
  have h3 := h2.mapSignals (f := fun x : SignalRec => { x with
      entryOf := if x.id = d.entry then some d.id else x.entryOf
      claims := x.claims ++ claimsFor d.id flanks (fun o => o == .signal x.id) }) (fun x r e => by
      dsimp only at e
      split_ifs at e
      · exact .inr (.inr (Option.some.inj e).symm)
      · exact .inl e) (fun x => hclaim)
  have h4 : Names (fun r => Active s r ∨ r = d.id) (s.taken d v flanks opts) := h3.of_eq rfl rfl rfl
  refine holderLaw_iff.2 (h4.mono ?_)
  rintro r (⟨a, ha, rfl⟩ | rfl)
  · exact ⟨a, List.mem_append_left _ ha, rfl⟩
  · exact ⟨_, List.mem_append_right _ (List.mem_singleton_self _), rfl⟩

theorem holderLaw_stepClosed : StepClosed HolderLaw where
  toUnitClosed := holderLaw_unitClosed
  offer _ ch _ h := by cases ch <;> exact h.of_eq rfl rfl rfl rfl
  drain _ ch _ _ _ h := by cases ch <;> exact h.of_eq rfl rfl rfl rfl
  pointStep _ _ hf h := holderLaw_iff.2 ((holderLaw_iff.1 h).pointStep hf); sectionStep _ _ hf h :=
    holderLaw_iff.2 ((holderLaw_iff.1 h).sectionStep hf)
  signalStep _ _ hf h := holderLaw_iff.2 ((holderLaw_iff.1 h).signalStep hf)
  slotStep _ _ _ h := h.of_eq rfl rfl rfl rfl
  linkStep _ _ _ h := h.of_eq rfl rfl rfl rfl
  tx _ _ h := h.of_eq rfl rfl rfl rfl
  device _ _ _ h := h.of_eq rfl rfl rfl rfl
  chan _ ch _ h := by cases ch <;> exact h.of_eq rfl rfl rfl rfl
  port _ ch _ h := by cases ch <;> exact h.of_eq rfl rfl rfl rfl
  speeds _ _ h := h.of_eq rfl rfl rfl rfl
  count _ _ h := h.of_eq rfl rfl rfl rfl
  table _ _ _ h := h.of_eq rfl rfl rfl rfl
  half _ _ _ _ h := h.of_eq rfl rfl rfl rfl
  take s d v flanks opts _ _ h := holderLaw_take s d v flanks opts h
  blocks s ch h := by
    refine holderLaw_iff.2 ?_
    cases ch <;> exact names_free (List.forall_mem_map.2 fun _ _ => rfl) (List.forall_mem_map.2 fun _ _ => ⟨rfl, rfl⟩)
      (List.forall_mem_map.2 fun _ _ => ⟨rfl, rfl⟩)

theorem holderLaw_kept : StepKept HolderLaw where
  closed := holderLaw_stepClosed
  pending _ _ h := h.of_eq rfl rfl rfl rfl
  loading _ _ := holderLaw_iff.2 (names_free (List.forall_mem_nil _) (List.forall_mem_nil _) (List.forall_mem_nil _))
  fill _ _ _ _ := holderLaw_iff.2 (names_free (List.forall_mem_map.2 fun _ _ => rfl)
    (List.forall_mem_map.2 fun _ _ => ⟨rfl, rfl⟩) (List.forall_mem_map.2 fun _ _ => ⟨rfl, rfl⟩))

end Sys2Proof.Machine

/-!
PROOFS. A finer list of the kinds of change than `StepClosed`: for the laws that relate routes to the elements, the slots, the
channels and the device (R57, R75 to R78, R93, R96, R104, R146). A law of that kind is kept by most changes at once; the rest
put one of its conditions in doubt, and the unit that the change is handed to settles it (R82, R94 to R96, R106). `Fine B K hot`
says that of a law `K` whose conditions in doubt are `hot` and of the part `B` of it that is never in doubt; for a law without
such conditions `B` is `K`. Parts of O57 and O58.
-/

namespace Sys2Proof.Machine

/-! ## Kinds of change -/

/-- What a change can put in doubt: a condition of R94 for the routes that it concerns, whether a route may still be in PERMITTED
with its first section OCCUPIED (R96, R106), and the satisfied flags of the flank entries on an element (R82). -/
inductive Doubt where
  | cond (c : Concern)
  | entry (id r : Nat)
  | flag (id : Nat)

/-- What the laws read of an active route. -/
def ActiveRoute.face (a : ActiveRoute) :
    Nat × Option Nat × RouteState × List Bool × OverlapStatus × List FlankRec × Option SlotRef :=
  (a.id, a.variant, a.state, a.released, a.overlap, a.flanks, a.exitSlot)

/-- The states agree but for the links, the ports, the queues and what else no law of this file reads. -/
structure SameRest (s t : State) : Prop where
  (sections : t.sections = s.sections)
  points : t.points = s.points
  signals : t.signals = s.signals
  store : t.store = s.store
  routes : t.routes = s.routes
  slots : t.slots = s.slots
  table : t.table = s.table
  chanA : t.chanA = s.chanA
  chanB : t.chanB = s.chanB
  dev : t.dev.state = s.dev.state

/-- A lawful change of the channel records and the windows, and of no more. -/
structure ChanStep (s t : State) : Prop where
  eq : t = { s with chanA := t.chanA, chanB := t.chanB, table := t.table }
  lawful : ChannelLaw s → ChannelLaw t

/-- A section that keeps its id and holder. -/
def SectionHolds (f : SectionRec → SectionRec) : Prop := ∀ x, (f x).id = x.id ∧ (f x).holder = x.holder

/-- A point that keeps its id and section, its hold and its claims. -/
def PointHolds (f : PointRec → PointRec) : Prop := ∀ x, (f x).id = x.id ∧ (f x).sec = x.sec ∧ (f x).hold = x.hold
  ∧ (f x).claims = x.claims ∧ (f x).claimPos = x.claimPos

/-- A signal that keeps its id, its entry-of, its claims and its permission. -/
def SignalHolds (f : SignalRec → SignalRec) : Prop := ∀ x, (f x).id = x.id ∧ (f x).entryOf = x.entryOf
  ∧ (f x).claims = x.claims ∧ (f x).perm = x.perm

/-- A slot that keeps its name, its boundary section and its inbound state. -/
def SlotHolds (f : Slot → Slot) : Prop := ∀ x, (f x).ref = x.ref ∧ (f x).bsec = x.bsec ∧ (f x).inb = x.inb

/-- The inbound states that hold a reservation (R146 to R148). -/
def Inbound.Reserves (i : Inbound) : Prop := i = .accepted ∨ i = .acceptedIsolated ∨ i = .receiving

/-- What the availability check and the choice of flank options have found when SET ROUTE takes a route (R46 to R50). -/
structure Takeable (s : State) (d : RouteDef) (v : Option Nat) (flanks : List FlankRec) (opts : List Nat) : Prop where
  found : s.def? d.id = some d
  fresh : s.route? d.id = none
  served : s.dev.state ≠ .loading
  available : availability s d v = none
  chosen : chooseFlanks s d v d.flanks [] [] = .ok (flanks, opts)

/-- A route that enters ENTERED, before its marks are set (R68, R69). -/
def State.enteredBy (s : State) (a : ActiveRoute) : State :=
  (dropEntryOf a.id (withdrawOnly a .entered s)).mapRoute a.id
    (fun x => { x with state := .entered, release := .off, releaseT := 0, saturated := false })

/-- The overlap of a route freed, before that is handed on (R86, R112). -/
def State.overlapFreed (s : State) (kept : Bool) (a : ActiveRoute) : State :=
  (dropClaims (fun c => !kept && guardClaims a .overlap c)
    (dropHolds (fun x => match x.hold with | .overlap q _ => q == a.id | _ => false)
      (dropHolders (fun h => h == .overlap a.id) s))).mapRoute a.id (fun x =>
        let y := { x with overlap := .released, overlapTimer := .off }
        if kept then y else dropGuard .overlap y)

/-- A property kept by every kind of change that puts none of its conditions `hot` in doubt. -/
structure Changes (K : State → Prop) (hot : Doubt → Prop) : Prop where
  rest : ∀ s t, SameRest s t → K s → K t
  (sections : ∀ s f, SectionHolds f → (∀ id x, hot (.cond (.sec id)) ∨ (∃ r, hot (.entry id r)) → s.section? id = some x →
    (f x).status = x.status) → K s → K { s with sections := s.sections.map f })
  points : ∀ s f, PointHolds f → (∀ id x, hot (.cond (.point id)) ∨ hot (.flag id) → s.point? id = some x →
    (f x).status = x.status) → K s → K { s with points := s.points.map f }
  signals : ∀ s f, SignalHolds f → (∀ id x, hot (.cond (.signals [id])) ∨ hot (.flag id) → s.signal? id = some x →
    (f x).status = x.status ∧ (f x).faulted = x.faulted ∧ (f x).mask = x.mask) → K s →
    K { s with signals := s.signals.map f }
  routes : ∀ s f, (∀ a, (f a).face = a.face) → K s → K { s with routes := s.routes.map f }
  slots : ∀ s f, SlotHolds f → (∀ ref x, hot (.cond (.slot ref)) → s.slot? ref = some x → (f x).outb = x.outb) → K s →
    K { s with slots := s.slots.map f }
  device : ∀ s d, (d.state = .loading → s.dev.state = .loading) → (hot (.cond .device) → d.state = s.dev.state) → K s →
    K { s with dev := d }
  chan : ∀ s t, ChanStep s t → (∀ ch, hot (.cond (.channel ch)) → (t.chan ch).state = (s.chan ch).state) → K s → K t
  withdraw : ∀ s a c, ((s.routes.map (·.id)).Nodup → ∃ b, s.route? a.id = some b ∧ b.state = .permitted) → K s →
    K (withdraw a c s)
  grant : ∀ s a, s.route? a.id = some a → a.state = .locked → grantable s a = true → K s → K (grant a s)
  lock : ∀ s a, s.route? a.id = some a → a.state = .calling → K s →
    K (s.mapRoute a.id (fun x => { x with state := .locked, setting := .off }))
  leave : ∀ s a c st, s.route? a.id = some a → (st = .approachHeld ∨ st = .emergencyTiming) → K s →
    K ((withdrawOnly a c s).mapRoute a.id (fun x => { x with state := st }))
  enter : ∀ s a, s.route? a.id = some a → K s → K (s.enteredBy a)
  passEntry : ∀ s a, s.route? a.id = some a → a.state = .emergencyTiming → K s → K (dropEntryOf a.id s)
  drop : ∀ s a, s.route? a.id = some a → a.state ≠ .permitted → K s → K (dropRoute a.id s)
  cancel : ∀ s a c, s.route? a.id = some a → K s → K (dropRoute a.id (withdrawOnly a c s))
  release : ∀ s a id, s.route? a.id = some a → (s.defOf a.id).secs[a.cursor - 1]? = some id → K s → K (s.freed a id)
  overlap : ∀ s a kept, s.route? a.id = some a → K s → K (s.overlapFreed kept a)
  flags : ∀ s id, (∀ r, hot (.cond (.flank [r])) → r ∉ flankChanged s id) → K s →
    K { s with routes := s.routes.map (rederiveFlank s id) }
  accept : ∀ s ref x f, s.slot? ref = some x → (∃ b, s.section? x.bsec = some b ∧ b.holder = .none) →
    (∀ y, (f y).ref = y.ref ∧ (f y).bsec = y.bsec ∧ (f y).outb = y.outb ∧ (f y).inb = .accepted) → K s →
    K ((s.mapSection x.bsec (fun b => { b with holder := .entry ref.link ref.idx })).mapSlot ref f)
  inbound : ∀ s ref x f, s.slot? ref = some x →
    (∀ y, (f y).ref = y.ref ∧ (f y).bsec = y.bsec ∧ (f y).outb = y.outb) →
    (x.inb.Reserves → ∀ y, (f y).inb.Reserves) → K s → K (s.mapSlot ref f)
  leaveInbound : ∀ s ref x b f, s.slot? ref = some x → ((s.slots.map (·.ref)).Nodup → x.bsec = b) →
    (∀ y, (f y).ref = y.ref ∧ (f y).bsec = y.bsec ∧ (f y).outb = y.outb) → K s → K ((dropEntry ref b s).mapSlot ref f)
  take : ∀ s d v flanks opts, Takeable s d v flanks opts → K s → K (takeRoute d v flanks opts s)
  blocks : ∀ s ch, K s → K (resetBlocks ch s)

/-- A change of which the Permission Unit hears as `c` settles these doubts; in SAFE_HALT it ends every permission (R95, R99). -/
def Settles' (c : Concern) (s : State) : Doubt → Prop
  | .cond k => k = c ∨ (∃ gs g, c = .signals gs ∧ k = .signals [g] ∧ g ∈ gs) ∨ (∃ rs r, c = .flank rs ∧ k = .flank [r] ∧ r ∈ rs)
    ∨ s.dev.state = .safeHalt
  | .entry _ _ => s.dev.state = .safeHalt
  | .flag _ => False

/-- A law `K` with the conditions `hot`, and the part `B` of it that no change puts in doubt: the units settle what is. -/
structure Fine (B K : State → Prop) (hot : Doubt → Prop) : Prop where
  base : Changes B (fun _ => False)
  self : Changes K hot
  sub : ∀ s, K s → B s
  perm : ∀ s c δ, hot δ → Settles' c s δ → B s → K (permOn c s)
  flag : ∀ s id, hot (.flag id) → B s → K { s with routes := s.routes.map (rederiveFlank s id) }
  entry : ∀ s id r, hot (.entry id r) → (secStatusIs s id .occupied = true → ∀ a, s.route? r = some a →
    a.state = .permitted → (s.defOf r).secs.head? ≠ some id) → B s → K s
  idle : ∀ s, s.routes = [] → B s → K s

theorem Fine.toBase {B K : State → Prop} {hot : Doubt → Prop} (h : Fine B K hot) : Fine B B (fun _ => False) :=
  ⟨h.base, h.base, fun _ => id, fun _ _ _ e => e.elim, fun _ _ e => e.elim, fun _ _ _ e => e.elim, fun _ _ => id⟩

/-- A law without conditions that a change puts in doubt. -/
theorem Fine.const {B : State → Prop} (h : Changes B (fun _ => False)) : Fine B B (fun _ => False) :=
  ⟨h, h, fun _ => id, fun _ _ _ e => e.elim, fun _ _ e => e.elim, fun _ _ _ e => e.elim, fun _ _ => id⟩

/-! ## Updates of one record -/

section RecordUpdates
variable {K : State → Prop} {hot : Doubt → Prop} (h : Changes K hot)
include h

theorem Changes.choice (s : State) (c : List Nat) (d : Nat) (hs : K s) : K { s with choices := c, drawn := d } :=
  h.rest s _ ⟨rfl, rfl, rfl, rfl, rfl, rfl, rfl, rfl, rfl, rfl⟩ hs

theorem Changes.emitTo (s : State) (ch : Channel) (e : Event) (hs : K s) : K (emitTo ch e s) := by
  cases ch <;> exact h.rest s _ ⟨rfl, rfl, rfl, rfl, rfl, rfl, rfl, rfl, rfl, rfl⟩ hs

theorem Changes.emit (s : State) (e : Event) (hs : K s) : K (emit e s) := h.emitTo _ .B e (h.emitTo _ .A e hs)

theorem Changes.mapRoute {s : State} {r : Nat} {f : ActiveRoute → ActiveRoute} (hf : ∀ a, (f a).face = a.face) (hs : K s) :
    K (s.mapRoute r f) := h.routes s _ (fun a => by split; exacts [hf a, rfl]) hs

theorem Changes.mapSlot {s : State} {ref : SlotRef} {f : Slot → Slot} (hf : SlotHolds f)
    (ho : hot (.cond (.slot ref)) → ∀ x, s.slot? ref = some x → (f x).outb = x.outb) (hs : K s) : K (s.mapSlot ref f) := by
  refine h.slots s _ (fun x => ?_) (fun k x hk hx => ?_) hs
  · split; exacts [hf x, ⟨rfl, rfl, rfl⟩]
  · by_cases hr : x.ref = ref
    · have hkr : k = ref := (slot?_ref hx).symm.trans hr
      subst hkr
      rw [if_pos hr]; exact ho hk x hx
    · rw [if_neg hr]

/-- A change of a slot that leaves its outbound state too. -/
theorem Changes.touchSlot {s : State} {ref : SlotRef} {f : Slot → Slot} (hf : SlotHolds f) (ho : ∀ x, (f x).outb = x.outb)
    (hs : K s) : K (s.mapSlot ref f) := h.mapSlot hf (fun _ x _ => ho x) hs

theorem Changes.mapLink {s : State} {l : Nat} {f : Link → Link} (hs : K s) : K (s.mapLink l f) :=
  h.rest s _ ⟨rfl, rfl, rfl, rfl, rfl, rfl, rfl, rfl, rfl, rfl⟩ hs

theorem Changes.inAnyOrder {fs : List (State → State)} (hf : ∀ f ∈ fs, ∀ s, K s → K (f s)) {s : State} (hs : K s) :
    K (inAnyOrder fs s) := inAnyOrder_ind h.choice hf hs

end RecordUpdates

/-- A route in the list is the one that its id finds. -/
theorem route?_of_mem {s : State} (hn : (s.routes.map (·.id)).Nodup) {a : ActiveRoute} (ha : a ∈ s.routes) :
    s.route? a.id = some a := find?_key (key := ActiveRoute.id) hn ha

theorem route?_mapRoute_other {s : State} {r k : Nat} (hk : r ≠ k) {f : ActiveRoute → ActiveRoute} (hf : ∀ a, (f a).id = a.id) :
    (s.mapRoute r f).route? k = s.route? k := find?_map_other ActiveRoute.id r k hk f hf _

/-! ## The Permission Unit -/

section PermissionUnit
variable {B K : State → Prop} {hot : Doubt → Prop} (h : Fine B K hot)
include h

theorem Fine.permRoute {s : State} (c : Concern) (r : Nat) (hs : K s) : K (permRoute c r s) := by
  unfold Machine.permRoute
  split
  · exact hs
  · next a e =>
    have ha : s.route? a.id = some a := by rw [route?_id e]; exact e
    split
    · exact hs
    · split
      · next hp =>
        split
        · exact h.self.withdraw s a _ (fun _ => ⟨a, ha, hp⟩) hs
        · exact hs
      · split
        · next hg => exact h.self.grant s a ha hg.1 hg.2.2 hs
        · exact hs

/-- Withdrawals of routes in PERMITTED, one after another. -/
theorem Fine.withdrawEach (c : PermCause) : ∀ (as : List ActiveRoute) {s : State},
    ((s.routes.map (·.id)).Nodup → (as.map (·.id)).Nodup ∧ ∀ a ∈ as, ∃ b, s.route? a.id = some b ∧ b.state = .permitted) →
    K s → K (inOrder (as.map (fun a => withdraw a c)) s)
  | [], _, _, hs => hs
  | a :: as, s, ha, hs => by
    have hids : (Machine.withdraw a c s).routes.map (·.id) = s.routes.map (·.id) := by
      rw [withdraw_routes]
      exact map_core_eq (core := ActiveRoute.id) (fun x => by split <;> rfl) _
    refine Fine.withdrawEach c as (fun hn => ?_) (h.self.withdraw s a c (fun hn => (ha hn).2 a List.mem_cons_self) hs)
    obtain ⟨hd, hp⟩ := ha (hids ▸ hn)
    obtain ⟨hna, hd⟩ := List.nodup_cons.1 hd
    refine ⟨hd, fun b hb => ?_⟩
    obtain ⟨x, hx, hxp⟩ := hp b (List.mem_cons_of_mem _ hb)
    have hne : a.id ≠ b.id := fun e => hna (List.mem_map.2 ⟨b, hb, e.symm⟩)
    exact ⟨x, (route?_mapRoute_other (s := s) (r := a.id) hne
      (f := fun x => { x with state := .locked, grantAllowed := false }) (fun _ => rfl)).trans hx, hxp⟩

theorem Fine.withdrawSome {s : State} (c : PermCause) {p : ActiveRoute → Bool} (hp : ∀ a ∈ s.routes, p a = true → a.state = .permitted)
    (hs : K s) : K (inOrder ((s.routes.filter p).map (fun a => withdraw a c)) s) := by
  refine h.withdrawEach c _ (fun hn => ⟨hn.sublist (List.filter_sublist.map _), fun a ha => ?_⟩) hs
  obtain ⟨hm, hpa⟩ := List.mem_filter.1 ha
  exact ⟨a, route?_of_mem hn hm, hp a hm hpa⟩

theorem Fine.withdrawAll {s : State} (hs : K s) : K (withdrawAll s) :=
  h.withdrawSome .deviceState (fun _ _ e => by simpa using e) hs

theorem Fine.withdrawOver {s : State} (g sec : Nat) (hs : K s) : K (withdrawOver g sec s) :=
  h.withdrawSome (.unauthorized g) (fun _ _ e => by simpa using (Bool.and_eq_true_iff.1 e).1) hs

theorem Fine.permOn {s : State} (c : Concern) (hs : K s) : K (permOn c s) := by
  unfold Machine.permOn
  split
  · exact h.withdrawAll hs
  · exact inOrder_ind (forall_map (g := fun a : ActiveRoute => Machine.permRoute c a.id) (fun _ _ => h.permRoute c _)) hs

/-! ## Slots -/

theorem Fine.setPermit {s : State} {ref : SlotRef} {p : Permit} {c : PermitCause} {f : Slot → Slot} (hf : SlotHolds f)
    (ho : ∀ x, (f x).outb = x.outb) (hs : K s) : K (setPermit ref p c f s) :=
  h.self.emit _ _ (h.self.touchSlot (f := fun x => { f x with permit := p }) hf ho hs)

/-- A change of the outbound state is handed to the Permission Unit, which settles what it puts in doubt (R143). -/
theorem Fine.setOutbound {s : State} {ref : SlotRef} {o : Outbound} {c : SlotCause} {f : Slot → Slot} (hf : SlotHolds f)
    (hs : K s) : K (setOutbound ref o c f s) := by
  by_cases hh : hot (.cond (.slot ref))
  · exact h.perm _ _ _ hh (.inl rfl) (h.base.emit _ _ (h.base.mapSlot (f := fun x => { f x with outb := o }) hf nofun (h.sub s hs)))
  · exact h.permOn _ (h.self.emit _ _ (h.self.mapSlot (f := fun x => { f x with outb := o }) hf (fun e => absurd e hh) hs))

theorem Fine.tryOffer {s : State} (ref : SlotRef) (hs : K s) : K (tryOffer ref s) := by
  unfold Machine.tryOffer; repeat' split
  · exact hs
  · exact h.setOutbound (fun _ => ⟨rfl, rfl, rfl⟩) hs
  · exact hs

theorem Fine.loseTransit {s : State} (ref : SlotRef) (hs : K s) : K (loseTransit ref s) :=
  h.self.routes s _ (fun a => by split <;> rfl) hs

theorem Fine.endOutbound {s : State} (ref : SlotRef) (hs : K s) : K (endOutbound ref s) := by
  unfold Machine.endOutbound; repeat' split
  all_goals first
    | exact hs
    | exact h.setOutbound (fun _ => ⟨rfl, rfl, rfl⟩) hs
    | exact h.loseTransit _ (h.setOutbound (fun _ => ⟨rfl, rfl, rfl⟩) hs)

theorem Fine.slotRouteGone {s : State} (c : SlotCause) (ref : SlotRef) (hs : K s) : K (slotRouteGone c ref s) := by
  unfold Machine.slotRouteGone; repeat' split
  all_goals first
    | exact hs
    | exact h.setOutbound (fun _ => ⟨rfl, rfl, rfl⟩) hs
    | exact h.tryOffer _ (h.setOutbound (fun _ => ⟨rfl, rfl, rfl⟩) hs)

omit h in
/-- The acceptance of an offer finds the boundary section without a holder (R146). -/
theorem acceptFail_none_free {s : State} {x : Slot} (ha : acceptFail s x = none) :
    ∃ b, s.section? x.bsec = some b ∧ b.holder = .none := by
  have hf : boundaryFree s x.bsec = true := by
    unfold acceptFail at ha
    repeat' split at ha
    all_goals first | (cases ha; done) | simp_all
  unfold boundaryFree at hf
  split at hf
  · next b e =>
    simp only [Bool.and_eq_true, beq_iff_eq] at hf
    exact ⟨b, e, hf.1.1.2⟩
  · cases hf

theorem Fine.testAcceptance {s : State} (ref : SlotRef) (hs : K s) : K (testAcceptance ref s) := by
  unfold Machine.testAcceptance
  split
  · exact hs
  · next x hx =>
    split
    · next hi =>
      split
      · next hn =>
        exact h.self.emit _ _ (h.self.accept s ref x _ hx (acceptFail_none_free hn) (fun _ => ⟨rfl, rfl, rfl, rfl⟩) hs)
      · split
        · exact hs
        · refine h.self.emit _ _ (h.self.inbound s ref x _ hx (fun _ => ⟨rfl, rfl, rfl⟩) (fun hr => ?_) hs)
          rcases hi.1 with e | e <;> rw [e] at hr <;> exact absurd hr (by simp [Inbound.Reserves])
    · exact hs

theorem Fine.retest {s : State} (ref : SlotRef) (hs : K s) : K (retest ref s) := by
  unfold Machine.retest; repeat' split
  all_goals first | exact hs | exact h.testAcceptance _ hs

theorem Fine.retestOver {s : State} (b : Nat) (hs : K s) : K (retestOver b s) :=
  inOrder_ind (forall_map (g := fun x : Slot => Machine.retest x.ref) (fun _ _ => h.retest _)) hs

theorem Fine.retestAll {s : State} (hs : K s) : K (retestAll s) :=
  inOrder_ind (forall_map (g := fun x : Slot => Machine.retest x.ref) (fun _ _ => h.retest _)) hs

theorem Fine.endInbound {s : State} {ref : SlotRef} {x : Slot} {b : Nat} (c : SlotCause) (hx : s.slot? ref = some x)
    (hb : (s.slots.map (·.ref)).Nodup → x.bsec = b) (hs : K s) : K (endInbound ref b c s) :=
  h.retestOver _ (h.self.emit _ _ (h.self.leaveInbound s ref x b _ hx hb (fun _ => ⟨rfl, rfl, rfl⟩) hs))

theorem Fine.slotOnSection {s : State} {b : Nat} (old : SecStatus) {ref : SlotRef}
    (hb : ∀ x, s.slot? ref = some x → (s.slots.map (·.ref)).Nodup → x.bsec = b) (hs : K s) : K (slotOnSection b old ref s) := by
  unfold Machine.slotOnSection
  split
  · exact hs
  · next x hx =>
    split
    · exact h.self.emit _ _ (h.self.inbound s ref x _ hx (fun _ => ⟨rfl, rfl, rfl⟩) (fun _ _ => .inr (.inr rfl)) hs)
    · split
      · exact h.endInbound _ hx (hb x hx) hs
      · exact h.retest _ hs

/-! ## Drops and releases -/

theorem Fine.handDrops (secs sigs : List Nat) : ∀ f ∈ handDrops secs sigs, ∀ s, K s → K (f s) := by
  intro f hf
  unfold Machine.handDrops at hf
  rcases List.mem_append.1 hf with hf | hf
  · exact forall_map (g := fun b => Machine.retestOver b) (fun _ _ => h.retestOver _) f hf
  · rw [List.mem_singleton.1 hf]; exact fun _ => h.permOn _

/-- What follows once the records of a route are dropped. -/
theorem Fine.removed {s : State} (a : ActiveRoute) (n : RouteNews) (c : RouteCause) (p : Nat) (k : SlotCause)
    (hs : K (dropRoute a.id s)) : K (removeRoute a n c p k s) := by
  refine h.self.inAnyOrder ?_ (h.self.emit _ _ hs)
  intro f hf
  rcases List.mem_append.1 hf with hf | hf
  · exact h.handDrops _ _ f hf
  · split at hf
    · rw [List.mem_singleton.1 hf]; exact fun _ => h.slotRouteGone _ _
    · cases hf

theorem Fine.removeRoute {s : State} {a : ActiveRoute} (n : RouteNews) (c : RouteCause) (p : Nat) (k : SlotCause)
    (ha : s.route? a.id = some a) (hp : a.state ≠ .permitted) (hs : K s) : K (removeRoute a n c p k s) :=
  h.removed a n c p k (h.self.drop s a ha hp hs)

theorem Fine.releaseSection {s : State} {a : ActiveRoute} (ha : s.route? a.id = some a) (hs : K s) :
    K (releaseSection a a.cursor s) := by
  cases hid : (s.defOf a.id).secs[a.cursor - 1]? with
  | none => unfold Machine.releaseSection; dsimp only; rw [hid]; exact hs
  | some id =>
    rw [releaseSection_eq hid]
    exact h.self.inAnyOrder (h.handDrops _ _) (h.self.release s a id ha hid hs)

theorem Fine.freeOverlap {s : State} (kept : Bool) {a : ActiveRoute} (ha : s.route? a.id = some a) (hs : K s) :
    K (freeOverlap kept a s) := h.self.inAnyOrder (h.handDrops _ _) (h.self.overlap s a kept ha hs)

theorem Fine.releaseOverlap {s : State} {a : ActiveRoute} (ha : s.route? a.id = some a) (hs : K s) :
    K (releaseOverlap a s) := by
  obtain ⟨kept, c, d, -, e⟩ := releaseOverlap_free a s
  rw [e]
  exact h.freeOverlap (s := { s with choices := c, drawn := d }) kept ha (h.self.choice s c d hs)

omit h in
theorem hasEntered_not_permitted {a : ActiveRoute} (h : hasEntered a = true) : a.state ≠ .permitted := by
  intro e; simp [hasEntered, e] at h

theorem Fine.testCleared {s : State} (r : Nat) (hs : K s) : K (testCleared r s) := by
  cases hr : s.route? r with
  | none => unfold Machine.testCleared; rw [hr]; exact hs
  | some a =>
    obtain rfl := route?_id hr
    by_cases hg : Gone s a
    · rw [testCleared_gone hr hg]
      exact h.removeRoute _ _ _ _ hr (hasEntered_not_permitted hg.1) hs
    · rw [testCleared_waits hr hg]; exact hs

theorem Fine.routeSectionClear {s : State} (id r : Nat) (hs : K s) : K (routeSectionClear id r s) := by
  unfold Machine.routeSectionClear; dsimp only
  split
  · exact hs
  · next a ha =>
    have ha' : s.route? a.id = some a := by rw [route?_id ha]; exact ha
    repeat' split
    all_goals first | exact hs | exact h.testCleared _ hs | exact h.releaseSection ha' hs

theorem Fine.routeApproachClear {s : State} (id r : Nat) (hs : K s) : K (routeApproachClear id r s) := by
  unfold Machine.routeApproachClear; dsimp only
  split
  · exact hs
  · next a ha =>
    split
    · next hc => exact h.removeRoute _ _ _ _ (by rw [route?_id ha]; exact ha) (by rw [hc.1]; decide) hs
    · exact hs

theorem Fine.startRelease {s : State} (r : Nat) (hs : K s) : K (startRelease r s) :=
  h.self.emit _ _ (h.self.mapRoute (fun _ => rfl) hs)

/-! ## The Route Unit on a change of an element -/

theorem Fine.reportReceived {s : State} (ref : SlotRef) (hs : K s) : K (reportReceived ref s) := by
  have hm : ∀ (t : State), K t → K (t.mapSlot ref (fun y => { y with receivedReported := true })) :=
    fun t ht => h.self.touchSlot (fun _ => ⟨rfl, rfl, rfl⟩) (fun _ => rfl) ht
  unfold Machine.reportReceived; dsimp only; repeat' split
  · exact hs
  · exact hm _ hs
  · exact h.testCleared _ (h.self.mapRoute (fun _ => rfl) (hm _ hs))
  · exact hs

theorem Fine.testTransit {s : State} (ref : SlotRef) (hs : K s) : K (testTransit ref s) := by
  have hm : ∀ c : SlotCause, K (Machine.setOutbound ref .transit c
      (fun y => { y with transit := Timer.start (param 16 s) }) s) :=
    fun c => h.setOutbound (fun _ => ⟨rfl, rfl, rfl⟩) hs
  unfold Machine.testTransit; dsimp only
  split
  · exact hs
  · next x _ =>
    split
    · split
      · exact h.reportReceived _ (hm _)
      · exact hm _
    · exact hs

theorem Fine.markSection {s : State} (r j : Nat) (hs : K s) : K (markSection r j s) := by
  have h1 : K (s.mapRoute r (fun x => { x with marks := x.marks.set j true })) := h.self.mapRoute (fun _ => rfl) hs
  have h2 : K ((s.mapRoute r (fun x => { x with marks := x.marks.set j true })).mapRoute r
      (fun x => { x with overlapTimer := Timer.start (param 10 s) })) := h.self.mapRoute (fun _ => rfl) h1
  unfold Machine.markSection; dsimp only
  split
  · exact hs
  · repeat' split
    all_goals first
      | exact hs | exact h1 | exact h2 | exact h.testCleared _ h1 | exact h.testCleared _ h2 | exact h.self.emit _ _ hs

theorem Fine.markEntry {s : State} (r : Nat) (hs : K s) : K (markEntry r s) := by
  rw [markEntry_eq]
  refine inOrder_ind (forall_map (fun j t ht => ?_)) hs
  unfold entryStep
  repeat' split
  all_goals first | exact ht | exact h.markSection _ _ ht

theorem Fine.handEntry {s : State} (a : ActiveRoute) (hs : K s) : K (handEntry a s) := by
  unfold Machine.handEntry; split
  · exact h.testTransit _ hs
  · exact hs

/-- What follows once a route is in ENTERED. -/
theorem Fine.entered {s : State} (a : ActiveRoute) (hs : K (s.enteredBy a)) : K (enterRoute a s) :=
  h.handEntry _ (h.markEntry _ (h.self.emit _ _ hs))

theorem Fine.enterEmergency {s : State} {a : ActiveRoute} (ha : s.route? a.id = some a) (hp : a.state = .emergencyTiming)
    (hs : K s) : K (enterEmergency a s) := h.handEntry _ (h.markEntry _ (h.self.passEntry s a ha hp hs))

theorem Fine.recordGap {s : State} (id r : Nat) (hs : K s) : K (recordGap id r s) :=
  h.self.mapRoute (fun _ => rfl) (h.self.emit _ _ hs)

theorem Fine.routeSectionOccupied {s : State} (id r : Nat) (hs : K s) : K (routeSectionOccupied id r s) := by
  unfold Machine.routeSectionOccupied
  split
  · exact hs
  · next a ha =>
    have ha' : s.route? a.id = some a := by rw [route?_id ha]; exact ha
    dsimp only
    split
    · exact hs
    · split
      · exact h.entered a (h.self.enter s a ha' hs)
      · split
        · next hc => exact h.enterEmergency ha' hc.2.1 hs
        · split
          · refine h.markSection _ _ ?_
            split
            · exact h.recordGap _ _ hs
            · exact hs
          · exact hs

/-- The occupation of its first section takes a route out of PERMITTED (R68, R106). -/
theorem Fine.routeSectionOccupied_settles {s : State} {id r : Nat} (hh : hot (.entry id r)) (hs : B s) :
    K (Machine.routeSectionOccupied id r s) := by
  cases ha : s.route? r with
  | none =>
    exact h.routeSectionOccupied id r (h.entry s id r hh (fun _ a e => by rw [ha] at e; cases e) hs)
  | some a =>
    obtain rfl := route?_id ha
    by_cases hc : a.state = .permitted ∧ (s.defOf a.id).secs.head? = some id
    · have hj : (s.defOf a.id).secs.findIdx? (fun i => i == id) = some 0 := by
        cases hl : (s.defOf a.id).secs with
        | nil => rw [hl] at hc; cases hc.2
        | cons i is =>
          rw [hl] at hc
          simp [List.findIdx?_cons, Option.some.inj hc.2]
      have he : Machine.routeSectionOccupied id a.id s = enterRoute a s := by
        unfold Machine.routeSectionOccupied
        rw [ha]; dsimp only
        rw [hj]
        exact if_pos ⟨rfl, .inl hc.1⟩
      rw [he]
      refine h.entered a (h.entry _ id a.id hh (fun _ b hb hp => ?_) (h.base.enter s a ha hs))
      have hb' : ((dropEntryOf a.id (withdrawOnly a .entered s)).route? a.id).map
          (fun x : ActiveRoute => { x with state := .entered, release := .off, releaseT := 0, saturated := false }) = some b :=
        (route?_map (s := dropEntryOf a.id (withdrawOnly a .entered s))
          (f := fun x => { x with state := .entered, release := .off, releaseT := 0, saturated := false }) (fun _ => rfl)).symm.trans hb
      obtain ⟨c, -, rfl⟩ := Option.map_eq_some_iff.1 hb'
      cases hp
    · refine h.routeSectionOccupied id a.id (h.entry s id a.id hh (fun _ b e hp hn => hc ?_) hs)
      rw [ha] at e
      obtain rfl := Option.some.inj e
      exact ⟨hp, hn⟩

theorem Fine.lockRoute {s : State} {a : ActiveRoute} (ha : s.route? a.id = some a) (hc : a.state = .calling) (hs : K s) :
    K (lockRoute a s) := by
  refine h.self.inAnyOrder ?_ (h.self.emit _ _ (h.self.lock s a ha hc hs))
  intro f hf
  rcases List.mem_cons.1 hf with rfl | hf
  · exact fun _ => h.permOn _
  · split at hf
    · rw [List.mem_singleton.1 hf]; exact fun _ => h.tryOffer _
    · cases hf

theorem Fine.testProven {s : State} (r : Nat) (hs : K s) : K (testProven r s) := by
  unfold Machine.testProven
  split
  · exact hs
  · next a ha =>
    split
    · next hc => exact h.lockRoute (by rw [route?_id ha]; exact ha) hc.1 hs
    · exact hs

theorem Fine.abandonRoute {s : State} (c : RouteCause) (p r : Nat) (hs : K s) : K (abandonRoute c p r s) := by
  unfold Machine.abandonRoute
  split
  · exact hs
  · next a ha =>
    split
    · next hc => exact h.removeRoute _ _ _ _ (by rw [route?_id ha]; exact ha) (by rw [hc]; decide) hs
    · exact hs

theorem Fine.routesOnSection {s : State} (id : Nat) (old : SecStatus) (hs : K s) : K (routesOnSection id old s) := by
  unfold Machine.routesOnSection; repeat' split
  · exact h.self.inAnyOrder (forall_map (fun _ _ => h.routeSectionOccupied _ _)) hs
  · exact h.self.inAnyOrder (forall_map (fun _ _ ht => h.routeSectionClear _ _ (h.routeApproachClear _ _ ht))) hs
  · exact hs
  · exact hs

theorem Fine.routesOnPoint {s : State} (id : Nat) (hs : K s) : K (routesOnPoint id s) := by
  unfold Machine.routesOnPoint; split
  · exact h.self.inAnyOrder (forall_map (fun _ _ => h.testProven _)) hs
  · exact hs

theorem Fine.routesOnMoveFailed {s : State} (id : Nat) (p : Pos) (hs : K s) : K (routesOnMoveFailed id p s) := by
  unfold Machine.routesOnMoveFailed; split
  · exact h.self.inAnyOrder (forall_map (fun _ _ => h.abandonRoute _ _ _)) hs
  · exact hs

/-- The Flank Unit hands on the flanks that it changes, which settles what that puts in doubt (R82). -/
theorem Fine.flanksOn {s : State} (id : Nat) (hs : K s) : K (flanksOn id s) := by
  have ho : ∀ t, K t → K (if (flankChanged s id).isEmpty then t else Machine.permOn (.flank (flankChanged s id)) t) := by
    intro t ht; split
    · exact ht
    · exact h.permOn _ ht
  by_cases hh : ∃ r, hot (.cond (.flank [r])) ∧ r ∈ flankChanged s id
  · obtain ⟨r, hr, hm⟩ := hh
    have : ¬ (flankChanged s id).isEmpty = true := by rw [List.isEmpty_iff]; exact List.ne_nil_of_mem hm
    show K (if (flankChanged s id).isEmpty then _ else _)
    rw [if_neg this]
    exact h.perm _ _ _ hr (.inr (.inr (.inl ⟨_, r, rfl, rfl, hm⟩))) (h.base.flags s id nofun (h.sub s hs))
  · exact ho _ (h.self.flags s id (fun r hr hm => hh ⟨r, hr, hm⟩) hs)

theorem Fine.flanksOn_settles {s : State} {id : Nat} (hh : hot (.flag id)) (hs : B s) : K (Machine.flanksOn id s) := by
  show K (if (flankChanged s id).isEmpty then _ else _)
  split
  · exact h.flag s id hh hs
  · exact h.permOn _ (h.flag s id hh hs)

theorem Fine.slotsOnSection {s : State} (id : Nat) (old : SecStatus) (hs : K s) : K (slotsOnSection id old s) := by
  unfold Machine.slotsOnSection; split
  · refine (inOrder_ind (P := fun t => K t ∧ Reacts s t) (fun f hf t ht => ?_) ⟨hs, Reacts.refl s⟩).1
    obtain ⟨x, hx, rfl⟩ := List.mem_map.1 hf
    obtain ⟨hm, hb⟩ := List.mem_filter.1 hx
    refine ⟨h.testTransit _ (h.slotOnSection _ (fun y hy hn => ?_) ht.1),
      (reacts_closed s).testTransit _ ((reacts_closed s).slotOnSection _ _ _ ht.2)⟩
    have hc : t.slots.map Slot.core = s.slots.map Slot.core := ht.2.slots
    have hrefs : t.slots.map (·.ref) = s.slots.map (·.ref) := by
      have := congrArg (List.map Slot.ref) hc
      rwa [List.map_map, List.map_map] at this
    obtain ⟨z, hz, ez⟩ := List.mem_map.1 (hc ▸ List.mem_map_of_mem (f := Slot.core) (List.mem_of_find?_eq_some hy))
    have hzr : z.ref = y.ref := (congrArg Slot.ref ez : z.core.ref = y.core.ref)
    have hzx : z = x := by
      have := List.inj_on_of_nodup_map (hrefs ▸ hn) hz hm (hzr.trans (slot?_ref hy))
      exact this
    have hbs : z.bsec = y.bsec := (congrArg Slot.bsec ez : z.core.bsec = y.core.bsec)
    rw [← hbs, hzx]; simpa using hb
  · exact hs

end PermissionUnit

end Sys2Proof.Machine

/-!
PROOFS. The work of the Element Table and of the Route Unit keeps every law that is `Fine`: a change of an agreed status puts
conditions in doubt, and the handing on that follows it settles them (R15, R82, R95, R96, R106). Parts of O57 and O58.
-/

namespace Sys2Proof.Machine

/-! ## Handing on -/

/-- What a change of a section's status puts in doubt. -/
def Doubt.OfSection (id : Nat) (δ : Doubt) : Prop := δ = .cond (.sec id) ∨ ∃ r, δ = .entry id r

def Doubt.OfPoint (id : Nat) (δ : Doubt) : Prop := δ = .cond (.point id) ∨ δ = .flag id

def Doubt.OfSignal (id : Nat) (δ : Doubt) : Prop := δ = .cond (.signals [id]) ∨ δ = .flag id

theorem Reacts.secStatusIs {u t : State} (h : Reacts u t) (id : Nat) (st : SecStatus) :
    secStatusIs t id st = secStatusIs u id st := by
  unfold Machine.secStatusIs
  have hr := h.section?_rel id
  generalize u.section? id = o at hr
  generalize t.section? id = p at hr
  cases hr with
  | none => rfl
  | @some x y hc =>
    have hs : y.status = x.status := (congrArg SectionRec.status hc : y.core.status = x.core.status)
    dsimp only; rw [hs]

theorem Reacts.devState {u t : State} (h : Reacts u t) : t.dev.state = u.dev.state := by rw [h.dev]

section HandingOn
variable {B K : State → Prop} {hot : Doubt → Prop} (h : Fine B K hot)
include h

/-- Work handed on in some order settles a doubt that one of its parts settles. -/
theorem Fine.settles_inAnyOrder {fs : List (State → State)} {f : State → State} {s : State} (hf : f ∈ fs)
    (hr : ∀ g ∈ fs, ∀ t, Reacts s t → Reacts s (g t)) (hB : ∀ g ∈ fs, ∀ t, B t → B (g t)) (hK : ∀ g ∈ fs, ∀ t, K t → K (g t))
    (hset : ∀ t, Reacts s t → B t → K (f t)) (hs : B s) : K (Machine.inAnyOrder fs s) :=
  inAnyOrder_reach (P := fun t => Reacts s t ∧ B t) (Q := K)
    (fun t c d ht => ⟨(reacts_closed s).choice t c d ht.1, h.base.choice t c d ht.2⟩) (fun t c d ht => h.self.choice t c d ht) hf
    (fun g hg t ht => ⟨hr g hg t ht.1, hB g hg t ht.2⟩) (fun t ht => hset t ht.1 ht.2) (fun g hg t _ ht => hK g hg t ht)
    ⟨Reacts.refl s, hs⟩

theorem Fine.handSection_units (id : Nat) (old : SecStatus) :
    ∀ f ∈ [Machine.routesOnSection id old, Machine.permOn (.sec id), Machine.slotsOnSection id old], ∀ s, K s → K (f s) := by
  simp only [List.mem_cons, List.not_mem_nil, or_false]
  rintro f (rfl | rfl | rfl) t ht
  · exact h.routesOnSection _ _ ht
  · exact h.permOn _ ht
  · exact h.slotsOnSection _ _ ht

theorem Fine.handPoint_units (id : Nat) :
    ∀ f ∈ [Machine.routesOnPoint id, Machine.permOn (.point id), Machine.flanksOn id], ∀ s, K s → K (f s) := by
  simp only [List.mem_cons, List.not_mem_nil, or_false]
  rintro f (rfl | rfl | rfl) t ht
  · exact h.routesOnPoint _ ht
  · exact h.permOn _ ht
  · exact h.flanksOn _ ht

theorem Fine.handSignal_units (id : Nat) :
    ∀ f ∈ [Machine.permOn (.signals [id]), Machine.flanksOn id], ∀ s, K s → K (f s) := by
  simp only [List.mem_cons, List.not_mem_nil, or_false]
  rintro f (rfl | rfl) t ht
  · exact h.permOn _ ht
  · exact h.flanksOn _ ht

theorem Fine.handSection {s : State} (id : Nat) (old : SecStatus) (hs : K s) : K (handSection id old s) :=
  h.self.inAnyOrder (h.handSection_units id old) hs

theorem Fine.handPoint {s : State} (id : Nat) (hs : K s) : K (handPoint id s) :=
  h.self.inAnyOrder (h.handPoint_units id) hs

theorem Fine.handSignal {s : State} (id : Nat) (hs : K s) : K (handSignal id s) :=
  h.self.inAnyOrder (h.handSignal_units id) hs

/-- The Route Unit settles whether a route may be in PERMITTED with its first section OCCUPIED (R68, R106). -/
theorem Fine.routesOnSection_settles {s : State} {id r : Nat} {old : SecStatus} (hh : hot (.entry id r))
    (hd : s.dev.state ≠ .safeHalt) (ho : old ≠ .occupied ∨ secStatusIs s id .occupied = false) (hs : B s) :
    K (Machine.routesOnSection id old s) := by
  by_cases hocc : secStatusIs s id .occupied = true ∧ ∃ a ∈ s.routes, a.id = r
  · obtain ⟨hocc, a, ha, rfl⟩ := hocc
    have hold : old ≠ .occupied := ho.resolve_right (by rw [hocc]; decide)
    unfold Machine.routesOnSection
    rw [if_pos (show routesServed s = true by simpa [routesServed] using hd), if_pos ⟨hocc, hold⟩]
    exact inAnyOrder_reach (P := B) (Q := K) (h.base.choice) (h.self.choice) (List.mem_map_of_mem ha)
      (forall_map (g := fun b : ActiveRoute => Machine.routeSectionOccupied id b.id) (fun _ _ => h.toBase.routeSectionOccupied _ _))
      (fun t ht => h.routeSectionOccupied_settles hh ht)
      (fun g hg t _ ht => forall_map (g := fun b : ActiveRoute => Machine.routeSectionOccupied id b.id)
        (fun _ _ => h.routeSectionOccupied _ _) g hg t ht) hs
  · refine h.routesOnSection _ _ (h.entry s id r hh (fun hs' a ha _ => absurd ⟨hs', a, ?_, route?_id ha⟩ hocc) hs)
    exact List.mem_of_find?_eq_some ha

theorem Fine.handSection_settles {s : State} {id : Nat} {old : SecStatus} {δ : Doubt} (hh : hot δ) (hδ : δ.OfSection id)
    (ho : old ≠ .occupied ∨ secStatusIs s id .occupied = false) (hs : B s) : K (Machine.handSection id old s) := by
  have hr : ∀ f ∈ [Machine.routesOnSection id old, Machine.permOn (.sec id), Machine.slotsOnSection id old], ∀ t,
      Reacts s t → Reacts s (f t) := by
    simp only [List.mem_cons, List.not_mem_nil, or_false]
    rintro f (rfl | rfl | rfl) t ht
    · exact (reacts_closed s).routesOnSection _ _ ht
    · exact (reacts_closed s).permOn _ ht
    · exact (reacts_closed s).slotsOnSection _ _ ht
  by_cases hp : δ = .cond (.sec id) ∨ s.dev.state = .safeHalt
  · refine h.settles_inAnyOrder (f := Machine.permOn (.sec id)) (by simp) hr (h.toBase.handSection_units id old)
      (h.handSection_units id old) (fun t ht hb => h.perm t _ δ hh ?_ hb) hs
    rcases hδ with rfl | ⟨r, rfl⟩
    · exact .inl rfl
    · rcases hp with e | e
      · cases e
      · exact ht.devState.trans e
  · obtain ⟨hn, hd⟩ := not_or.1 hp
    obtain ⟨r, rfl⟩ := hδ.resolve_left hn
    refine h.settles_inAnyOrder (f := Machine.routesOnSection id old) (by simp) hr (h.toBase.handSection_units id old)
      (h.handSection_units id old) (fun t ht hb => h.routesOnSection_settles hh (by rwa [ht.devState]) ?_ hb) hs
    rwa [ht.secStatusIs]

theorem Fine.handPoint_settles {s : State} {id : Nat} {δ : Doubt} (hh : hot δ) (hδ : δ.OfPoint id) (hs : B s) :
    K (Machine.handPoint id s) := by
  have hr : ∀ f ∈ [Machine.routesOnPoint id, Machine.permOn (.point id), Machine.flanksOn id], ∀ t,
      Reacts s t → Reacts s (f t) := by
    simp only [List.mem_cons, List.not_mem_nil, or_false]
    rintro f (rfl | rfl | rfl) t ht
    · exact (reacts_closed s).routesOnPoint _ ht
    · exact (reacts_closed s).permOn _ ht
    · exact (reacts_closed s).flanksOn _ ht
  rcases hδ with rfl | rfl
  · exact h.settles_inAnyOrder (f := Machine.permOn (.point id)) (by simp) hr (h.toBase.handPoint_units id)
      (h.handPoint_units id) (fun t _ hb => h.perm t _ _ hh (.inl rfl) hb) hs
  · exact h.settles_inAnyOrder (f := Machine.flanksOn id) (by simp) hr (h.toBase.handPoint_units id)
      (h.handPoint_units id) (fun t _ hb => h.flanksOn_settles hh hb) hs

theorem Fine.handSignal_settles {s : State} {id : Nat} {δ : Doubt} (hh : hot δ) (hδ : δ.OfSignal id) (hs : B s) :
    K (Machine.handSignal id s) := by
  have hr : ∀ f ∈ [Machine.permOn (.signals [id]), Machine.flanksOn id], ∀ t, Reacts s t → Reacts s (f t) := by
    simp only [List.mem_cons, List.not_mem_nil, or_false]
    rintro f (rfl | rfl) t ht
    · exact (reacts_closed s).permOn _ ht
    · exact (reacts_closed s).flanksOn _ ht
  rcases hδ with rfl | rfl
  · exact h.settles_inAnyOrder (f := Machine.permOn (.signals [id])) (by simp) hr (h.toBase.handSignal_units id)
      (h.handSignal_units id) (fun t _ hb => h.perm t _ _ hh (.inl rfl) hb) hs
  · exact h.settles_inAnyOrder (f := Machine.flanksOn id) (by simp) hr (h.toBase.handSignal_units id)
      (h.handSignal_units id) (fun t _ hb => h.flanksOn_settles hh hb) hs

/-! ## Changes of one element -/

omit h in
/-- The law stands, or a change of the section found as `x` has put it in doubt and is seen by who compares with `x`. -/
def SectionOpen (B K : State → Prop) (hot : Doubt → Prop) (x : SectionRec) (t : State) : Prop :=
  K t ∨ (B t ∧ (∃ δ, hot δ ∧ δ.OfSection x.id) ∧ ∃ y, t.section? x.id = some y ∧ y.status ≠ x.status)

omit h in
def PointOpen (B K : State → Prop) (hot : Doubt → Prop) (id : Nat) (t : State) : Prop :=
  K t ∨ (B t ∧ ∃ δ, hot δ ∧ δ.OfPoint id)

omit h in
def SignalOpen (B K : State → Prop) (hot : Doubt → Prop) (x : SignalRec) (t : State) : Prop :=
  K t ∨ (B t ∧ (∃ δ, hot δ ∧ δ.OfSignal x.id) ∧ ∃ y, t.signal? x.id = some y
    ∧ (y.status ≠ x.status ∨ y.faulted ≠ x.faulted ∨ y.mask ≠ x.mask))

theorem Fine.changeSection {s : State} {x : SectionRec} {f : SectionRec → SectionRec} (hf : SectionHolds f)
    (hx : s.section? x.id = some x) (hs : K s) : SectionOpen B K hot x (s.mapSection x.id f) := by
  have hy : (s.mapSection x.id f).section? x.id = some (f x) := sectionLookup_mapped f (fun y => (hf y).1) hx
  have hi : SectionHolds (fun y => if y.id = x.id then f y else y) := fun y => by
    dsimp only; split; exacts [hf y, ⟨rfl, rfl⟩]
  by_cases hc : (∃ δ, hot δ ∧ δ.OfSection x.id) ∧ (f x).status ≠ x.status
  · exact .inr ⟨h.base.sections s _ hi (fun _ _ e => e.elim (fun e => e.elim) (fun ⟨_, e⟩ => e.elim)) (h.sub s hs), hc.1, f x, hy, hc.2⟩
  · refine .inl (h.self.sections s _ hi (fun id z hz ez => ?_) hs)
    by_cases hid : z.id = x.id
    · rw [if_pos hid]
      have hzid : id = x.id := (sectionLookup_id ez).symm.trans hid
      subst hzid
      obtain rfl := Option.some.inj (hx.symm.trans ez)
      by_contra hne
      refine hc ⟨?_, hne⟩
      rcases hz with hz | ⟨r, hz⟩
      · exact ⟨_, hz, .inl rfl⟩
      · exact ⟨_, hz, .inr ⟨r, rfl⟩⟩
    · rw [if_neg hid]

theorem Fine.changePoint {s : State} {id : Nat} {f : PointRec → PointRec} (hf : PointHolds f) (hs : K s) :
    PointOpen B K hot id (s.mapPoint id f) := by
  have hi : PointHolds (fun y => if y.id = id then f y else y) := fun y => by
    dsimp only; split; exacts [hf y, ⟨rfl, rfl, rfl, rfl, rfl⟩]
  by_cases hc : ∃ δ, hot δ ∧ δ.OfPoint id
  · exact .inr ⟨h.base.points s _ hi (fun _ _ e => e.elim (fun e => e.elim) (fun e => e.elim)) (h.sub s hs), hc⟩
  · refine .inl (h.self.points s _ hi (fun k z hz ez => ?_) hs)
    by_cases hid : z.id = id
    · have hzid : k = id := (point?_id ez).symm.trans hid
      subst hzid
      exact absurd (hz.elim (fun e => ⟨_, e, .inl rfl⟩) (fun e => ⟨_, e, .inr rfl⟩)) hc
    · rw [if_neg hid]

/-- A change of a point that keeps its agreed status. -/
theorem Fine.keepPoint {s : State} {id : Nat} {f : PointRec → PointRec} (hf : PointHolds f)
    (hst : ∀ x, s.point? id = some x → (f x).status = x.status) (hs : K s) : K (s.mapPoint id f) := by
  refine h.self.points s _ (fun y => ?_) (fun k z _ ez => ?_) hs
  · split; exacts [hf y, ⟨rfl, rfl, rfl, rfl, rfl⟩]
  · by_cases hid : z.id = id
    · rw [if_pos hid]
      have hzid : k = id := (point?_id ez).symm.trans hid
      subst hzid
      exact hst z ez
    · rw [if_neg hid]

theorem Fine.changeSignal {s : State} {x : SignalRec} {f : SignalRec → SignalRec} (hf : SignalHolds f)
    (hx : s.signal? x.id = some x) (hs : K s) : SignalOpen B K hot x (s.mapSignal x.id f) := by
  have hy : (s.mapSignal x.id f).signal? x.id = some (f x) := signal?_mapped f (fun y => (hf y).1) hx
  have hi : SignalHolds (fun y => if y.id = x.id then f y else y) := fun y => by
    dsimp only; split; exacts [hf y, ⟨rfl, rfl, rfl, rfl⟩]
  by_cases hc : (∃ δ, hot δ ∧ δ.OfSignal x.id)
      ∧ ((f x).status ≠ x.status ∨ (f x).faulted ≠ x.faulted ∨ (f x).mask ≠ x.mask)
  · exact .inr ⟨h.base.signals s _ hi (fun _ _ e => e.elim (fun e => e.elim) (fun e => e.elim)) (h.sub s hs), hc.1, f x, hy, hc.2⟩
  · refine .inl (h.self.signals s _ hi (fun id z hz ez => ?_) hs)
    by_cases hid : z.id = x.id
    · rw [if_pos hid]
      have hzid : id = x.id := (signal?_id ez).symm.trans hid
      subst hzid
      obtain rfl := Option.some.inj (hx.symm.trans ez)
      by_contra hne
      refine hc ⟨hz.elim (fun e => ⟨_, e, .inl rfl⟩) (fun e => ⟨_, e, .inr rfl⟩), ?_⟩
      by_contra hn
      obtain ⟨h1, h2⟩ := not_or.1 hn
      obtain ⟨h2, h3⟩ := not_or.1 h2
      exact hne ⟨not_not.1 h1, not_not.1 h2, not_not.1 h3⟩
    · rw [if_neg hid]; exact ⟨rfl, rfl, rfl⟩

omit h in
theorem SectionOpen.react {x : SectionRec} {t u : State} (ho : SectionOpen B K hot x t) (hr : Reacts t u) (hK : K t → K u)
    (hB : B t → B u) : SectionOpen B K hot x u := by
  refine ho.imp hK fun ⟨hb, hδ, y, hy, hne⟩ => ⟨hB hb, hδ, ?_⟩
  have hrel := hr.section?_rel x.id
  rw [hy] at hrel
  cases hz : u.section? x.id with
  | none => rw [hz] at hrel; cases hrel
  | some z =>
    rw [hz] at hrel
    cases hrel with
    | some hc => exact ⟨z, rfl, fun e => hne ((congrArg SectionRec.status hc).symm.trans e)⟩

omit h in
theorem SignalOpen.react {x : SignalRec} {t u : State} (ho : SignalOpen B K hot x t) (hr : Reacts t u) (hK : K t → K u)
    (hB : B t → B u) : SignalOpen B K hot x u := by
  refine ho.imp hK fun ⟨hb, hδ, y, hy, hne⟩ => ⟨hB hb, hδ, ?_⟩
  have hrel := hr.signal?_rel x.id
  rw [hy] at hrel
  cases hz : u.signal? x.id with
  | none => rw [hz] at hrel; cases hrel
  | some z =>
    rw [hz] at hrel
    cases hrel with
    | some hc =>
      refine ⟨z, rfl, hne.imp (fun n e => n ?_) (Or.imp (fun n e => n ?_) (fun n e => n ?_))⟩
      · exact (congrArg SignalRec.status hc).symm.trans e
      · exact (congrArg SignalRec.faulted hc).symm.trans e
      · exact (congrArg SignalRec.mask hc).symm.trans e

theorem Fine.emitSection {x : SectionRec} {t : State} (e : Event) (ho : SectionOpen B K hot x t) :
    SectionOpen B K hot x (emit e t) :=
  ho.react ((reacts_closed t).emit _ _ (Reacts.refl t)) (h.self.emit t e) (h.base.emit t e)

theorem Fine.emitSignal {x : SignalRec} {t : State} (e : Event) (ho : SignalOpen B K hot x t) :
    SignalOpen B K hot x (emit e t) :=
  ho.react ((reacts_closed t).emit _ _ (Reacts.refl t)) (h.self.emit t e) (h.base.emit t e)

theorem Fine.emitPoint {id : Nat} {t : State} (e : Event) (ho : PointOpen B K hot id t) : PointOpen B K hot id (emit e t) :=
  ho.imp (h.self.emit t e) fun ⟨hb, hδ⟩ => ⟨h.base.emit t e hb, hδ⟩

theorem Fine.sectionChanged {t : State} (x : SectionRec) (ht : K t) : K (sectionChanged x t) := by
  unfold Machine.sectionChanged handSectionFlags; repeat' split
  all_goals first | exact ht | exact h.handSection _ _ ht | exact h.retestOver _ ht

theorem Fine.signalChanged {t : State} (x : SignalRec) (ht : K t) : K (signalChanged x t) := by
  unfold Machine.signalChanged; repeat' split
  all_goals first | exact ht | exact h.handSignal _ ht

theorem Fine.closeSection {t : State} {x : SectionRec} (ho : SectionOpen B K hot x t) : K (Machine.sectionChanged x t) := by
  rcases ho with ht | ⟨hb, ⟨δ, hh, hδ⟩, y, hy, hne⟩
  · exact h.sectionChanged x ht
  · unfold Machine.sectionChanged
    rw [hy]; dsimp only
    rw [if_pos hne]
    refine h.handSection_settles hh hδ ?_ hb
    by_cases hold : x.status = .occupied
    · refine .inr ?_
      unfold secStatusIs
      rw [hy]; dsimp only
      rw [beq_eq_false_iff_ne]
      exact fun e => hne (e.trans hold.symm)
    · exact .inl hold

theorem Fine.closeSignal {t : State} {x : SignalRec} (ho : SignalOpen B K hot x t) : K (Machine.signalChanged x t) := by
  rcases ho with ht | ⟨hb, ⟨δ, hh, hδ⟩, y, hy, hne⟩
  · exact h.signalChanged x ht
  · unfold Machine.signalChanged
    rw [hy]; dsimp only
    rw [if_pos hne]
    exact h.handSignal_settles hh hδ hb

theorem Fine.closePoint {t : State} {id : Nat} (ho : PointOpen B K hot id t) : K (Machine.handPoint id t) := by
  rcases ho with ht | ⟨hb, δ, hh, hδ⟩
  · exact h.handPoint id ht
  · exact h.handPoint_settles hh hδ hb

/-- A change of a signal that is handed on in any case. -/
theorem Fine.closeSignal' {t : State} {x : SignalRec} (ho : SignalOpen B K hot x t) : K (Machine.handSignal x.id t) := by
  rcases ho with ht | ⟨hb, ⟨δ, hh, hδ⟩, -⟩
  · exact h.handSignal _ ht
  · exact h.handSignal_settles hh hδ hb

/-! ## The Element Table -/

omit h in
theorem SectionHolds.derive {p4 p5 : Nat} {g : SectionRec → SectionRec} (hg : SectionHolds g) :
    SectionHolds (fun x => SectionRec.derive p4 p5 (g x)) := fun x =>
  ⟨(SectionRec.derive_same p4 p5 (g x)).1.trans (hg x).1, (SectionRec.derive_same p4 p5 (g x)).2.trans (hg x).2⟩

omit h in
theorem SectionHolds.view (p4 p5 : Nat) (ch : Channel) (v : SecView) : SectionHolds (SectionRec.withView p4 p5 ch v) := by
  intro x
  by_cases hv : x.view ch = v
  · rw [SectionRec.withView_of_eq hv]; exact ⟨rfl, rfl⟩
  · rw [SectionRec.withView_of_ne hv]
    refine SectionHolds.derive (g := SectionRec.setView ch v) (fun y => ?_) x
    cases ch <;> exact ⟨rfl, rfl⟩

omit h in
theorem PointHolds.view (p6 : Nat) (ch : Channel) (v : PointView) : PointHolds (PointRec.withView p6 ch v) := by
  intro x
  by_cases hv : x.view ch = v
  · rw [PointRec.withView_of_eq hv]; exact ⟨rfl, rfl, rfl, rfl, rfl⟩
  · rw [PointRec.withView_of_ne hv]
    cases ch <;> exact ⟨rfl, rfl, rfl, rfl, rfl⟩

omit h in
theorem SignalHolds.view (p7 : Nat) (ch : Channel) (v : SignalView) : SignalHolds (SignalRec.withView p7 ch v) := by
  intro x
  unfold SignalRec.withView
  cases ch <;> dsimp only <;> split <;> exact ⟨rfl, rfl, rfl, rfl⟩

theorem Fine.completeMove {s : State} (x : PointRec) (m : Move) (hs : PointOpen B K hot x.id s) : K (completeMove x m s) := by
  have h1 : PointOpen B K hot x.id (s.mapPoint x.id (fun y => PointRec.derive (param 6 s)
      { y with move := none, moveTimer := .off, lastMove := moveDuration s.dev.time m.start })) := by
    rcases hs with hs | ⟨hb, hδ⟩
    · exact h.changePoint (fun _ => ⟨rfl, rfl, rfl, rfl, rfl⟩) hs
    · refine .inr ⟨?_, hδ⟩
      rcases h.toBase.changePoint (id := x.id) (f := fun y => PointRec.derive (param 6 s)
        { y with move := none, moveTimer := .off, lastMove := moveDuration s.dev.time m.start })
        (fun _ => ⟨rfl, rfl, rfl, rfl, rfl⟩) hb with hk | ⟨hk, -⟩
      · exact hk
      · exact hk
  have h2 := h.emitPoint (.moveDone x.id m.target (moveDuration s.dev.time m.start)) h1
  unfold Machine.completeMove; dsimp only
  refine h.closePoint ?_
  split
  · exact h.emitPoint _ h2
  · exact h2

/-- A view change that leaves the agreed status hands on no more than the law allows. -/
theorem Fine.pointViewChanged {s : State} (old : PointRec) (hs : K s) : K (pointViewChanged old s) := by
  unfold Machine.pointViewChanged; repeat' split
  all_goals first
    | exact hs
    | exact h.completeMove _ _ (.inl hs)
    | exact h.handPoint _ (h.self.emit _ _ hs)
    | exact h.handPoint _ hs

/-- A changed status of a point with no move in flight is handed on (R15). -/
theorem Fine.closePointView {t : State} {x y : PointRec} (hy : t.point? x.id = some y)
    (hv : ¬ (y.viewA = x.viewA ∧ y.viewB = x.viewB)) (hm : y.move = none) (hst : y.status ≠ x.status)
    (ho : PointOpen B K hot x.id t) : K (Machine.pointViewChanged x t) := by
  rw [pointViewChanged_changed hy hv hm hst]
  refine h.closePoint ?_
  split
  · split
    · exact h.emitPoint _ ho
    · exact ho
  · exact ho

omit h in
/-- A point with a move in flight is MOVING before and after a change of a view (R7). -/
theorem PointRec.Lawful.moving_view {x : PointRec} (hl : x.Lawful) (hm : x.move ≠ none) (p6 : Nat) (ch : Channel) (v : PointView) :
    (x.withView p6 ch v).status = x.status := by
  have hx : x.move.isSome = true := Option.isSome_iff_ne_none.2 hm
  by_cases hv : x.view ch = v
  · rw [PointRec.withView_of_eq hv]
  · rw [PointRec.withView_of_ne hv, hl.status]
    show PointRec.derivedStatus _ = _
    unfold PointRec.derivedStatus
    cases ch <;> simp [PointRec.setView, hx]

omit h in
/-- Where conditions on points can be in doubt, the points are lawful. -/
def PointsKnown (hot : Doubt → Prop) (s : State) : Prop := (∃ δ id, hot δ ∧ Doubt.OfPoint id δ) → ElementLaw s

theorem Fine.viewPoint {s : State} (ch : Channel) (v : PointView) {x : PointRec} (hx : s.point? x.id = some x)
    (hk : PointsKnown hot s) (hs : K s) : K (viewPoint ch v x s) := by
  have hy : (s.mapPoint x.id (PointRec.withView (param 6 s) ch v)).point? x.id = some (x.withView (param 6 s) ch v) :=
    point?_mapped _ (fun y => (PointHolds.view _ ch v y).1) hx
  have ho := h.changePoint (id := x.id) (PointHolds.view (param 6 s) ch v) hs
  unfold Machine.viewPoint
  by_cases hc : (∃ δ, hot δ ∧ δ.OfPoint x.id) ∧ (x.withView (param 6 s) ch v).status ≠ x.status
  · obtain ⟨⟨δ, hh, hδ⟩, hst⟩ := hc
    have hl : x.Lawful := (hk ⟨δ, x.id, hh, hδ⟩).points x (List.mem_of_find?_eq_some hx)
    refine h.closePointView hy (fun hv => hst ?_) ?_ hst ho
    · rw [PointRec.withView_of_eq]
      have := (PointRec.withView_view (param 6 s) ch v x).1
      cases ch
      · exact (this.symm.trans hv.1).symm
      · exact (this.symm.trans hv.2).symm
    · rw [(PointRec.withView_move (param 6 s) ch v x).1]
      by_contra hm
      exact hst (hl.moving_view hm _ _ _)
  · refine h.pointViewChanged x ?_
    by_cases hn : ∃ δ, hot δ ∧ δ.OfPoint x.id
    · refine h.keepPoint (PointHolds.view _ ch v) (fun z ez => ?_) hs
      obtain rfl := Option.some.inj (hx.symm.trans ez)
      by_contra hne
      exact hc ⟨hn, hne⟩
    · exact ho.resolve_right fun e => hn e.2

theorem Fine.viewSection {s : State} (ch : Channel) (v : SecView) {x : SectionRec} (hx : s.section? x.id = some x)
    (hs : K s) : K (viewSection ch v x s) := h.closeSection (h.changeSection (SectionHolds.view _ _ ch v) hx hs)

theorem Fine.viewSignal {s : State} (ch : Channel) (v : SignalView) {x : SignalRec} (hx : s.signal? x.id = some x)
    (hs : K s) : K (viewSignal ch v x s) := h.closeSignal (h.changeSignal (SignalHolds.view _ ch v) hx hs)

theorem Fine.applyItem {s : State} (ch : Channel) (id : Nat) (b : Byte) (hk : PointsKnown hot s) (hs : K s) :
    K (applyItem ch id b s) := by
  unfold Machine.applyItem
  split
  · next x hx =>
    split
    · exact h.viewSection ch _ (by rw [sectionLookup_id hx]; exact hx) hs
    · exact hs
  · split
    · next x hx =>
      split
      · exact h.viewPoint ch _ (by rw [point?_id hx]; exact hx) hk hs
      · exact hs
    · split
      · next x hx =>
        split
        · exact h.viewSignal ch _ (by rw [signal?_id hx]; exact hx) hs
        · exact hs
      · exact hs

theorem Fine.applyItems (ch : Channel) : ∀ (bs : List Byte) {s : State} (d k : Nat), PointsKnown hot s → K s →
    K (applyItems ch bs s d k).2.2
  | [], _, _, _, _, hs => hs
  | [_], _, _, _, _, hs => hs
  | [_, _], _, _, _, _, hs => hs
  | hi :: lo :: b :: rest, s, d, k, hk, hs => by
    unfold Machine.applyItems; split
    · exact Fine.applyItems ch rest _ _ (fun e => elementLaw_stepClosed.applyItem _ _ _ (hk e)) (h.applyItem _ _ _ hk hs)
    · exact Fine.applyItems ch rest _ _ hk hs

theorem Fine.sectionDiscExpired {s : State} (id : Nat) (hs : K s) : K (sectionDiscExpired id s) := by
  unfold Machine.sectionDiscExpired
  split
  · exact hs
  · next x hx =>
    split
    · exact h.closeSection (h.emitSection _ (h.changeSection
        (SectionHolds.derive (g := fun y => { y with faulted := true }) fun _ => ⟨rfl, rfl⟩) (by rw [sectionLookup_id hx]; exact hx) hs))
    · exact hs

theorem Fine.pointDiscExpired {s : State} (id : Nat) (hs : K s) : K (pointDiscExpired id s) := by
  unfold Machine.pointDiscExpired faultPoint; repeat' split
  all_goals first
    | exact hs
    | exact h.closePoint (h.emitPoint _ (h.changePoint (fun _ => ⟨rfl, rfl, rfl, rfl, rfl⟩) hs))

theorem Fine.signalDiscExpired {s : State} (id : Nat) (hs : K s) : K (signalDiscExpired id s) := by
  unfold Machine.signalDiscExpired
  split
  · exact hs
  · next x hx =>
    split
    · exact h.closeSignal' (h.emitSignal _ (h.changeSignal (x := x) (fun _ => ⟨rfl, rfl, rfl, rfl⟩)
        (by rw [signal?_id hx]; exact hx) hs))
    · exact hs

theorem Fine.clearanceExpired {s : State} (id : Nat) (hs : K s) : K (clearanceExpired id s) := by
  unfold Machine.clearanceExpired
  split
  · exact hs
  · next x hx =>
    split
    · obtain rfl := sectionLookup_id hx
      refine h.closeSection (h.changeSection (fun y => ?_) hx hs)
      unfold SectionRec.cleared
      split <;> exact ⟨rfl, rfl⟩
    · exact hs

theorem Fine.moveExpired {s : State} (id : Nat) (hs : K s) : K (moveExpired id s) := by
  unfold Machine.moveExpired
  split
  · exact hs
  · split
    · exact hs
    · next m _ =>
      split
      · have ho := h.emitPoint (.moveFailed id m.target) (h.changePoint (id := id) (f := fun y => PointRec.derive (param 6 s)
          { y with faulted := true, move := none, moveTimer := .off }) (fun _ => ⟨rfl, rfl, rfl, rfl, rfl⟩) hs)
        have hU : ∀ {Q : State → Prop} {hh : Doubt → Prop} (k : Fine B Q hh),
            ∀ f ∈ [Machine.routesOnMoveFailed id m.target, Machine.permOn (.point id), Machine.flanksOn id],
            ∀ t, Q t → Q (f t) := by
          intro Q hh k
          simp only [List.mem_cons, List.not_mem_nil, or_false]
          rintro f (rfl | rfl | rfl) t ht
          · exact k.routesOnMoveFailed _ _ ht
          · exact k.permOn _ ht
          · exact k.flanksOn _ ht
        rcases ho with hk | ⟨hb, δ, hδh, hδ⟩
        · exact h.self.inAnyOrder (hU h) hk
        · have hr : ∀ u, ∀ f ∈ [Machine.routesOnMoveFailed id m.target, Machine.permOn (.point id), Machine.flanksOn id],
              ∀ t, Reacts u t → Reacts u (f t) := by
            intro u
            simp only [List.mem_cons, List.not_mem_nil, or_false]
            rintro f (rfl | rfl | rfl) t ht
            · exact (reacts_closed u).routesOnMoveFailed _ _ ht
            · exact (reacts_closed u).permOn _ ht
            · exact (reacts_closed u).flanksOn _ ht
          rcases hδ with rfl | rfl
          · exact h.settles_inAnyOrder (f := Machine.permOn (.point id)) (by simp) (hr _) (hU h.toBase) (hU h)
              (fun t _ ht => h.perm t _ _ hδh (.inl rfl) ht) hb
          · exact h.settles_inAnyOrder (f := Machine.flanksOn id) (by simp) (hr _) (hU h.toBase) (hU h)
              (fun t _ ht => h.flanksOn_settles hδh ht) hb
      · exact hs

theorem Fine.watchExpired {s : State} (id : Nat) (hs : K s) : K (watchExpired id s) := by
  unfold Machine.watchExpired
  split
  · exact hs
  · next x hx =>
    split
    · obtain rfl := signal?_id hx
      have ho := h.emitSignal (.unauthorizedProceed x.id x.protSec) (h.changeSignal (f := fun y =>
        SignalRec.derive (param 7 s) { y with faulted := true, watch := ⟨.expired, 0⟩ }) (fun _ => ⟨rfl, rfl, rfl, rfl⟩) hx hs)
      exact h.closeSignal (ho.react ((reacts_closed _).withdrawOver _ _ (Reacts.refl _)) (h.withdrawOver _ _)
        (h.toBase.withdrawOver _ _))
    · exact hs

/-! ## Move calls -/

omit h in
/-- A move is in flight at the point. -/
def HasMove (id : Nat) (t : State) : Prop := ∃ x m, t.point? id = some x ∧ x.move = some m

omit h in
theorem HasMove.reacts {id : Nat} {t u : State} (hm : HasMove id t) (hr : Reacts t u) : HasMove id u := by
  obtain ⟨x, m, hx, hm⟩ := hm
  have hrel := hr.point?_rel id
  rw [hx] at hrel
  cases hz : u.point? id with
  | none => rw [hz] at hrel; cases hrel
  | some z =>
    rw [hz] at hrel
    cases hrel with
    | some hc => exact ⟨z, m, hz, (congrArg PointRec.move hc : z.core.move = x.core.move).trans hm⟩

omit h in
theorem HasMove.mapPoint_other {id k : Nat} {f : PointRec → PointRec} {t : State} (hm : HasMove id t) (hk : k ≠ id)
    (hf : ∀ x, (f x).id = x.id) : HasMove id (t.mapPoint k f) := by
  obtain ⟨x, m, hx, hm⟩ := hm
  exact ⟨x, m, (point?_mapPoint_other hk hf).trans hx, hm⟩

omit h in
/-- The law stands, or a call put it in doubt and its move is in flight. -/
def CallOpen (B K : State → Prop) (hot : Doubt → Prop) (id : Nat) (t : State) : Prop :=
  K t ∨ (B t ∧ (∃ δ, hot δ ∧ δ.OfPoint id) ∧ HasMove id t)

theorem Fine.issueCall {s : State} (id : Nat) (p : Pos) (hs : K s) : CallOpen B K hot id (issueCall id p s) := by
  unfold Machine.issueCall
  split
  · exact .inl hs
  · next x hx =>
    split
    · exact .inl hs
    · have ho := h.emitPoint (.moveCall id p) (h.changePoint (id := id) (f := fun y => { y with
        move := some { target := p, start := s.dev.time }, moveTimer := Timer.start y.supTime, status := .moving, disc := .off })
        (fun _ => ⟨rfl, rfl, rfl, rfl, rfl⟩) hs)
      have hm : (s.mapPoint id (fun y => { y with
          move := some { target := p, start := s.dev.time }, moveTimer := Timer.start y.supTime, status := .moving
          disc := .off })).point? id = some { x with
            move := some { target := p, start := s.dev.time }, moveTimer := Timer.start x.supTime, status := .moving
            disc := .off } :=
        point?_mapped (fun y => { y with move := some { target := p, start := s.dev.time }
                                         moveTimer := Timer.start y.supTime, status := .moving, disc := .off }) (fun _ => rfl) hx
      exact ho.imp_right fun ⟨hb, hδ⟩ => ⟨hb, hδ, _, _, hm, rfl⟩

theorem Fine.settleCall {s : State} (id : Nat) (hs : K s) : K (settleCall id s) := by
  unfold Machine.settleCall
  split
  · exact hs
  · split
    · exact hs
    · split
      · exact h.completeMove _ _ (.inl hs)
      · exact h.handPoint id hs

theorem Fine.closeCall {s : State} {id : Nat} (ho : CallOpen B K hot id s) : K (Machine.settleCall id s) := by
  rcases ho with hs | ⟨hb, hδ, x, m, hx, hm⟩
  · exact h.settleCall id hs
  · obtain rfl := point?_id hx
    unfold Machine.settleCall
    rw [hx]; dsimp only
    rw [hm]; dsimp only
    split
    · exact h.completeMove x m (.inr ⟨hb, hδ⟩)
    · exact h.closePoint (.inr ⟨hb, hδ⟩)

theorem Fine.setBlock {s : State} (id : Nat) (b : Bool) (hs : K s) : K (setBlock id b s) := by
  unfold Machine.setBlock
  split
  · next x hx =>
    obtain rfl := sectionLookup_id hx
    exact h.closeSection (h.changeSection (fun _ => ⟨rfl, rfl⟩) hx hs)
  · refine h.self.signals _ _ (fun y => ?_) (fun _ _ _ _ => ?_)
      (h.keepPoint (f := fun y => { y with block := b }) (fun _ => ⟨rfl, rfl, rfl, rfl, rfl⟩) (fun _ _ => rfl) hs)
    · split <;> exact ⟨rfl, rfl, rfl, rfl⟩
    · split <;> exact ⟨rfl, rfl, rfl⟩

theorem Fine.setMask {s : State} (id : Nat) (b : Bool) (hs : K s) : K (setMask id b s) := by
  unfold Machine.setMask
  split
  · next x hx =>
    split
    · exact hs
    · exact h.closeSection (h.changeSection (x := x) (SectionHolds.derive (g := fun y => { y with mask := b })
        fun _ => ⟨rfl, rfl⟩) (by rw [sectionLookup_id hx]; exact hx) hs |> fun e => by rwa [sectionLookup_id hx] at e)
  · split
    · split
      · exact hs
      · exact h.closePoint (h.changePoint (fun _ => ⟨rfl, rfl, rfl, rfl, rfl⟩) hs)
    · split
      · next x hx =>
        split
        · exact hs
        · obtain rfl := signal?_id hx
          exact h.closeSignal' (h.changeSignal (fun _ => ⟨rfl, rfl, rfl, rfl⟩) hx hs)
      · exact hs

theorem Fine.restoreElement {s : State} {id : Nat} (hc : configured s id = true) (hs : K s) : K (restoreElement id s) := by
  unfold Machine.restoreElement
  split
  · next x hx =>
    obtain rfl := sectionLookup_id hx
    exact h.closeSection (h.emitSection _ (h.changeSection (SectionHolds.derive (g := fun y => { y with faulted := false })
      fun _ => ⟨rfl, rfl⟩) hx hs))
  · next h1 =>
    split
    · exact h.closePoint (h.emitPoint _ (h.changePoint (fun _ => ⟨rfl, rfl, rfl, rfl, rfl⟩) hs))
    · next h2 =>
      cases hx : s.signal? id with
      | none => rw [not_configured h1 h2 hx] at hc; cases hc
      | some x =>
        obtain rfl := signal?_id hx
        exact h.closeSignal' (h.emitSignal _ (h.changeSignal (fun _ => ⟨rfl, rfl, rfl, rfl⟩) hx hs))

/-! ## SET ROUTE, the releases and the timers of a route -/

omit h in
theorem HasMove.settleCall_other {id k : Nat} {t : State} (hk : k ≠ id) (hm : HasMove id t) : HasMove id (settleCall k t) := by
  unfold Machine.settleCall
  split
  · exact hm
  · next x hx =>
    split
    · exact hm
    · split
      · next m _ _ =>
        rw [completeMove_eq]
        refine HasMove.reacts ?_ (reacts_handPoint _ _)
        have h1 := hm.mapPoint_other (k := x.id) (by rw [point?_id hx]; exact hk)
          (f := fun y => PointRec.derive (param 6 t)
            { y with move := none, moveTimer := ⟨.stopped, 0⟩, lastMove := (t.dev.time - m.start).toNat }) (fun _ => rfl)
        split
        · exact h1
        · exact h1
      · exact hm.reacts (reacts_handPoint _ _)

omit h in
theorem HasMove.issueCall {id k : Nat} {p : Pos} {t : State} (hm : HasMove id t) : HasMove id (issueCall k p t) := by
  unfold Machine.issueCall
  split
  · exact hm
  · next x hx =>
    split
    · exact hm
    · by_cases hk : k = id
      · subst hk
        exact ⟨_, _, point?_mapped (fun y => { y with
          move := some { target := p, start := t.dev.time }, moveTimer := Timer.start y.supTime, status := .moving
          disc := .off }) (fun _ => rfl) hx, rfl⟩
      · exact hm.mapPoint_other hk (f := fun y => { y with
          move := some { target := p, start := t.dev.time }, moveTimer := Timer.start y.supTime, status := .moving
          disc := .off }) (fun _ => rfl)

/-- The calls are issued before any of them is settled (log 32): the law stands, or one of the calls waits to settle it. -/
theorem Fine.issueCalls {calls : List PointReq} {s : State} (hs : K s) :
    K (inOrder (calls.map (fun q => Machine.issueCall q.point q.pos)) s)
      ∨ ∃ q ∈ calls, CallOpen B K hot q.point (inOrder (calls.map (fun q => Machine.issueCall q.point q.pos)) s) := by
  refine inOrder_ind (P := fun t => K t ∨ ∃ q ∈ calls, CallOpen B K hot q.point t) (fun f hf t ht => ?_) (.inl hs)
  obtain ⟨q, hq, rfl⟩ := List.mem_map.1 hf
  rcases ht with ht | ⟨p, hp, ht | ⟨hb, hδ, hm⟩⟩
  · exact .inr ⟨q, hq, h.issueCall _ _ ht⟩
  · exact .inr ⟨q, hq, h.issueCall _ _ ht⟩
  · refine .inr ⟨p, hp, .inr ⟨?_, hδ, hm.issueCall⟩⟩
    rcases h.toBase.issueCall q.point q.pos hb with e | ⟨e, -⟩
    · exact e
    · exact e

theorem Fine.settleCalls {calls : List PointReq} (c : Concern) {s : State}
    (hs : K s ∨ ∃ q ∈ calls, CallOpen B K hot q.point s) :
    K (Machine.inAnyOrder (calls.map (fun q => Machine.settleCall q.point) ++ [Machine.permOn c]) s) := by
  have hK : ∀ f ∈ calls.map (fun q => Machine.settleCall q.point) ++ [Machine.permOn c], ∀ t, K t → K (f t) := by
    intro f hf
    rcases List.mem_append.1 hf with hf | hf
    · exact forall_map (g := fun q : PointReq => Machine.settleCall q.point) (fun _ _ => h.settleCall _) f hf
    · rw [List.mem_singleton.1 hf]; exact fun _ => h.permOn _
  rcases hs with hs | ⟨q, hq, ho⟩
  · exact h.self.inAnyOrder hK hs
  · refine inAnyOrder_reach (P := CallOpen B K hot q.point) (Q := K)
      (fun t c d ht => ht.imp (h.self.choice t c d) fun ⟨hb, e⟩ => ⟨h.base.choice t c d hb, e⟩)
      (h.self.choice) (List.mem_append_left _ (List.mem_map_of_mem hq)) (fun f hf t ht => ?_) (fun t ht => h.closeCall ht)
      (fun f hf t _ ht => hK f hf t ht) ho
    rcases ht with ht | ⟨hb, hδ, hm⟩
    · exact .inl (hK f hf t ht)
    · rcases List.mem_append.1 hf with hf | hf
      · obtain ⟨p, hp, rfl⟩ := List.mem_map.1 hf
        by_cases hpq : p.point = q.point
        · rw [hpq]
          exact .inl (h.closeCall (.inr ⟨hb, hδ, hm⟩))
        · exact .inr ⟨h.toBase.settleCall _ hb, hδ, hm.settleCall_other hpq⟩
      · rw [List.mem_singleton.1 hf]
        exact .inr ⟨h.toBase.permOn _ hb, hδ, hm.reacts ((reacts_closed t).permOn _ (Reacts.refl t))⟩

theorem Fine.enterCalling {s : State} {d : RouteDef} {v : Option Nat} {flanks : List FlankRec} {opts : List Nat}
    (ht : Takeable s d v flanks opts) (hs : K s) : K (enterCalling d v flanks opts s) := by
  unfold Machine.enterCalling; dsimp only
  exact h.testProven _ (h.settleCalls _ (h.issueCalls (h.self.emit _ _ (h.self.take s d v flanks opts ht hs))))

theorem Fine.reRequest {s : State} (r : Nat) (hs : K s) : K (reRequest r s) :=
  h.permOn _ (h.self.mapRoute (fun _ => rfl) hs)

theorem Fine.releaseAtOnce {s : State} {a : ActiveRoute} (ha : s.route? a.id = some a) (hs : K s) : K (releaseAtOnce a s) :=
  h.removed a _ _ _ _ (h.self.cancel s a _ ha hs)

theorem Fine.enterApproachHeld {s : State} {a : ActiveRoute} (ha : s.route? a.id = some a) (hs : K s) :
    K (enterApproachHeld a s) :=
  h.startRelease _ (h.self.emit _ _ (h.self.leave s a _ _ ha (.inl rfl) hs))

theorem Fine.enterEmergencyTiming {s : State} {a : ActiveRoute} (ha : s.route? a.id = some a) (hs : K s) :
    K (enterEmergencyTiming a s) :=
  h.startRelease _ (h.self.emit _ _ (h.self.leave s a _ _ ha (.inr rfl) hs))

theorem Fine.settingExpired {s : State} (r : Nat) (hs : K s) : K (settingExpired r s) := by
  unfold Machine.settingExpired; repeat' split
  all_goals first | exact hs | exact h.abandonRoute _ _ _ hs

theorem Fine.overlapExpired {s : State} (r : Nat) (hs : K s) : K (overlapExpired r s) := by
  unfold Machine.overlapExpired
  split
  · exact hs
  · next a ha =>
    split
    · exact h.releaseOverlap (by rw [route?_id ha]; exact ha) hs
    · exact hs

theorem Fine.releaseExpired {s : State} (r : Nat) (hs : K s) : K (releaseExpired r s) := by
  unfold Machine.releaseExpired
  split
  · exact hs
  · next a ha =>
    have ha' : s.route? a.id = some a := by rw [route?_id ha]; exact ha
    split
    · split
      case h_1 hc => exact h.removeRoute _ _ _ _ ha' (by rw [hc]; decide) hs
      case h_2 hc => exact h.removeRoute _ _ _ _ ha' (by rw [hc]; decide) hs
      all_goals exact hs
    · exact hs

theorem Fine.freezeRoutes {s : State} (hs : K s) : K (freezeRoutes s) := h.self.routes s _ (fun _ => rfl) hs

end HandingOn

end Sys2Proof.Machine

/-!
PROOFS. The work of the Handover Unit and of the links keeps every law that is `Fine`. Parts of O57 and O58.
-/

namespace Sys2Proof.Machine

/-- A change of a slot that keeps what the laws read of it. -/
structure SlotTouch (f : Slot → Slot) : Prop where
  holds : SlotHolds f
  outb : ∀ x, (f x).outb = x.outb

theorem SlotTouch.settled : SlotTouch Slot.settled := ⟨fun _ => ⟨rfl, rfl, rfl⟩, fun _ => rfl⟩

theorem SlotTouch.id : SlotTouch id := ⟨fun _ => ⟨rfl, rfl, rfl⟩, fun _ => rfl⟩

theorem SlotTouch.ite {p : Slot → Prop} [DecidablePred p] {f : Slot → Slot} (h : SlotTouch f) :
    SlotTouch (fun x => if p x then f x else x) := by
  refine ⟨fun x => ?_, fun x => ?_⟩ <;> split
  · exact h.holds x
  · exact ⟨rfl, rfl, rfl⟩
  · exact h.outb x
  · rfl

/-- A slot keeps its inbound state while its permit and outbound state change. -/
def KeepsInb (x : Slot) (s : State) : Prop := ∃ y, s.slot? x.ref = some y ∧ y.inb = x.inb

theorem KeepsInb.mapSlot {x : Slot} {s : State} (h : KeepsInb x s) {f : Slot → Slot} (hf : SlotHolds f) :
    KeepsInb x (s.mapSlot x.ref f) := by
  obtain ⟨z, hz, hi⟩ := h
  exact ⟨f z, slot?_mapped f (fun z => (hf z).1) hz, (hf z).2.2.trans hi⟩

theorem KeepsInb.losePermit {x : Slot} {s : State} (h : KeepsInb x s) : KeepsInb x (losePermit x s) := by
  have hp : ∀ (p : Permit) (c : PermitCause) (f : Slot → Slot), SlotTouch f → KeepsInb x (setPermit x.ref p c f s) :=
    fun p c f hf => h.mapSlot (f := fun y => { f y with permit := p }) hf.holds
  unfold Machine.losePermit; repeat' split
  all_goals first
    | exact h
    | exact hp _ _ _ ⟨fun _ => ⟨rfl, rfl, rfl⟩, fun _ => rfl⟩

theorem KeepsInb.loseOutbound {x : Slot} {s : State} (h : KeepsInb x s) : KeepsInb x (loseOutbound x s) := by
  have ho : KeepsInb x (setOutbound x.ref .none .linkLoss (fun y => { y with accept := .off }) s) := by
    obtain ⟨z, hz, hi⟩ := h
    exact ⟨_, setOutbound_slot hz _ _ (fun _ => rfl), hi⟩
  unfold Machine.loseOutbound; split
  all_goals first | exact h | exact ho

section RouteRequests
variable {B K : State → Prop} {hot : Doubt → Prop} (h : Fine B K hot)
include h

/-! ## The Handover Unit -/

theorem Fine.touch {s : State} {ref : SlotRef} {f : Slot → Slot} (hf : SlotTouch f) (hs : K s) : K (s.mapSlot ref f) :=
  h.self.touchSlot hf.holds hf.outb hs

theorem Fine.permitTo {s : State} {ref : SlotRef} {p : Permit} {c : PermitCause} {f : Slot → Slot} (hf : SlotTouch f)
    (hs : K s) : K (Machine.setPermit ref p c f s) := h.setPermit hf.holds hf.outb hs

theorem Fine.permitFault {s : State} (x : Slot) (c : PermitCause) {f : Slot → Slot} (hf : SlotTouch f) (hs : K s) :
    K (permitFault x c f s) := by
  unfold Machine.permitFault; dsimp only; split
  · exact h.endOutbound _ (h.permitTo hf hs)
  · exact h.permitTo hf hs

theorem Fine.bothHeldFault {s : State} (x : Slot) {f : Slot → Slot} (hf : SlotTouch f) (hs : K s) :
    K (bothHeldFault x f s) := h.permitFault _ _ hf (h.self.emit _ _ hs)

theorem Fine.permitHere {s : State} (x : Slot) (c : PermitCause) {f : Slot → Slot} (hf : SlotTouch f) (hs : K s) :
    K (permitHere x c f s) := h.tryOffer _ (h.permitTo hf hs)

theorem Fine.reconcile {s : State} (x : Slot) (p : PubPermit) (hs : K s) : K (reconcile x p s) := by
  unfold Machine.reconcile
  split
  · dsimp only; split
    · exact h.tryOffer _ (h.touch .settled hs)
    · exact h.touch .settled hs
  · split
    · exact hs
    · exact h.touch ⟨fun _ => ⟨rfl, rfl, rfl⟩, fun _ => rfl⟩ hs
  · exact h.permitHere _ _ .settled hs
  · exact h.permitTo .settled hs
  · exact h.bothHeldFault _ .settled hs
  · exact h.permitFault _ _ .settled hs

theorem Fine.permitStep {s : State} (x : Slot) (prev : Option PubPermit) (p : PubPermit) (hs : K s) :
    K (permitStep x prev p s) := by
  unfold Machine.permitStep
  split
  · split
    · exact h.bothHeldFault x .id hs
    · split
      · exact hs
      · split
        · exact h.permitTo ⟨fun _ => ⟨rfl, rfl, rfl⟩, fun _ => rfl⟩ hs
        · exact h.permitTo ⟨fun _ => ⟨rfl, rfl, rfl⟩, fun _ => rfl⟩ hs
    all_goals exact hs
  · split
    · exact h.permitFault x .noHolder .id hs
    · exact hs
  · split
    · exact h.permitHere x .taken ⟨fun _ => ⟨rfl, rfl, rfl⟩, fun _ => rfl⟩ hs
    · exact h.permitTo ⟨fun _ => ⟨rfl, rfl, rfl⟩, fun _ => rfl⟩ hs
    all_goals exact hs
  · split
    · exact h.permitTo ⟨fun _ => ⟨rfl, rfl, rfl⟩, fun _ => rfl⟩ hs
    · exact h.permitHere x .notTaken ⟨fun _ => ⟨rfl, rfl, rfl⟩, fun _ => rfl⟩ hs
    · exact hs
    all_goals exact h.permitFault x .noHolder ⟨fun _ => ⟨rfl, rfl, rfl⟩, fun _ => rfl⟩ hs
  · exact hs
  · exact hs

theorem Fine.outTo {s : State} {ref : SlotRef} {o : Outbound} {c : SlotCause} {f : Slot → Slot} (hf : SlotTouch f)
    (hs : K s) : K (Machine.setOutbound ref o c f s) := h.setOutbound hf.holds hs

theorem Fine.outboundStep {s : State} (x : Slot) (prev : Option PubIn) (i : PubIn) (hs : K s) :
    K (outboundStep x prev i s) := by
  have hoff : SlotTouch (fun y : Slot => { y with accept := .off }) := ⟨fun _ => ⟨rfl, rfl, rfl⟩, fun _ => rfl⟩
  unfold Machine.outboundStep; dsimp only; repeat' split
  all_goals first
    | exact hs
    | exact h.outTo hoff hs
    | exact h.outTo .id hs
    | exact h.touch hoff hs
    | exact h.self.emit _ _ (h.touch hoff hs)
    | exact h.reportReceived _ hs
    | exact h.tryOffer _ (h.outTo .id hs)

/-- The slot stays in a state that holds a reservation. -/
theorem Fine.stayAccepted {s : State} {x : Slot} (hx : s.slot? x.ref = some x) {f : Slot → Slot}
    (hf : ∀ y, (f y).ref = y.ref ∧ (f y).bsec = y.bsec ∧ (f y).outb = y.outb ∧ (f y).inb.Reserves) (hs : K s) :
    K (s.mapSlot x.ref f) :=
  h.self.inbound s x.ref x f hx (fun y => ⟨(hf y).1, (hf y).2.1, (hf y).2.2.1⟩) (fun _ y => (hf y).2.2.2) hs

/-- The slot leaves a state that holds no reservation. -/
theorem Fine.leaveUnreserved {s : State} {ref : SlotRef} {x : Slot} (hx : s.slot? ref = some x) (hi : ¬ x.inb.Reserves)
    {f : Slot → Slot} (hf : ∀ y, (f y).ref = y.ref ∧ (f y).bsec = y.bsec ∧ (f y).outb = y.outb) (hs : K s) :
    K (s.mapSlot ref f) := h.self.inbound s ref x f hx hf (fun e => absurd e hi) hs

theorem Fine.acceptedStep {s : State} {x : Slot} (hx : s.slot? x.ref = some x) (o : PubOut) (iso : Bool) (hs : K s) :
    K (acceptedStep x o iso s) := by
  unfold Machine.acceptedStep; dsimp only; repeat' split
  all_goals first
    | exact hs
    | exact h.stayAccepted hx (fun _ => ⟨rfl, rfl, rfl, .inl rfl⟩) hs
    | exact h.self.emit _ _ (h.stayAccepted hx (fun _ => ⟨rfl, rfl, rfl, .inl rfl⟩) hs)
    | exact h.endInbound _ hx (fun _ => rfl) hs

theorem Fine.inboundStep {s : State} (was : Bool) {x : Slot} (hx : s.slot? x.ref = some x) (o : PubOut) (hs : K s) :
    K (inboundStep was x o s) := by
  unfold Machine.inboundStep
  split
  · exact h.testAcceptance _ hs
  · next hi =>
    split
    · exact h.self.emit _ _ (h.leaveUnreserved hx (by rw [hi]; simp [Inbound.Reserves]) (fun _ => ⟨rfl, rfl, rfl⟩) hs)
    · exact h.testAcceptance _ hs
  · exact h.acceptedStep hx _ _ hs
  · split
    · exact h.acceptedStep hx _ _ hs
    · exact hs
  · exact hs

theorem Fine.deliverSlot {s : State} (ref : SlotRef) (p : PubFields) (hs : K s) : K (deliverSlot ref p s) := by
  unfold Machine.deliverSlot
  split
  · exact hs
  · next old _ =>
    dsimp only
    have h1 : K (s.mapSlot ref (·.received p)) := h.touch ⟨fun _ => ⟨rfl, rfl, rfl⟩, fun _ => rfl⟩ hs
    have h2 : K (if (old.received p).reconciled then
        Machine.permitStep (old.received p) (old.peer.map (·.permit)) p.permit (s.mapSlot ref (·.received p))
        else Machine.reconcile (old.received p) p.permit (s.mapSlot ref (·.received p))) := by
      split
      · exact h.permitStep _ _ _ h1
      · exact h.reconcile _ _ h1
    have h3 : ∀ u, K u → K (match u.slot? ref with
        | some y => if y.reconciled then Machine.outboundStep y (old.peer.map (·.inb)) p.inb u else u
        | none => u) := by
      intro u hu
      split
      · split
        · exact h.outboundStep _ _ _ hu
        · exact hu
      · exact hu
    have h4 := h3 _ h2
    split
    · next y hy => exact h.inboundStep _ (by rw [slot?_ref hy]; exact hy) _ h4
    · exact h4

theorem Fine.deliver {s : State} (l : Nat) (ps : List PubFields) (hs : K s) : K (deliver l ps s) := by
  unfold Machine.deliver; split
  · exact inOrder_ind (forall_map (g := fun q : PubFields × Nat => Machine.deliverSlot ⟨l, q.2⟩ q.1)
      (fun _ _ => h.deliverSlot _ _)) hs
  · exact inOrder_ind (forall_map (g := fun q : PubFields × Nat => Machine.storeSlot ⟨l, q.2⟩ q.1)
      (fun _ _ ht => h.touch (f := fun x => { x with peer := some _ }) ⟨fun _ => ⟨rfl, rfl, rfl⟩, fun _ => rfl⟩ ht)) hs
  · exact hs
  · exact hs

theorem Fine.touchSlots {s : State} {f : Slot → Slot} (hf : SlotTouch f) (hs : K s) :
    K { s with slots := s.slots.map f } := h.self.slots s f hf.holds (fun _ _ _ _ => hf.outb _) hs

theorem Fine.slotsOnUp {s : State} (l : Nat) (hs : K s) : K (slotsOnUp l s) :=
  h.touchSlots (SlotTouch.ite (p := fun x => x.ref.link = l) (f := fun x => { x with reconciled := false })
    ⟨fun _ => ⟨rfl, rfl, rfl⟩, fun _ => rfl⟩) hs

theorem Fine.losePermit {s : State} (x : Slot) (hs : K s) : K (losePermit x s) := by
  unfold Machine.losePermit; repeat' split
  all_goals first
    | exact hs
    | exact h.permitTo ⟨fun _ => ⟨rfl, rfl, rfl⟩, fun _ => rfl⟩ hs

theorem Fine.loseOutbound {s : State} (x : Slot) (hs : K s) : K (loseOutbound x s) := by
  unfold Machine.loseOutbound; repeat' split
  all_goals first
    | exact hs
    | exact h.outTo ⟨fun _ => ⟨rfl, rfl, rfl⟩, fun _ => rfl⟩ hs

theorem Fine.loseInbound {s : State} {x : Slot} (hk : KeepsInb x s) (hs : K s) : K (loseInbound x s) := by
  obtain ⟨y, hy, hi⟩ := hk
  unfold Machine.loseInbound; split
  · exact h.self.emit _ _ (h.self.inbound s x.ref y _ hy (fun _ => ⟨rfl, rfl, rfl⟩) (fun _ _ => .inr (.inl rfl)) hs)
  · next e =>
    exact h.self.emit _ _ (h.leaveUnreserved hy (by rw [hi, e]; simp [Inbound.Reserves]) (fun _ => ⟨rfl, rfl, rfl⟩) hs)
  all_goals exact hs

theorem Fine.loseSlot {s : State} (ref : SlotRef) (hs : K s) : K (loseSlot ref s) := by
  unfold Machine.loseSlot; split
  · exact hs
  · next x hx =>
    obtain rfl := slot?_ref hx
    have ht : SlotTouch (fun y : Slot => { y with reconciled := false, recon := .off }) :=
      ⟨fun _ => ⟨rfl, rfl, rfl⟩, fun _ => rfl⟩
    have hk : KeepsInb x (s.mapSlot x.ref (fun y => { y with reconciled := false, recon := .off })) :=
      KeepsInb.mapSlot ⟨x, hx, rfl⟩ ht.holds
    exact h.loseInbound hk.losePermit.loseOutbound (h.loseOutbound _ (h.losePermit _ (h.touch ht hs)))

theorem Fine.slotsOnLoss {s : State} (l : Nat) (hs : K s) : K (slotsOnLoss l s) := by
  unfold Machine.slotsOnLoss
  exact inOrder_ind (forall_map (g := Machine.loseSlot) (fun _ _ => h.loseSlot _)) hs

theorem Fine.freezeSlots {s : State} (hs : K s) : K (freezeSlots s) :=
  h.touchSlots ⟨fun _ => ⟨rfl, rfl, rfl⟩, fun _ => rfl⟩ hs

theorem Fine.setSlotBlock {s : State} (ref : SlotRef) (b : Bool) (hs : K s) : K (setSlotBlock ref b s) := by
  have h1 : K (s.mapSlot ref (fun y => { y with block := b })) := h.touch ⟨fun _ => ⟨rfl, rfl, rfl⟩, fun _ => rfl⟩ hs
  unfold Machine.setSlotBlock; dsimp only; split
  · exact h1
  · exact h.tryOffer _ (h.retest _ h1)

theorem Fine.reconExpired {s : State} (ref : SlotRef) (hs : K s) : K (reconExpired ref s) := by
  unfold Machine.reconExpired; repeat' split
  all_goals first | exact hs | exact h.permitFault _ _ .settled hs

theorem Fine.transferExpired {s : State} (ref : SlotRef) (hs : K s) : K (transferExpired ref s) := by
  have hoff : SlotTouch (fun y : Slot => { y with transfer := .off }) := ⟨fun _ => ⟨rfl, rfl, rfl⟩, fun _ => rfl⟩
  unfold Machine.transferExpired; repeat' split
  all_goals first
    | exact hs
    | exact h.retest _ (h.permitTo hoff hs)
    | exact h.permitFault _ _ hoff hs

theorem Fine.acceptExpired {s : State} (ref : SlotRef) (hs : K s) : K (acceptExpired ref s) := by
  have h1 : K (s.mapSlot ref (fun y => { y with accept := .off })) := h.touch ⟨fun _ => ⟨rfl, rfl, rfl⟩, fun _ => rfl⟩ hs
  unfold Machine.acceptExpired; dsimp only; repeat' split
  all_goals first
    | exact hs
    | exact h.self.emit _ _ h1
    | exact h1

theorem Fine.transitExpired {s : State} (ref : SlotRef) (hs : K s) : K (transitExpired ref s) := by
  have h1 : K (s.mapSlot ref (fun y => { y with transit := .off })) := h.touch ⟨fun _ => ⟨rfl, rfl, rfl⟩, fun _ => rfl⟩ hs
  unfold Machine.transitExpired; dsimp only; repeat' split
  all_goals first
    | exact hs
    | exact h.self.emit _ _ h1
    | exact h1

theorem Fine.reserveExpired {s : State} (ref : SlotRef) (hs : K s) : K (reserveExpired ref s) := by
  unfold Machine.reserveExpired
  split
  · exact hs
  · next x hx =>
    split
    · exact h.endInbound _ hx (fun _ => rfl) hs
    · exact hs

/-! ## The links -/

theorem Fine.tx {s : State} (tx : List TxFrame) (hs : K s) : K { s with tx := tx } :=
  h.self.rest s _ ⟨rfl, rfl, rfl, rfl, rfl, rfl, rfl, rfl, rfl, rfl⟩ hs

theorem Fine.send {s : State} (l : Nat) (f : LinkFrame) (hs : K s) : K (send l f s) := h.tx _ hs

theorem Fine.sendTrain {s : State} (l : Nat) (a b : Bool) (hs : K s) : K (sendTrain l a b s) := by
  unfold Machine.sendTrain; split
  · exact hs
  · exact h.send _ _ hs

theorem Fine.sendCyclic {s : State} (l : Nat) (hs : K s) : K (sendCyclic l s) := by
  unfold Machine.sendCyclic; split
  · exact hs
  · exact h.self.mapLink (h.send _ _ hs)

theorem Fine.setLink {s : State} (l : Nat) (st : LinkState) (c : LinkCause) {f : Link → Link}
    (hs : K s) : K (setLink l st c f s) := h.self.emit _ _ (h.self.mapLink hs)

theorem Fine.handLink {s : State} (l : Nat) (was : LinkState) (hs : K s) : K (handLink l was s) := by
  unfold Machine.handLink; split
  · exact h.slotsOnLoss _ hs
  · exact hs

theorem Fine.enterDown {s : State} (x : Link) (c : LinkCause) (hs : K s) : K (enterDown x c s) :=
  h.sendTrain _ _ _ (h.handLink _ _ (h.setLink _ _ _ hs))

theorem Fine.enterTraining {s : State} (x : Link) (c : LinkCause) (t : Option TrainContent) (hs : K s) :
    K (enterTraining x c t s) :=
  h.sendTrain _ _ _ (h.handLink _ _ (h.setLink _ _ _ hs))

theorem Fine.enterUp {s : State} (x : Link) (hs : K s) : K (enterUp x s) :=
  h.slotsOnUp _ (h.sendCyclic _ (h.setLink _ _ _ hs))

theorem Fine.endTest {s : State} (x : Link) (r : TestResult) (c : LinkCause) (t : Option TrainContent)
    (hs : K s) : K (endTest x r c t s) :=
  h.enterTraining _ _ _ (h.self.emit _ _ (h.self.mapLink hs))

theorem Fine.sendLoop {s : State} (x : Link) (hs : K s) : K (sendLoop x s) :=
  h.self.mapLink (h.send _ _ hs)

theorem Fine.startRunning {s : State} (x : Link) (hs : K s) : K (startRunning x s) :=
  h.sendLoop _ (h.self.mapLink hs)

theorem Fine.takeEcho {s : State} (x : Link) (i : Nat) (p : List Byte) (hs : K s) : K (takeEcho x i p s) := by
  unfold Machine.takeEcho; dsimp only; repeat' split
  all_goals first
    | exact h.endTest _ _ _ _ (h.self.mapLink hs)
    | exact h.self.mapLink hs

theorem Fine.answerTest {s : State} (x : Link) (hs : K s) : K (answerTest x s) :=
  h.self.mapLink (h.sendTrain _ _ _ hs)

theorem Fine.testAsked {s : State} (x : Link) (hs : K s) : K (testAsked x s) := by
  unfold Machine.testAsked; split
  · exact h.answerTest _ (h.setLink _ _ _ hs)
  · exact h.enterTraining _ _ _ hs

theorem Fine.startTest {s : State} (l : Nat) (p : List Byte) (n : Nat) (hs : K s) : K (startTest l p n s) := by
  unfold Machine.startTest; split
  · exact hs
  · exact h.sendTrain _ _ _ (h.setLink _ _ _ hs)

theorem Fine.trainInTraining {s : State} (x : Link) (c : TrainContent) (hs : K s) : K (trainInTraining x c s) := by
  unfold Machine.trainInTraining; dsimp only; split
  · exact h.enterUp _ (h.self.mapLink hs)
  · exact h.self.mapLink hs

theorem Fine.acceptCyclic {s : State} (x : Link) (k : Byte) (ps : List PubFields) (hs : K s) :
    K (acceptCyclic x k ps s) := h.deliver _ _ (h.self.mapLink hs)

theorem Fine.cyclicInTraining {s : State} (x : Link) (k : Byte) (ps : List PubFields) (hs : K s) :
    K (cyclicInTraining x k ps s) := by
  unfold Machine.cyclicInTraining; dsimp only; repeat' split
  all_goals first
    | exact hs
    | exact h.acceptCyclic _ _ _ (h.enterUp _ hs)
    | exact h.enterUp _ hs

theorem Fine.takeTrain {s : State} (x : Link) (c : TrainContent) (hs : K s) : K (takeTrain x c s) := by
  unfold Machine.takeTrain; repeat' split
  all_goals first
    | exact hs
    | exact h.enterTraining _ _ _ hs
    | exact h.trainInTraining _ _ hs
    | exact h.testAsked _ hs
    | exact h.answerTest _ hs
    | exact h.startRunning _ hs
    | exact h.endTest _ _ _ _ hs

theorem Fine.takeCyclic {s : State} (x : Link) (k : Byte) (ps : List PubFields) (hs : K s) :
    K (takeCyclic x k ps s) := by
  unfold Machine.takeCyclic; repeat' split
  all_goals first | exact hs | exact h.cyclicInTraining _ _ _ hs | exact h.acceptCyclic _ _ _ hs

theorem Fine.takeLoop {s : State} (x : Link) (i : Byte) (p : List Byte) (hs : K s) : K (takeLoop x i p s) := by
  unfold Machine.takeLoop; repeat' split
  all_goals first | exact hs | exact h.self.mapLink (h.send _ _ hs) | exact h.takeEcho _ _ _ hs

theorem Fine.badFrame {s : State} (x : Link) (hs : K s) : K (badFrame x s) := by
  have h1 : K (s.mapLink x.id Link.countBad) := h.self.mapLink hs
  unfold Machine.badFrame; dsimp only
  split
  · exact h1
  · split
    · exact h.enterDown _ _ h1
    · split
      · exact h.endTest _ _ _ _ h1
      · exact h.enterTraining _ _ _ h1
    · exact h1
    · exact h1
    · exact h1

theorem Fine.mismatchedFrame {s : State} (x : Link) (a b : Nat) (hs : K s) : K (mismatchedFrame x a b s) := by
  have h1 : K (s.mapLink x.id (fun y => { { y with badRun := 0 }.forgetTrain with mismatch := true })) :=
    h.self.mapLink hs
  unfold Machine.mismatchedFrame; dsimp only; split
  · exact h1
  · exact h.self.emit _ _ h1

theorem Fine.validFrame {s : State} (x : Link) (f : LinkFrame) (hs : K s) : K (validFrame x f s) := by
  have h1 : K (s.mapLink x.id Link.countValid) := h.self.mapLink hs
  unfold Machine.validFrame; dsimp only; split
  · exact h.takeTrain _ _ h1
  · exact h.takeCyclic _ _ _ h1
  · exact h.takeLoop _ _ _ h1

theorem Fine.takeRun {s : State} (l : Nat) (c : RunClass) (hs : K s) : K (takeRun l c s) := by
  unfold Machine.takeRun knownFrame; repeat' split
  all_goals first
    | exact hs
    | exact h.badFrame _ hs
    | exact h.self.mapLink hs
    | exact h.validFrame _ _ hs
    | exact h.mismatchedFrame _ _ _ hs

theorem Fine.linkSendExpired {s : State} (l : Nat) (hs : K s) : K (linkSendExpired l s) := by
  unfold Machine.linkSendExpired; repeat' split
  all_goals first
    | exact hs
    | exact h.sendTrain _ _ _ (h.self.mapLink hs)
    | exact h.sendCyclic _ (h.self.mapLink hs)
    | exact h.sendLoop _ hs

theorem Fine.trainingExpired {s : State} (l : Nat) (hs : K s) : K (trainingExpired l s) := by
  unfold Machine.trainingExpired; repeat' split
  all_goals first | exact hs | exact h.enterDown _ _ hs

theorem Fine.supervisionExpired {s : State} (l : Nat) (hs : K s) : K (supervisionExpired l s) := by
  unfold Machine.supervisionExpired; repeat' split
  all_goals first | exact hs | exact h.enterDown _ _ hs

theorem Fine.answerExpired {s : State} (l : Nat) (hs : K s) : K (answerExpired l s) := by
  unfold Machine.answerExpired; repeat' split
  all_goals first | exact hs | exact h.endTest _ _ _ _ hs

theorem Fine.echoExpired {s : State} (l : Nat) (hs : K s) : K (echoExpired l s) := by
  unfold Machine.echoExpired
  split
  · exact hs
  · split
    · split
      · exact h.endTest _ _ _ _ hs
      · exact h.enterTraining _ _ _ hs
    · exact hs

theorem Fine.startLink {s : State} (l : Nat) (hs : K s) : K (startLink l s) := by
  unfold Machine.startLink; repeat' split
  all_goals first | exact hs | exact h.enterDown _ _ hs

theorem Fine.resetLink {s : State} (l : Nat) (hs : K s) : K (resetLink l s) := by
  unfold Machine.resetLink; repeat' split
  all_goals first
    | exact hs
    | exact h.sendTrain _ _ _ (h.self.mapLink hs)
    | exact h.self.mapLink hs

theorem Fine.haltLink {s : State} (l : Nat) (hs : K s) : K (haltLink l s) := by
  unfold Machine.haltLink
  split
  · exact hs
  · next x _ =>
    split
    · dsimp only
      refine h.handLink _ _ (h.setLink _ _ _ ?_)
      split
      · exact h.self.emit _ _ (h.self.mapLink hs)
      · exact hs
    · exact hs

end RouteRequests

end Sys2Proof.Machine

/-!
PROOFS. The work of the channels and of the device keeps every law that is `Fine`. Parts of O57 and O58.
-/

namespace Sys2Proof.Machine

/-! ## The channel records and the windows (R25, R30, R34 to R37) -/

theorem ChannelLaw.of_eq {s t : State} (h : ChannelLaw s) (hc : ∀ ch, t.chan ch = s.chan ch) (ht : t.table = s.table) :
    ChannelLaw t where
  paused := by
    have ha : t.chanA = s.chanA := hc .A
    have hb : t.chanB = s.chanB := hc .B
    rw [ha, hb]; exact h.paused
  supervision ch := by rw [hc]; exact h.supervision ch
  pauseLimit ch := by rw [hc]; exact h.pauseLimit ch
  windows x hx := by rw [hc]; exact h.windows x (ht ▸ hx)

/-- Entries of the table alone change, each keeping a lawful window. -/
theorem ChannelLaw.setTable {s : State} (h : ChannelLaw s) {t : List HalfRequest}
    (ht : ∀ x ∈ t, x.window.mode = if (s.chan x.filler.other).state = .paused then .suspended else .running) :
    ChannelLaw { s with table := t } :=
  ⟨h.paused, h.supervision, h.pauseLimit, ht⟩

theorem ChanStep.table {s : State} {t : List HalfRequest}
    (ht : ChannelLaw s → ∀ x ∈ t, x.window.mode = if (s.chan x.filler.other).state = .paused then .suspended else .running) :
    ChanStep s { s with table := t } := ⟨rfl, fun h => h.setTable (ht h)⟩

theorem chan_setChan_other (s : State) (ch : Channel) (c : ChannelRec) :
    (s.setChan ch c).chan ch.other = s.chan ch.other := by cases ch <;> rfl

/-- One channel record changes, and the windows with it. -/
theorem ChannelLaw.setChan {s : State} (h : ChannelLaw s) (ch : Channel) {c : ChannelRec} {t : List HalfRequest}
    (hp : c.state = .paused → (s.chan ch.other).state ≠ .paused) (hs : c.supervision.mode = .running ↔ c.state = .active)
    (hl : c.pauseLimit.mode = .running ↔ c.state = .paused)
    (ht : ∀ x ∈ t, x.window.mode = if (if x.filler.other = ch then c else s.chan x.filler.other).state = .paused
      then .suspended else .running) :
    ChannelLaw { s.setChan ch c with table := t } where
  paused := by
    have hq := h.paused
    cases ch
    · exact fun e => hp e.1 e.2
    · exact fun e => hp e.2 e.1
  supervision k := by
    cases ch <;> cases k
    · exact hs
    · exact h.supervision .B
    · exact h.supervision .A
    · exact hs
  pauseLimit k := by
    cases ch <;> cases k
    · exact hl
    · exact h.pauseLimit .B
    · exact h.pauseLimit .A
    · exact hl
  windows x hx := by
    have e := ht x hx
    cases ch <;> cases hf : x.filler <;> rw [hf] at e <;> exact e

theorem ChanStep.setChan {s : State} {ch : Channel} {c : ChannelRec} {t : List HalfRequest}
    (h : ChannelLaw s → ChannelLaw { s.setChan ch c with table := t }) : ChanStep s { s.setChan ch c with table := t } :=
  ⟨by cases ch <;> rfl, h⟩

/-- A channel that was not PAUSED and is not, with no entry changed. -/
theorem ChanStep.unpaused {s : State} {ch : Channel} {c : ChannelRec} (hw : (s.chan ch).state ≠ .paused) (hp : c.state ≠ .paused)
    (hs : ChannelLaw s → (c.supervision.mode = .running ↔ c.state = .active))
    (hl : ChannelLaw s → c.pauseLimit.mode ≠ .running) : ChanStep s (s.setChan ch c) := by
  have he : s.setChan ch c = { s.setChan ch c with table := s.table } := by cases ch <;> rfl
  rw [he]
  refine .setChan fun h => h.setChan ch (fun e => absurd e hp) (hs h) ⟨fun e => absurd e (hl h), fun e => absurd e hp⟩ ?_
  intro x hx
  rw [h.windows x hx]
  by_cases e : x.filler.other = ch
  · rw [if_pos e, e, if_neg hw, if_neg hp]
  · rw [if_neg e]

/-- A channel record that keeps its state and its timers' modes. -/
theorem ChanStep.touch {s : State} {ch : Channel} {c : ChannelRec} (hst : c.state = (s.chan ch).state)
    (hs : c.supervision.mode = (s.chan ch).supervision.mode) (hl : c.pauseLimit.mode = (s.chan ch).pauseLimit.mode) :
    ChanStep s (s.setChan ch c) := by
  have he : s.setChan ch c = { s.setChan ch c with table := s.table } := by cases ch <;> rfl
  rw [he]
  refine .setChan fun h => h.setChan ch (fun e => ?_) (by rw [hs, hst]; exact h.supervision ch)
    (by rw [hl, hst]; exact h.pauseLimit ch) ?_
  · rw [hst] at e
    have hp := h.paused
    cases ch
    · exact fun e' => hp ⟨e, e'⟩
    · exact fun e' => hp ⟨e', e⟩
  · intro x hx
    rw [h.windows x hx]
    by_cases e : x.filler.other = ch
    · rw [if_pos e, e, hst]
    · rw [if_neg e]

/-- A channel enters or leaves PAUSED, and the windows that await it with it (R30). -/
theorem ChanStep.awaiting {s : State} {ch : Channel} {c : ChannelRec} {f : Timer → Timer} {m : TimerMode}
    (hp : c.state = .paused → (s.chan ch.other).state ≠ .paused) (hs : c.supervision.mode = .running ↔ c.state = .active)
    (hl : c.pauseLimit.mode = .running ↔ c.state = .paused)
    (hw : m = if (s.chan ch).state = .paused then .suspended else .running)
    (hf : ∀ t : Timer, t.mode = m → (f t).mode = if c.state = .paused then .suspended else .running) :
    ChanStep s { s.setChan ch c with
      table := s.table.map (fun h => if h.filler = ch.other then { h with window := f h.window } else h) } := by
  refine .setChan fun h => h.setChan ch hp hs hl ?_
  intro x hx
  obtain ⟨y, hy, rfl⟩ := List.mem_map.1 hx
  have e := h.windows y hy
  by_cases hfi : y.filler = ch.other
  · rw [if_pos hfi]
    have ho : y.filler.other = ch := by rw [hfi]; cases ch <;> rfl
    show (f y.window).mode = if (if y.filler.other = ch then _ else _ : ChannelRec).state = .paused then _ else _
    rw [if_pos ho]
    exact hf _ (by rw [e, ho, hw])
  · rw [if_neg hfi]
    have ho : y.filler.other ≠ ch := by
      intro e'; apply hfi; rw [← e']; cases y.filler <;> rfl
    rw [if_neg ho]; exact e

theorem SameRest.trans {s t u : State} (h : SameRest s t) (k : SameRest t u) : SameRest s u :=
  ⟨k.sections.trans h.sections, k.points.trans h.points, k.signals.trans h.signals, k.store.trans h.store,
    k.routes.trans h.routes, k.slots.trans h.slots, k.table.trans h.table, k.chanA.trans h.chanA, k.chanB.trans h.chanB,
    k.dev.trans h.dev⟩

theorem SameRest.refl (s : State) : SameRest s s := ⟨rfl, rfl, rfl, rfl, rfl, rfl, rfl, rfl, rfl, rfl⟩

theorem sameRest_emitTo (ch : Channel) (e : Event) (s : State) : SameRest s (emitTo ch e s) := by
  cases ch <;> exact ⟨rfl, rfl, rfl, rfl, rfl, rfl, rfl, rfl, rfl, rfl⟩

theorem sameRest_setQueue (ch : Channel) (q : EventQueue) (s : State) : SameRest s (s.setQueue ch q) := by
  cases ch <;> exact ⟨rfl, rfl, rfl, rfl, rfl, rfl, rfl, rfl, rfl, rfl⟩

theorem sameRest_setPort (ch : Channel) (p : Port) (s : State) : SameRest s (s.setPort ch p) := by
  cases ch <;> exact ⟨rfl, rfl, rfl, rfl, rfl, rfl, rfl, rfl, rfl, rfl⟩

theorem SameRest.setTable {s t : State} (h : SameRest s t) (u : List HalfRequest) :
    SameRest { s with table := u } { t with table := u } :=
  ⟨h.sections, h.points, h.signals, h.store, h.routes, h.slots, rfl, h.chanA, h.chanB, h.dev⟩

section ChannelRecords
variable {B K : State → Prop} {hot : Doubt → Prop} (h : Fine B K hot)
include h

theorem Fine.port {s : State} (ch : Channel) (p : Port) (hs : K s) : K (s.setPort ch p) :=
  h.self.rest s _ (sameRest_setPort ch p s) hs

theorem Fine.queue {s : State} (ch : Channel) (q : EventQueue) (hs : K s) : K (s.setQueue ch q) :=
  h.self.rest s _ (sameRest_setQueue ch q s) hs

/-- A change of the table alone. -/
theorem Fine.table {s : State} {t : List HalfRequest}
    (ht : ChannelLaw s → ∀ x ∈ t, x.window.mode = if (s.chan x.filler.other).state = .paused then .suspended else .running)
    (hs : K s) : K { s with table := t } :=
  h.self.chan s _ (.table ht) (fun ch _ => by cases ch <;> rfl) hs

theorem Fine.lessTable {s : State} {t : List HalfRequest} (ht : t ⊆ s.table) (hs : K s) : K { s with table := t } :=
  h.table (fun hl x hx => hl.windows x (ht hx)) hs

theorem Fine.withdrawTable {s : State} (hs : K s) : K (withdrawTable s) :=
  h.lessTable (List.nil_subset _) (foldl_ind (P := K) (fun _ _ ht => h.self.emit _ _ ht) _ hs)

theorem Fine.removeHalf {s : State} (tag : Byte) (hs : K s) : K (removeHalf tag s) :=
  h.lessTable List.filter_sublist.subset hs

theorem Fine.windowExpired {s : State} (tag : Byte) (hs : K s) : K (windowExpired tag s) := by
  unfold Machine.windowExpired; repeat' split
  all_goals first | exact hs | exact h.self.emit _ _ (h.removeHalf tag hs)

/-- A change that keeps the state of every channel. -/
theorem Fine.chanTouch {s : State} {ch : Channel} {c : ChannelRec} (hst : c.state = (s.chan ch).state)
    (hs' : c.supervision.mode = (s.chan ch).supervision.mode) (hl : c.pauseLimit.mode = (s.chan ch).pauseLimit.mode)
    (hs : K s) : K (s.setChan ch c) :=
  h.self.chan s _ (.touch hst hs' hl) (fun k _ => by cases ch <;> cases k <;> first | rfl | exact hst) hs

theorem Fine.handChannel_units (ch : Channel) : ∀ f ∈ handChannel ch, ∀ s, K s → K (f s) := by
  unfold Machine.handChannel
  simp only [List.mem_cons, List.not_mem_nil, or_false]
  rintro f (rfl | rfl) t ht
  · exact h.permOn _ ht
  · exact h.retestAll ht

/-- A change of one channel's state, handed on at once (R38). -/
theorem Fine.channelHanded {s t u : State} (ch : Channel) (hc : ChanStep s t) (ho : t.chan ch.other = s.chan ch.other)
    (hr : SameRest t u) (hs : K s) : K (Machine.inAnyOrder (handChannel ch) u) := by
  by_cases hh : hot (.cond (.channel ch))
  · have hb : B u := h.base.rest t u hr (h.base.chan s t hc (fun _ e => e.elim) (h.sub s hs))
    exact inAnyOrder_reach (P := B) (Q := K) h.base.choice h.self.choice (f := Machine.permOn (.channel ch)) (by simp [handChannel])
      (h.toBase.handChannel_units ch) (fun v hv => h.perm v _ _ hh (.inl rfl) hv)
      (fun f hf v _ hv => h.handChannel_units ch f hf v hv) hb
  · refine h.self.inAnyOrder (h.handChannel_units ch) (h.self.rest t u hr (h.self.chan s t hc (fun k hk => ?_) hs))
    have : k = ch.other := by
      cases ch <;> cases k <;> first | rfl | exact absurd hk hh
    rw [this, ho]

theorem Fine.frameArrives {s : State} (ch : Channel) (hs : K s) : K (frameArrives ch s) := by
  unfold Machine.frameArrives; split
  · next e =>
    refine h.channelHanded ch (.unpaused (c := { s.chan ch with
      supervision := Timer.start (param 2 s), state := .active, cause := some .firstFrame }) (by rw [e]; decide) (fun e => by cases e)
      (fun _ => by simp [Timer.start]) (fun hl => ?_)) (chan_setChan_other _ _ _)
      ((sameRest_emitTo .A _ _).trans (sameRest_emitTo .B _ _)) hs
    show ¬ (s.chan ch).pauseLimit.mode = .running
    rw [hl.pauseLimit, e]; decide
  · next e =>
    refine h.self.chan s _ (.unpaused (by rw [e]; decide) (by show (s.chan ch).state ≠ _; rw [e]; decide)
      (fun _ => by show _ ↔ (s.chan ch).state = _; rw [e]; simp [Timer.start]) (fun hl => ?_))
      (fun k _ => by cases ch <;> cases k <;> rfl) hs
    show ¬ (s.chan ch).pauseLimit.mode = .running
    rw [hl.pauseLimit, e]; decide
  · exact hs
  · exact hs

omit h in
/-- A change of a channel's state is queued before or after the windows change (R30). -/
theorem sameRest_mapAwaiting (ch : Channel) (f : Timer → Timer) (st : ChState) (cause : ChCause)
    (g : ChannelRec → ChannelRec) (s : State) :
    SameRest { s.setChan ch { g (s.chan ch) with state := st, cause := some cause } with
      table := s.table.map (fun h => if h.filler = ch.other then { h with window := f h.window } else h) }
      (mapAwaiting ch f (setChannel ch st cause g s)) := by
  cases ch <;> exact ⟨rfl, rfl, rfl, rfl, rfl, rfl, rfl, rfl, rfl, rfl⟩

theorem Fine.enterPaused {s : State} {ch : Channel} (ha : (s.chan ch).state = .active)
    (ho : (s.chan ch.other).state = .active) (hs : K s) : K (enterPaused ch s) := by
  refine h.channelHanded ch (.awaiting (m := .running) (c := { s.chan ch with
      supervision := .off, pauseLimit := Timer.start (param 3 s), state := .paused, cause := some .pause })
    (fun _ => by rw [ho]; decide) (by simp [Timer.off]) (by simp [Timer.start]) (by rw [ha]; rfl)
    (f := Timer.suspend) (fun t ht => ?_)) (chan_setChan_other _ _ _)
    (sameRest_mapAwaiting ch _ _ _ (fun c => { c with supervision := .off, pauseLimit := Timer.start (param 3 s) }) _) hs
  unfold Timer.suspend; rw [if_pos ht]; rfl

theorem Fine.leavePaused {s : State} {ch : Channel} (hp : (s.chan ch).state = .paused) (hs : K s) : K (leavePaused ch s) := by
  refine h.channelHanded ch (.awaiting (m := .suspended) (c := { s.chan ch with
      pauseLimit := .off, supervision := Timer.start (param 2 s), state := .active, cause := some .resume })
    (fun e => by cases e) (by simp [Timer.start]) (by simp [Timer.off]) (by rw [hp]; rfl)
    (f := Timer.resume) (fun t ht => ?_)) (chan_setChan_other _ _ _)
    (sameRest_mapAwaiting ch _ _ _ (fun c => { c with pauseLimit := .off, supervision := Timer.start (param 2 s) }) _) hs
  unfold Timer.resume; rw [if_pos ht]; rfl

/-! ## The loss of a channel (R3, R37 to R39) -/

omit h in
/-- What a lost channel hands on is the units' reactions (R38, R98). -/
theorem lossWork_reacts (ch : Channel) (s : State) {u : State} (blank : ∀ x ∈ u.points, x.view ch = .unknown) :
    ∀ f ∈ handChannel ch ++ unknownChanges s, ∀ t, Reacts u t → Reacts u (f t) := by
  have hc := reacts_closed u
  intro f hf
  rw [handLost_work] at hf
  simp only [State.lossWork, channelWork, List.mem_append, List.mem_cons, List.not_mem_nil, or_false, List.mem_map] at hf
  rcases hf with (rfl | rfl) | (⟨x, -, rfl⟩ | ⟨x, -, rfl⟩) | ⟨x, -, rfl⟩
  · exact fun _ => hc.permOn _
  · exact fun _ => hc.retestAll
  · exact fun _ => hc.sectionChanged _
  · refine fun t ht => reacts_pointViewChanged x (fun y m hy _ => bothAt_of_unknown ?_ _) ht
    have e := ht.map_points (g := fun x => x.view ch) (fun x => by cases ch <;> rfl)
    rw [List.map_congr_left (g := fun _ => PointView.unknown) blank] at e
    have hv : y.view ch = .unknown := forall_of_map_const e y (List.mem_of_find?_eq_some hy)
    cases ch
    · exact .inl hv
    · exact .inr hv
  · exact fun _ => hc.signalChanged _

theorem Fine.lossWork_units (ch : Channel) (s0 : State) : ∀ f ∈ handChannel ch ++ unknownChanges s0, ∀ s, K s → K (f s) := by
  intro f hf
  rcases List.mem_append.1 hf with hf | hf
  · exact h.handChannel_units ch f hf
  · unfold Machine.unknownChanges at hf
    rcases List.mem_append.1 hf with hf | hf
    · rcases List.mem_append.1 hf with hf | hf
      · exact forall_map (g := fun x : SectionRec => Machine.sectionChanged x) (fun _ _ => h.sectionChanged _) f hf
      · exact forall_map (g := fun x : PointRec => Machine.pointViewChanged x) (fun _ _ => h.pointViewChanged _) f hf
    · exact forall_map (g := fun x : SignalRec => Machine.signalChanged x) (fun _ _ => h.signalChanged _) f hf

omit h in
/-- A look-up after a change of all records that keeps the keys. -/
theorem find?_mapAll {α : Type} {key : α → Nat} {f : α → α} (hf : ∀ x, key (f x) = key x) (id : Nat) (xs : List α) :
    (xs.map f).find? (fun x => key x == id) = (xs.find? (fun x => key x == id)).map f := by
  rw [List.find?_map]
  congr 2
  funext x
  simp [hf]

omit h in
/-- What the units do after a change of a section's status leaves that change. -/
theorem Reacts.section_open {u t : State} (hr : Reacts u t) {x y : SectionRec} {δ : Doubt} (hh : hot δ) (hδ : δ.OfSection x.id)
    (hy : u.section? x.id = some y) (hne : y.status ≠ x.status) (hb : B t) : SectionOpen B K hot x t := by
  rcases (show SectionOpen (fun _ => True) (fun _ => False) hot x u from .inr ⟨trivial, ⟨δ, hh, hδ⟩, y, hy, hne⟩).react hr id id
    with e | ⟨-, e⟩
  · exact e.elim
  · exact .inr ⟨hb, e⟩

omit h in
theorem Reacts.signal_open {u t : State} (hr : Reacts u t) {x y : SignalRec} {δ : Doubt} (hh : hot δ) (hδ : δ.OfSignal x.id)
    (hy : u.signal? x.id = some y) (hne : y.status ≠ x.status ∨ y.faulted ≠ x.faulted ∨ y.mask ≠ x.mask) (hb : B t) :
    SignalOpen B K hot x t := by
  rcases (show SignalOpen (fun _ => True) (fun _ => False) hot x u from .inr ⟨trivial, ⟨δ, hh, hδ⟩, y, hy, hne⟩).react hr id id
    with e | ⟨-, e⟩
  · exact e.elim
  · exact .inr ⟨hb, e⟩

/-- After a change of a point's view the units leave what `pointViewChanged` settles. -/
theorem Fine.closePointAfter {u t : State} (hr : Reacts u t) {ch : Channel} {v : PointView} {p6 : Nat} {x : PointRec} {δ : Doubt}
    (hh : hot δ) (hδ : δ.OfPoint x.id) (hl : x.Lawful) (hy : u.point? x.id = some (x.withView p6 ch v))
    (hne : (x.withView p6 ch v).status ≠ x.status) (hb : B t) : K (Machine.pointViewChanged x t) := by
  have hrel := hr.point?_rel x.id
  rw [hy] at hrel
  cases hz : t.point? x.id with
  | none => rw [hz] at hrel; cases hrel
  | some z =>
    rw [hz] at hrel
    cases hrel with
    | some hc =>
      have hst : z.status = (x.withView p6 ch v).status := (congrArg PointRec.status hc : z.core.status = (x.withView p6 ch v).core.status)
      have hva : z.viewA = (x.withView p6 ch v).viewA := (congrArg PointRec.viewA hc : z.core.viewA = (x.withView p6 ch v).core.viewA)
      have hvb : z.viewB = (x.withView p6 ch v).viewB := (congrArg PointRec.viewB hc : z.core.viewB = (x.withView p6 ch v).core.viewB)
      have hmo : z.move = (x.withView p6 ch v).move := (congrArg PointRec.move hc : z.core.move = (x.withView p6 ch v).core.move)
      refine h.closePointView hz (fun hv => hne ?_) ?_ (by rw [hst]; exact hne) (.inr ⟨hb, δ, hh, hδ⟩)
      · rw [PointRec.withView_of_eq]
        have := (PointRec.withView_view p6 ch v x).1
        cases ch
        · exact ((this.symm.trans hva.symm).trans hv.1).symm
        · exact ((this.symm.trans hvb.symm).trans hv.2).symm
      · rw [hmo, (PointRec.withView_move p6 ch v x).1]
        by_contra hm
        exact hne (hl.moving_view hm _ _ _)

/-- The views of a channel become UNKNOWN and what that changes is handed on, with the change of the channel's state: a law in
doubt by an element's status is settled by that element's part, one in doubt by the channel's state by the channel's part. -/
theorem Fine.handLost {s u : State} (ch : Channel) (hk : PointsKnown hot s) (hs : K s)
    (hx : u.sections = (viewsUnknown ch s).sections) (hp : u.points = (viewsUnknown ch s).points)
    (hg : u.signals = (viewsUnknown ch s).signals) (hB : B u)
    (hK : K (viewsUnknown ch s) → ¬ hot (.cond (.channel ch)) → K u) :
    K (Machine.inAnyOrder (handChannel ch ++ unknownChanges s) u) := by
  have hblank : ∀ x ∈ u.points, x.view ch = .unknown := by
    rw [hp]; exact (blanked_viewsUnknown ch s).unknown.2.1
  have hreach : ∀ f ∈ handChannel ch ++ unknownChanges s, (∀ t, Reacts u t → B t → K (f t)) →
      K (Machine.inAnyOrder (handChannel ch ++ unknownChanges s) u) := fun f hf hset =>
    h.settles_inAnyOrder hf (lossWork_reacts ch s hblank) (h.toBase.lossWork_units ch s) (h.lossWork_units ch s) hset hB
  by_cases h1 : hot (.cond (.channel ch))
  · exact hreach (Machine.permOn (.channel ch)) (List.mem_append_left _ (by simp [handChannel]))
      (fun t _ hb => h.perm t _ _ h1 (.inl rfl) hb)
  by_cases h2 : ∃ δ x, hot δ ∧ δ.OfSection x.id ∧ s.section? x.id = some x
      ∧ (x.withView (param 4 s) (param 5 s) ch .unknown).status ≠ x.status
  · obtain ⟨δ, x, hh, hδ, hfx, hne⟩ := h2
    have hu : u.section? x.id = some (x.withView (param 4 s) (param 5 s) ch .unknown) := by
      unfold State.section? at hfx ⊢
      rw [hx]
      show List.find? _ (List.map _ _) = _
      rw [find?_mapAll (key := SectionRec.id) (fun y => (SectionHolds.view _ _ ch .unknown y).1), hfx, Option.map_some]
    exact hreach (Machine.sectionChanged x) (List.mem_append_right _ (List.mem_append_left _ (List.mem_append_left _
      (List.mem_map_of_mem (List.mem_of_find?_eq_some hfx)))))
      (fun t hr hb => h.closeSection (hr.section_open hh hδ hu hne hb))
  by_cases h3 : ∃ δ x, hot δ ∧ δ.OfPoint x.id ∧ s.point? x.id = some x
      ∧ (x.withView (param 6 s) ch .unknown).status ≠ x.status
  · obtain ⟨δ, x, hh, hδ, hfx, hne⟩ := h3
    have hu : u.point? x.id = some (x.withView (param 6 s) ch .unknown) := by
      unfold State.point? at hfx ⊢
      rw [hp]
      show List.find? _ (List.map _ _) = _
      rw [find?_mapAll (key := PointRec.id) (fun y => (PointHolds.view _ ch .unknown y).1), hfx, Option.map_some]
    exact hreach (Machine.pointViewChanged x) (List.mem_append_right _ (List.mem_append_left _ (List.mem_append_right _
      (List.mem_map_of_mem (List.mem_of_find?_eq_some hfx)))))
      (fun t hr hb => h.closePointAfter hr hh hδ
        ((hk ⟨δ, x.id, hh, hδ⟩).points x (List.mem_of_find?_eq_some hfx)) hu hne hb)
  by_cases h4 : ∃ δ x, hot δ ∧ δ.OfSignal x.id ∧ s.signal? x.id = some x
      ∧ ((x.withView (param 7 s) ch .unknown).status ≠ x.status ∨ (x.withView (param 7 s) ch .unknown).faulted ≠ x.faulted
        ∨ (x.withView (param 7 s) ch .unknown).mask ≠ x.mask)
  · obtain ⟨δ, x, hh, hδ, hfx, hne⟩ := h4
    have hu : u.signal? x.id = some (x.withView (param 7 s) ch .unknown) := by
      unfold State.signal? at hfx ⊢
      rw [hg]
      show List.find? _ (List.map _ _) = _
      rw [find?_mapAll (key := SignalRec.id) (fun y => (SignalHolds.view _ ch .unknown y).1), hfx, Option.map_some]
    exact hreach (Machine.signalChanged x) (List.mem_append_right _ (List.mem_append_right _
      (List.mem_map_of_mem (List.mem_of_find?_eq_some hfx))))
      (fun t hr hb => h.closeSignal (hr.signal_open hh hδ hu hne hb))
  refine h.self.inAnyOrder (h.lossWork_units ch s) (hK ?_ h1)
  refine h.self.signals _ _ (SignalHolds.view (param 7 s) ch .unknown) (fun id x hh hfx => ?_)
    (h.self.points _ _ (PointHolds.view (param 6 s) ch .unknown) (fun id x hh hfx => ?_)
      (h.self.sections s _ (SectionHolds.view (param 4 s) (param 5 s) ch .unknown) (fun id x hh hfx => ?_) hs))
  · obtain rfl := signal?_id hfx
    by_contra hne
    refine h4 ?_
    rw [not_and_or, not_and_or] at hne
    rcases hh with hh | hh
    · exact ⟨_, x, hh, .inl rfl, hfx, hne⟩
    · exact ⟨_, x, hh, .inr rfl, hfx, hne⟩
  · obtain rfl := point?_id hfx
    by_contra hne
    refine h3 ?_
    rcases hh with hh | hh
    · exact ⟨_, x, hh, .inl rfl, hfx, hne⟩
    · exact ⟨_, x, hh, .inr rfl, hfx, hne⟩
  · obtain rfl := sectionLookup_id hfx
    by_contra hne
    refine h2 ?_
    rcases hh with hh | ⟨r, hh⟩
    · exact ⟨_, x, hh, .inl rfl, hfx, hne⟩
    · exact ⟨_, x, hh, .inr ⟨r, rfl⟩, hfx, hne⟩

omit h in
theorem sameRest_withdrawTableTo (ch : Channel) (s : State) : SameRest { s with table := [] } (withdrawTableTo ch s) :=
  SameRest.setTable (foldl_ind (P := SameRest s) (fun t x ht => ht.trans (sameRest_emitTo ch (withdrawnEvent x) t)) _ (.refl s)) []

omit h in
theorem emitAll_sameRest (es : List Event) (s : State) : SameRest s (emitAll es s) :=
  foldl_ind (P := SameRest s)
    (fun t e ht => ht.trans ((sameRest_emitTo .A e t).trans (sameRest_emitTo .B e _))) _ (.refl s)

/-- A channel that is gone, with no half left (R37, R39). -/
theorem Fine.channelGone {s : State} (ch : Channel) {c : ChannelRec} (hp : c.state ≠ .paused) (ha : c.state ≠ .active)
    (h1 : c.supervision.mode ≠ .running) (h2 : c.pauseLimit.mode ≠ .running) (hh : ¬ hot (.cond (.channel ch))) (hs : K s) :
    K { s.setChan ch c with table := [] } := by
  refine h.self.chan s _ (.setChan fun hl => hl.setChan ch (fun e => absurd e hp) ⟨fun e => absurd e h1, fun e => absurd e ha⟩
    ⟨fun e => absurd e h2, fun e => absurd e hp⟩ (fun _ hx => by cases hx)) (fun k hk => ?_) hs
  have : k = ch.other := by
    cases ch <;> cases k <;> first | rfl | exact absurd hk hh
  subst this
  exact congrArg ChannelRec.state (chan_setChan_other s ch c)

omit h in
theorem sameRest_lost (ch : Channel) (cause : ChCause) (s : State) :
    SameRest { s.setChan ch { s.chan ch with supervision := .off, pauseLimit := .off, state := .lost, cause := some cause } with
        table := [] }
      (setChannel ch .lost cause (fun c => { c with supervision := .off, pauseLimit := .off }) (withdrawTable s)) := by
  have e := emitAll_sameRest (s.table.map withdrawnEvent) s
  unfold setChannel
  rw [withdrawTable_chan]
  refine SameRest.trans ?_ ((sameRest_emitTo .A _ _).trans (sameRest_emitTo .B _ _))
  cases ch
  · exact ⟨e.sections, e.points, e.signals, e.store, e.routes, e.slots, rfl, rfl, e.chanB, e.dev⟩
  · exact ⟨e.sections, e.points, e.signals, e.store, e.routes, e.slots, rfl, e.chanA, rfl, e.dev⟩

theorem Fine.viewsUnknown_base {s : State} (ch : Channel) (hs : B s) : B (viewsUnknown ch s) :=
  h.base.signals _ _ (SignalHolds.view (param 7 s) ch .unknown) (fun _ _ e => e.elim (fun e => e.elim) (fun e => e.elim))
    (h.base.points _ _ (PointHolds.view (param 6 s) ch .unknown) (fun _ _ e => e.elim (fun e => e.elim) (fun e => e.elim))
      (h.base.sections s _ (SectionHolds.view (param 4 s) (param 5 s) ch .unknown)
        (fun _ _ e => e.elim (fun e => e.elim) (fun ⟨_, e⟩ => e.elim)) hs))

theorem Fine.enterLost {s : State} (ch : Channel) (c : ChCause) (hk : PointsKnown hot s) (hs : K s) : K (enterLost ch c s) := by
  have hr := sameRest_lost ch c (viewsUnknown ch s)
  have hgone : ∀ {Q : State → Prop} {hh : Doubt → Prop} (k : Fine B Q hh), ¬ hh (.cond (.channel ch)) →
      Q (viewsUnknown ch s) → Q (setChannel ch .lost c (fun c => { c with supervision := .off, pauseLimit := .off })
        (Machine.withdrawTable (viewsUnknown ch s))) := fun k hn hv =>
    k.self.rest _ _ hr (k.channelGone ch (c := { (viewsUnknown ch s).chan ch with
      supervision := .off, pauseLimit := .off, state := .lost, cause := some c }) (fun e => by cases e) (fun e => by cases e)
      (by simp [Timer.off]) (by simp [Timer.off]) hn hv)
  exact h.handLost ch hk hs (hr.sections.trans (by cases ch <;> rfl)) (hr.points.trans (by cases ch <;> rfl))
    (hr.signals.trans (by cases ch <;> rfl))
    (hgone h.toBase id (h.viewsUnknown_base ch (h.sub s hs))) (fun hv hn => hgone h hn hv)

theorem Fine.channelSupervisionExpired {s : State} (ch : Channel) (hk : PointsKnown hot s) (hs : K s) :
    K (channelSupervisionExpired ch s) := by
  unfold Machine.channelSupervisionExpired; split
  · exact h.enterLost _ _ hk hs
  · exact hs

theorem Fine.pauseLimitExpired {s : State} (ch : Channel) (hk : PointsKnown hot s) (hs : K s) :
    K (pauseLimitExpired ch s) := by
  unfold Machine.pauseLimitExpired; split
  · exact h.enterLost _ _ hk hs
  · exact hs

omit h in
theorem sameRest_resetChannel (ch : Channel) (s : State) :
    SameRest { (viewsUnknown ch s).setChan ch { ChannelRec.initial true with cause := some .channelReset } with table := [] }
      (resetChannel ch s) := by
  refine SameRest.trans ?_ (sameRest_emitTo ch.other _ _)
  refine SameRest.trans ?_ (sameRest_withdrawTableTo ch.other _)
  exact SameRest.setTable ((sameRest_setPort ch _ _).trans (sameRest_setQueue ch _ _)) []

theorem Fine.resetChannel {s : State} (ch : Channel) (hn : ¬ hot (.cond (.channel ch))) (hs : K (viewsUnknown ch s)) :
    K (resetChannel ch s) :=
  h.self.rest _ _ (sameRest_resetChannel ch s) (h.channelGone ch (fun e => by cases e) (fun e => by cases e)
    (by simp [ChannelRec.initial, Timer.off]) (by simp [ChannelRec.initial, Timer.off]) hn hs)

omit h in
theorem chooseTogether_rest (ch : Channel) (s : State) :
    (chooseTogether ch s).2 = { s with choices := (chooseTogether ch s).2.choices, drawn := (chooseTogether ch s).2.drawn } := by
  unfold Machine.chooseTogether; split
  · exact pick_eq s 2
  · rfl

theorem Fine.channelReset {s : State} (ch : Channel) (hk : PointsKnown hot s) (hs : K s) : K (channelReset ch s) := by
  unfold Machine.channelReset
  dsimp only
  refine h.chanTouch rfl rfl rfl ?_
  generalize hc : chooseTogether ch s = c
  have hc2 := chooseTogether_rest ch s
  rw [hc] at hc2
  have hr : SameRest s c.2 := by rw [hc2]; exact ⟨rfl, rfl, rfl, rfl, rfl, rfl, rfl, rfl, rfl, rfl⟩
  have hv : viewsUnknown ch c.2 = { viewsUnknown ch s with choices := c.2.choices, drawn := c.2.drawn } := by rw [hc2]; rfl
  have hu : ∀ {Q : State → Prop} {hh : Doubt → Prop} (k : Fine B Q hh), ¬ hh (.cond (.channel ch)) →
      Q (viewsUnknown ch s) → Q (if c.1 then (Machine.resetChannel ch c.2).setQueue ch.other .empty else Machine.resetChannel ch c.2) := by
    intro Q hh k hn hq
    have hq' : Q (Machine.resetChannel ch c.2) := k.resetChannel ch hn (by rw [hv]; exact k.self.choice _ _ _ hq)
    split
    · exact k.queue _ _ hq'
    · exact hq'
  have hsame : SameRest (Machine.resetChannel ch c.2)
      (if c.1 then (Machine.resetChannel ch c.2).setQueue ch.other .empty else Machine.resetChannel ch c.2) := by
    split
    · exact sameRest_setQueue _ _ _
    · exact .refl _
  have hall := (sameRest_resetChannel ch c.2).trans hsame
  rw [hv] at hall
  exact h.handLost ch hk hs
    (hall.sections.trans (by cases ch <;> rfl)) (hall.points.trans (by cases ch <;> rfl)) (hall.signals.trans (by cases ch <;> rfl))
    (hu h.toBase id (h.viewsUnknown_base ch (h.sub s hs))) (fun hv hn => hu h hn hv)

theorem Fine.releaseCrst {s : State} (ch : Channel) (hs : K s) : K (releaseCrst ch s) := h.chanTouch rfl rfl rfl hs

/-! ## The device -/

theorem Fine.haltLinks {s : State} (hs : K s) : K (haltLinks s) :=
  h.freezeSlots (h.self.inAnyOrder (forall_map (g := Machine.haltLink) (fun _ _ => h.haltLink _)) hs)

theorem Fine.haltUnits : ∀ f ∈ [Machine.withdrawTable, Machine.withdrawAll, Machine.freezeRoutes, Machine.haltLinks],
    ∀ s, K s → K (f s) := by
  simp only [List.forall_mem_cons]
  exact ⟨fun _ => h.withdrawTable, fun _ => h.withdrawAll, fun _ => h.freezeRoutes, fun _ => h.haltLinks, by simp⟩

/-- A change of the device record that keeps the device state. -/
theorem Fine.devTouch {s : State} {d : Device} (hd : d.state = s.dev.state) (hs : K s) : K { s with dev := d } :=
  h.self.device s d (fun e => hd.symm.trans e) (fun _ => hd) hs

/-- In SAFE_HALT the end of every permission settles what the device state puts in doubt (R99, R167). -/
theorem Fine.enterSafeHalt {s : State} (c : HaltCause) (i : Option FailItem) (n : Nat) (hs : K s) :
    K (enterSafeHalt c i n s) := by
  have hdev : ∀ {Q : State → Prop} {hh : Doubt → Prop} (k : Fine B Q hh), ¬ hh (.cond .device) → Q s →
      Q (emit (.deviceState .safeHalt (haltEventCause c) i) { s with dev := { s.dev with
        state := .safeHalt, haltCause := some c, failItem := i, failIndex := n, checkTimer := .off, health := false } }) :=
    fun k hn hq => k.self.emit _ _ (k.self.device s _ (fun e => by cases e) (fun e => absurd e hn) hq)
  unfold Machine.enterSafeHalt
  by_cases hh : hot (.cond .device)
  · have hb := hdev h.toBase id (h.sub s hs)
    have hf := haltFrame_closed (s := emit (.deviceState .safeHalt (haltEventCause c) i) { s with dev := { s.dev with
        state := .safeHalt, haltCause := some c, failItem := i, failIndex := n, checkTimer := .off, health := false } }) rfl
    refine inAnyOrder_reach (P := fun t => HaltFrame _ t ∧ B t) (Q := K)
      (fun t c d ht => ⟨hf.choice t c d ht.1, h.base.choice t c d ht.2⟩) h.self.choice (f := Machine.withdrawAll) (by simp)
      (fun f hfm t ht => ⟨hf.units f hfm t ht.1, h.toBase.haltUnits f hfm t ht.2⟩) (fun t ht => ?_)
      (fun f hfm t _ hk => h.haltUnits f hfm t hk) ⟨.refl _, hb⟩
    have hst := hf.halted t ht.1
    have he : Machine.permOn .device t = Machine.withdrawAll t := by
      unfold Machine.permOn; rw [if_pos hst]
    rw [← he]
    exact h.perm t .device _ hh (.inl rfl) ht.2
  · exact h.self.inAnyOrder h.haltUnits (hdev h hh hs)

theorem Fine.enterService {s : State} (hs : K s) : K (enterService s) := by
  have hdev : ∀ {Q : State → Prop} {hh : Doubt → Prop} (k : Fine B Q hh), ¬ hh (.cond .device) → Q s →
      Q (emit (.deviceState .inService .accepted none) { s with dev := { s.dev with state := .inService } }) :=
    fun k hn hq => k.self.emit _ _ (k.self.device s _ (fun e => by cases e) (fun e => absurd e hn) hq)
  have hu : ∀ {Q : State → Prop} {hh : Doubt → Prop} (k : Fine B Q hh), ∀ f ∈ [Machine.permOn .device, Machine.retestAll],
      ∀ t, Q t → Q (f t) := by
    intro Q hh k
    simp only [List.mem_cons, List.not_mem_nil, or_false]
    rintro f (rfl | rfl) t ht
    · exact k.permOn _ ht
    · exact k.retestAll ht
  unfold Machine.enterService
  by_cases hh : hot (.cond .device)
  · exact inAnyOrder_reach (P := B) (Q := K) h.base.choice h.self.choice (f := Machine.permOn .device) (by simp)
      (hu h.toBase) (fun t ht => h.perm t _ _ hh (.inl rfl) ht) (fun f hf t _ ht => hu h f hf t ht) (hdev h.toBase id (h.sub s hs))
  · exact h.self.inAnyOrder (hu h) (hdev h hh hs)

theorem Fine.imageCheckExpired {s : State} (hs : K s) : K (imageCheckExpired s) := by
  unfold Machine.imageCheckExpired; repeat' split
  all_goals first | exact hs | exact h.devTouch (s := s) rfl hs | exact h.enterSafeHalt _ _ _ hs

theorem Fine.applyParams {s : State} (hs : K s) : K (applyParams s) := h.self.emit _ _ (h.devTouch (s := s) rfl hs)

theorem Fine.deviceReset {s : State} (ch : Channel) (hs : K s) : K (deviceReset ch s) := by
  have h1 : ∀ {Q : State → Prop} {hh : Doubt → Prop} (k : Fine B Q hh), Q s →
      Q (inOrder ((List.range 4).map Machine.resetLink) (Machine.resetBlocks ch s)) := fun k hq =>
    inOrder_ind (forall_map (g := Machine.resetLink) (fun _ _ => k.resetLink _)) (k.self.blocks s ch hq)
  have hr : (inOrder ((List.range 4).map Machine.resetLink) (Machine.resetBlocks ch s)).routes = [] := by
    refine (inOrder_keep State.routes (fun f hf t => ?_) _).trans (by cases ch <;> rfl)
    obtain ⟨l, -, rfl⟩ := List.mem_map.1 hf
    unfold Machine.resetLink Machine.sendTrain
    repeat' split
    all_goals rfl
  unfold Machine.deviceReset; dsimp only; split
  · exact h.idle _ hr (h.base.device _ _ (fun e => by cases e) (fun e => e.elim) (h1 h.toBase (h.sub s hs)))
  · exact h.enterSafeHalt _ _ _ (h.tx _ (h1 h hs))

theorem Fine.toggleHealth {s : State} (hs : K s) : K (toggleHealth s) := by
  unfold Machine.toggleHealth; split
  · exact h.devTouch (s := s) rfl hs
  · exact hs

omit h in
theorem Timer.pass_mode (k : Nat) (t : Timer) : (t.pass k).mode = t.mode := by
  unfold Timer.pass; split
  · next e => exact e.symm
  · rfl

omit h in
theorem chanStep_tick (s : State) : ChanStep s { s with
    table := s.table.map HalfRequest.tick, chanA := s.chanA.tick, chanB := s.chanB.tick } := by
  refine ⟨rfl, fun hl => ⟨hl.paused, fun ch => ?_, fun ch => ?_, fun x hx => ?_⟩⟩
  · have e := hl.supervision ch
    cases ch
    · exact (by rw [Timer.pass_mode] : ((s.chanA.supervision.pass Config.msPerDs).mode = .running ↔ _) = _) ▸ e
    · exact (by rw [Timer.pass_mode] : ((s.chanB.supervision.pass Config.msPerDs).mode = .running ↔ _) = _) ▸ e
  · have e := hl.pauseLimit ch
    cases ch
    · exact (by rw [Timer.pass_mode] : ((s.chanA.pauseLimit.pass Config.msPerDs).mode = .running ↔ _) = _) ▸ e
    · exact (by rw [Timer.pass_mode] : ((s.chanB.pauseLimit.pass Config.msPerDs).mode = .running ↔ _) = _) ▸ e
  · obtain ⟨y, hy, rfl⟩ := List.mem_map.1 hx
    have e := hl.windows y hy
    refine (Timer.pass_mode _ _).trans (e.trans ?_)
    show _ = if (State.chan _ y.filler.other).state = .paused then _ else _
    cases y.filler.other <;> rfl

theorem Fine.tick {s : State} (hs : K s) : K (tick s) := by
  unfold Machine.tick; split
  · exact hs
  · have h0 : K { s with links := s.links.map Link.tick } :=
      h.self.rest s _ ⟨rfl, rfl, rfl, rfl, rfl, rfl, rfl, rfl, rfl, rfl⟩ hs
    have h1 := h.devTouch (s := { s with links := s.links.map Link.tick }) (d := { s.dev with time := s.dev.time + 1, checkTimer := s.dev.checkTimer.pass 1 }) rfl h0
    have h2 := h.self.sections _ SectionRec.tick (fun _ => ⟨rfl, rfl⟩) (fun _ _ _ _ => rfl) h1
    have h3 := h.self.points _ PointRec.tick (fun _ => ⟨rfl, rfl, rfl, rfl, rfl⟩) (fun _ _ _ _ => rfl) h2
    have h4 := h.self.signals _ SignalRec.tick (fun _ => ⟨rfl, rfl, rfl, rfl⟩) (fun _ _ _ _ => ⟨rfl, rfl, rfl⟩) h3
    have h5 := h.self.routes _ ActiveRoute.tick (fun _ => rfl) h4
    have h6 := h.touchSlots (f := Slot.tick) ⟨fun _ => ⟨rfl, rfl, rfl⟩, fun _ => rfl⟩ h5
    have h7 := h.self.chan _ _ (chanStep_tick _) (fun ch _ => by cases ch <;> rfl) h6
    exact h7

theorem Fine.enterAwaiting {s : State} (hs : K { s with dev := { s.dev with
    state := .awaiting, checkTimer := Timer.start Config.imageCheckTime } }) : K (enterAwaiting s) :=
  inOrder_ind (forall_map (g := Machine.startLink) (fun _ _ => h.startLink _)) (h.self.emit _ _ hs)

end ChannelRecords

end Sys2Proof.Machine

/-!
PROOFS. Requests and whole commands keep every law that is `Fine`. Parts of O57 and O58.
-/

namespace Sys2Proof.Machine

section DeviceChanges
variable {B K : State → Prop} {hot : Doubt → Prop} (h : Fine B K hot)
include h

theorem Fine.plain (t : State) (o : Status) (d : Nat) : VerdictKeeps K t (.plain o d) := fun e hs => h.self.emit t e hs

theorem Fine.acts {t : State} {v : Verdict} (ha : ∀ s, K s → K (v.act s)) : VerdictKeeps K t v :=
  fun e hs => ha _ (h.self.emit t e hs)

omit h in
/-- What SET ROUTE has found stands when it takes the route (R50). -/
theorem Takeable.emit {t : State} {d : RouteDef} {v : Option Nat} {flanks : List FlankRec} {opts : List Nat}
    (h : Takeable t d v flanks opts) (e : Event) : Takeable (emit e t) d v flanks opts :=
  ⟨h.found, h.fresh, h.served, h.available,
    (chooseFlanks_congr (s := t) (t := Machine.emit e t) rfl rfl _ _ _).trans h.chosen⟩

theorem Fine.decideSetRoute (r v : Nat) {t : State} (hd : t.dev.state ≠ .loading) :
    VerdictKeeps K t (decideSetRoute r v t) := by
  unfold Machine.decideSetRoute
  split
  · exact h.plain _ _ _
  · next d hdef =>
    split
    · exact h.plain _ _ _
    · split
      · split
        · exact h.acts (fun _ => h.reRequest _)
        · exact h.plain _ _ _
      · next hr =>
        have hid : d.id = r := by have := List.find?_some hdef; simpa using this
        subst hid
        unfold Machine.decideNewRoute
        split
        · exact h.plain _ _ _
        · next hc =>
          split
          · exact h.plain _ _ _
          · next hf => exact fun e hs => h.enterCalling (Takeable.emit ⟨hdef, hr, hd, hc, hf⟩ e) (h.self.emit t e hs)

theorem Fine.decideCancel (r : Nat) (t : State) : VerdictKeeps K t (decideCancel r t) := by
  unfold Machine.decideCancel
  split
  · exact h.plain _ _ _
  · split
    · exact h.plain _ _ _
    · next a ha =>
      have ha' : t.route? a.id = some a := by rw [route?_id ha]; exact ha
      have h1 : VerdictKeeps K t { out := .done, detail := 0, act := Machine.releaseAtOnce a } :=
        fun e hs => h.releaseAtOnce (s := Machine.emit e t) ha' (h.self.emit t e hs)
      have h2 : VerdictKeeps K t { out := .done, detail := 0, act := Machine.enterApproachHeld a } :=
        fun e hs => h.enterApproachHeld (s := Machine.emit e t) ha' (h.self.emit t e hs)
      split
      · exact h1
      · split
        · exact h1
        · exact h2
      · split
        · exact h1
        · exact h2
      all_goals exact h.plain _ _ _

theorem Fine.decideEmergency (r : Nat) (t : State) : VerdictKeeps K t (decideEmergency r t) := by
  unfold Machine.decideEmergency
  split
  · exact h.plain _ _ _
  · split
    · exact h.plain _ _ _
    · next a ha =>
      have ha' : t.route? a.id = some a := by rw [route?_id ha]; exact ha
      have h1 : VerdictKeeps K t { out := .done, detail := 0, act := Machine.enterEmergencyTiming a } :=
        fun e hs => h.enterEmergencyTiming (s := Machine.emit e t) ha' (h.self.emit t e hs)
      split
      iterate 3 exact h1
      all_goals exact h.plain _ _ _

theorem Fine.decideApproachSpeed (r n : Nat) (t : State) : VerdictKeeps K t (decideApproachSpeed r n t) := by
  unfold Machine.decideApproachSpeed; split
  · exact h.plain _ _ _
  · exact h.acts (fun s hs => h.self.rest s _ ⟨rfl, rfl, rfl, rfl, rfl, rfl, rfl, rfl, rfl, rfl⟩ hs)

theorem Fine.decideMovePoint (id : Nat) (p : Pos) (t : State) : VerdictKeeps K t (decideMovePoint id p t) := by
  unfold Machine.decideMovePoint; repeat' split
  all_goals first | exact h.plain _ _ _ | exact h.acts (fun _ hs => h.closeCall (h.issueCall _ _ hs))

theorem Fine.decideMove (ch : Channel) (hi lo b : Byte) (t : State) :
    VerdictKeeps K t (Machine.decide ch .movePoint [hi, lo, b] t) := by
  show VerdictKeeps K t (match posOf b with
    | some q => Machine.decideMovePoint (num2 hi lo) q t
    | none => .plain .badValue 0)
  split
  · exact h.decideMovePoint _ _ _
  · exact h.plain _ _ _

theorem Fine.decideBlock (id : Nat) (b : Bool) (t : State) : VerdictKeeps K t (decideBlock id b t) := by
  unfold Machine.decideBlock; split
  · exact h.acts (fun _ => h.setBlock _ _)
  · exact h.plain _ _ _

theorem Fine.decideMask (id : Nat) (b : Bool) (t : State) : VerdictKeeps K t (decideMask id b t) := by
  unfold Machine.decideMask; split
  · exact h.acts (fun _ => h.setMask _ _)
  · exact h.plain _ _ _

theorem Fine.decideRestore (id : Nat) (t : State) : VerdictKeeps K t (decideRestore id t) := by
  unfold Machine.decideRestore; split
  · exact h.plain _ _ _
  · next hc =>
    have hc' : configured t id = true := by simpa using hc
    split
    · exact fun e hs => h.restoreElement (s := Machine.emit e t) hc' (h.self.emit t e hs)
    · exact h.plain _ _ _

theorem Fine.decideRequestPermit (ref : SlotRef) (t : State) : VerdictKeeps K t (decideRequestPermit ref t) := by
  unfold Machine.decideRequestPermit; repeat' split
  all_goals first | exact h.plain _ _ _ | exact h.acts (fun _ hs => h.permitTo ⟨fun _ => ⟨rfl, rfl, rfl⟩, fun _ => rfl⟩ hs)

theorem Fine.decideSlotBlock (ref : SlotRef) (b : Bool) (t : State) : VerdictKeeps K t (decideSlotBlock ref b t) := by
  unfold Machine.decideSlotBlock; split
  · exact h.plain _ _ _
  · exact h.acts (fun _ => h.setSlotBlock _ _)

theorem Fine.decideRestoreSlot (ref : SlotRef) (b : Bool) (t : State) : VerdictKeeps K t (decideRestoreSlot ref b t) := by
  unfold Machine.decideRestoreSlot
  split
  · exact h.plain _ _ _
  · split
    · exact h.plain _ _ _
    · split
      · exact h.acts (fun _ hs => h.retest _ (h.permitTo ⟨fun _ => ⟨rfl, rfl, rfl⟩, fun _ => rfl⟩ hs))
      · split
        · exact h.acts (fun _ => h.permitHere _ _ .settled)
        · exact h.plain _ _ _

theorem Fine.decideReleaseReservation (ref : SlotRef) (t : State) : VerdictKeeps K t (decideReleaseReservation ref t) := by
  unfold Machine.decideReleaseReservation; repeat' split
  all_goals first | exact h.plain _ _ _ | exact h.acts (fun _ hs => h.self.emit _ _ (h.touch ⟨fun _ => ⟨rfl, rfl, rfl⟩, fun _ => rfl⟩ hs))

theorem Fine.decideLinkTest (l : Nat) (p : List Byte) (n : Nat) (t : State) : VerdictKeeps K t (decideLinkTest l p n t) := by
  unfold Machine.decideLinkTest; repeat' split
  all_goals first | exact h.plain _ _ _ | exact h.acts (fun _ => h.startTest _ _ _)

theorem Fine.decideSetParameter (id v : Nat) (t : State) : VerdictKeeps K t (decideSetParameter id v t) := by
  unfold Machine.decideSetParameter; repeat' split
  all_goals first | exact h.plain _ _ _ | exact h.acts (fun s hs => h.devTouch (s := s) rfl hs)

theorem Fine.decideAccept (n : Nat) (t : State) : VerdictKeeps K t (decideAccept n t) := by
  unfold Machine.decideAccept; repeat' split
  all_goals first | exact h.plain _ _ _ | exact h.acts (fun _ => h.enterService)

/-- The owners of all the kinds. -/
theorem Fine.decide (ch : Channel) (k : ReqKind) (body : List Byte) {t : State} (hd : t.dev.state ≠ .loading) :
    VerdictKeeps K t (decide ch k body t) := by
  cases k
  case setRoute =>
    rcases body with _ | ⟨_, _ | ⟨_, _ | ⟨_, _⟩⟩⟩
    · exact h.plain _ _ _
    · exact h.plain _ _ _
    · exact h.decideSetRoute _ _ hd
    · exact h.plain _ _ _
  case cancelRoute =>
    rcases body with _ | ⟨_, _ | ⟨_, _⟩⟩
    · exact h.plain _ _ _
    · exact h.decideCancel _ _
    · exact h.plain _ _ _
  case emergencyRelease =>
    rcases body with _ | ⟨_, _ | ⟨_, _⟩⟩
    · exact h.plain _ _ _
    · exact h.decideEmergency _ _
    · exact h.plain _ _ _
  case setApproachSpeed =>
    rcases body with _ | ⟨_, _ | ⟨_, _ | ⟨_, _⟩⟩⟩
    · exact h.plain _ _ _
    · exact h.plain _ _ _
    · exact h.decideApproachSpeed _ _ _
    · exact h.plain _ _ _
  case movePoint =>
    rcases body with _ | ⟨_, _ | ⟨_, _ | ⟨_, _ | ⟨_, _⟩⟩⟩⟩
    · exact h.plain _ _ _
    · exact h.plain _ _ _
    · exact h.plain _ _ _
    · exact h.decideMove _ _ _ _ _
    · exact h.plain _ _ _
  case blockElement =>
    rcases body with _ | ⟨_, _ | ⟨_, _ | ⟨_, _⟩⟩⟩
    · exact h.plain _ _ _
    · exact h.plain _ _ _
    · exact h.decideBlock _ _ _
    · exact h.plain _ _ _
  case unblockElement =>
    rcases body with _ | ⟨_, _ | ⟨_, _ | ⟨_, _⟩⟩⟩
    · exact h.plain _ _ _
    · exact h.plain _ _ _
    · exact h.decideBlock _ _ _
    · exact h.plain _ _ _
  case inhibitSet =>
    rcases body with _ | ⟨_, _ | ⟨_, _ | ⟨_, _⟩⟩⟩
    · exact h.plain _ _ _
    · exact h.plain _ _ _
    · exact h.decideMask _ _ _
    · exact h.plain _ _ _
  case inhibitClear =>
    rcases body with _ | ⟨_, _ | ⟨_, _ | ⟨_, _⟩⟩⟩
    · exact h.plain _ _ _
    · exact h.plain _ _ _
    · exact h.decideMask _ _ _
    · exact h.plain _ _ _
  case elementRestore =>
    rcases body with _ | ⟨_, _ | ⟨_, _ | ⟨_, _⟩⟩⟩
    · exact h.plain _ _ _
    · exact h.plain _ _ _
    · exact h.decideRestore _ _
    · exact h.plain _ _ _
  case requestPermit =>
    rcases body with _ | ⟨_, _ | ⟨_, _ | ⟨_, _⟩⟩⟩
    · exact h.plain _ _ _
    · exact h.plain _ _ _
    · exact h.decideRequestPermit _ _
    · exact h.plain _ _ _
  case blockSlot =>
    rcases body with _ | ⟨_, _ | ⟨_, _ | ⟨_, _⟩⟩⟩
    · exact h.plain _ _ _
    · exact h.plain _ _ _
    · exact h.decideSlotBlock _ _ _
    · exact h.plain _ _ _
  case unblockSlot =>
    rcases body with _ | ⟨_, _ | ⟨_, _ | ⟨_, _⟩⟩⟩
    · exact h.plain _ _ _
    · exact h.plain _ _ _
    · exact h.decideSlotBlock _ _ _
    · exact h.plain _ _ _
  case restoreSlot =>
    rcases body with _ | ⟨_, _ | ⟨_, _ | ⟨_, _ | ⟨_, _⟩⟩⟩⟩
    · exact h.plain _ _ _
    · exact h.plain _ _ _
    · exact h.plain _ _ _
    · exact h.decideRestoreSlot _ _ _
    · exact h.plain _ _ _
  case releaseReservation =>
    rcases body with _ | ⟨_, _ | ⟨_, _ | ⟨_, _⟩⟩⟩
    · exact h.plain _ _ _
    · exact h.plain _ _ _
    · exact h.decideReleaseReservation _ _
    · exact h.plain _ _ _
  case setParameter =>
    rcases body with _ | ⟨_, _ | ⟨_, _ | ⟨_, _ | ⟨_, _⟩⟩⟩⟩
    · exact h.plain _ _ _
    · exact h.plain _ _ _
    · exact h.plain _ _ _
    · exact h.decideSetParameter _ _ _
    · exact h.plain _ _ _
  case applyParameters =>
    rcases body with _ | ⟨_, _⟩
    · exact h.acts (fun _ => h.applyParams)
    · exact h.plain _ _ _
  case acceptConfiguration =>
    rcases body with _ | ⟨_, _ | ⟨_, _ | ⟨_, _ | ⟨_, _ | ⟨_, _⟩⟩⟩⟩⟩
    · exact h.plain _ _ _
    · exact h.plain _ _ _
    · exact h.plain _ _ _
    · exact h.plain _ _ _
    · exact h.decideAccept _ _
    · exact h.plain _ _ _
  case deviceReset =>
    rcases body with _ | ⟨_, _⟩
    · exact h.acts (fun _ => h.deviceReset _)
    · exact h.plain _ _ _
  case linkTest =>
    rcases body with _ | ⟨_, _⟩
    · exact h.plain _ _ _
    · exact h.decideLinkTest _ _ _ _
  all_goals exact h.plain _ _ _

/-! ## Answers -/

theorem Fine.pick {s : State} (n : Nat) (hs : K s) : K (s.pick n).2 := by rw [pick_eq]; exact h.self.choice _ _ _ hs

theorem Fine.disagree {s : State} (x : HalfRequest) (k : ReqKind) (hs : K s) : K (disagree x k s) := by
  have h1 : K (Machine.removeHalf x.tag { s with disagreements := min 65535 (s.disagreements + 1) }) :=
    h.removeHalf _ (h.self.rest s _ ⟨rfl, rfl, rfl, rfl, rfl, rfl, rfl, rfl, rfl, rfl⟩ hs)
  unfold Machine.disagree; dsimp only; split
  · exact h.self.emit _ _ h1
  · exact h.self.emit _ _ (h.pick 2 h1)

omit h in
theorem served_of_passesDevice {k : ReqKind} {s : State} (h : ¬ passesDevice k s = false) : s.dev.state ≠ .loading :=
  fun e => h (by unfold passesDevice; rw [e])

theorem Fine.openHalf {s : State} (ch : Channel) (k : ReqKind) (tag : Byte) (body : List Byte) (hs : K s) :
    K (openHalf ch k tag body s).after := by
  unfold Machine.openHalf; repeat' split
  · exact hs
  · exact hs
  · refine h.table (fun hl x hx => ?_) hs
    rcases List.mem_append.1 hx with hx | hx
    · exact hl.windows x hx
    · obtain rfl := List.mem_singleton.1 hx
      unfold newHalf; dsimp only
      split <;> rfl

theorem Fine.takeHalf {s : State} (ch : Channel) (k : ReqKind) (tag : Byte) (body : List Byte) (hs : K s) :
    K (takeHalf ch k tag body s).after := by
  unfold Machine.takeHalf
  split
  · exact hs
  · next hp =>
    split
    · exact hs
    · split
      · exact h.openHalf _ _ _ _ hs
      · split
        · exact hs
        · split
          · show K ((Machine.decide ch k body (Machine.removeHalf tag s)).act (Machine.emit _ (Machine.removeHalf tag s)))
            exact h.decide ch k body (t := Machine.removeHalf tag s) (served_of_passesDevice hp) _ (h.removeHalf tag hs)
          · exact h.disagree _ _ hs

theorem Fine.answerPause {s : State} (ch : Channel) (hs : K s) : K (answerPause ch s).after := by
  unfold Machine.answerPause
  split
  · exact hs
  · next ha =>
    split
    · next ho => exact h.enterPaused ha ho hs
    · exact hs
  · exact hs
  · exact hs

theorem Fine.answerResume {s : State} (ch : Channel) (hs : K s) : K (answerResume ch s).after := by
  unfold Machine.answerResume
  split
  · next hp => exact h.leavePaused hp hs
  all_goals exact hs

theorem Fine.answer {s : State} (ch : Channel) (k : ReqKind) (body : List Byte) (hk : PointsKnown hot s) (hs : K s) :
    K (answer ch k body s).after := by
  have hread : ∀ b o, K (Machine.readAnswer b o s).after := by
    intro b o; unfold Machine.readAnswer; split <;> exact hs
  cases k
  case reportFieldStatus => exact h.applyItems _ _ _ _ hk hs
  case readElement =>
    rcases body with _ | ⟨_, _ | ⟨_, _ | ⟨_, _⟩⟩⟩
    · exact hs
    · exact hs
    · exact hread _ _
    · exact hs
  case readRoute =>
    rcases body with _ | ⟨_, _ | ⟨_, _⟩⟩
    · exact hs
    · exact hread _ _
    · exact hs
  case readRoutes =>
    rcases body with _ | ⟨_, _⟩
    · exact hs
    · exact hs
  case readSlot =>
    rcases body with _ | ⟨_, _ | ⟨_, _ | ⟨_, _⟩⟩⟩
    · exact hs
    · exact hs
    · exact hread _ _
    · exact hs
  case readLink =>
    rcases body with _ | ⟨_, _ | ⟨_, _⟩⟩
    · exact hs
    · exact hread _ _
    · exact hs
  case readParameters =>
    rcases body with _ | ⟨_, _⟩
    · exact hread _ _
    · exact hs
  case readStatus =>
    rcases body with _ | ⟨_, _⟩
    · exact hs
    · exact hs
  case readEvents =>
    rcases body with _ | ⟨_, _ | ⟨_, _⟩⟩
    · exact hs
    · exact h.port _ _ hs
    · exact hs
  case pause =>
    rcases body with _ | ⟨_, _⟩
    · exact h.answerPause _ hs
    · exact hs
  case resume =>
    rcases body with _ | ⟨_, _⟩
    · exact h.answerResume _ hs
    · exact hs
  all_goals exact hs

theorem Fine.respond {s : State} (ch : Channel) (st : Status) (tag : Byte) (body : List Byte) (hs : K s) :
    K (respond ch st tag body s) := h.port _ _ hs

theorem Fine.decideFrame {s : State} (ch : Channel) (k : ReqKind) (tag : Byte) (body : List Byte) (hk : PointsKnown hot s)
    (hs : K s) : K (decideFrame ch k tag body s) := by
  unfold Machine.decideFrame
  split
  · exact h.respond _ _ _ _ (h.port _ _ hs)
  · split
    · refine h.respond _ _ _ _ ?_
      have h1 : K (Machine.frameArrives ch s) := h.frameArrives _ hs
      unfold Machine.answerValid
      split
      · exact h1
      · split
        · exact h1
        · split
          · exact h.takeHalf _ _ _ _ h1
          · exact h.answer _ _ _ (fun e => elementLaw_stepClosed.frameArrives _ (hk e)) h1
    · exact h.respond _ _ _ _ hs

omit h in
theorem PointsKnown.port {s : State} (hk : PointsKnown hot s) (ch : Channel) (p : Port) : PointsKnown hot (s.setPort ch p) :=
  fun e => elementLaw_stepClosed.port _ _ _ (hk e)

theorem Fine.request {s : State} (f : RequestFrame) (hk : PointsKnown hot s) (hs : K s) :
    K (request f.ch f.kind f.tag f.body s) := by
  unfold Machine.request; split
  · exact hs
  · exact h.decideFrame _ _ _ _ (hk.port _ _) (h.port _ _ hs)

theorem Fine.rawFrame {s : State} (ch : Channel) (bytes : List Byte) (hk : PointsKnown hot s) (hs : K s) :
    K (rawFrame ch bytes s) := by
  have ho : ∀ ph bs, K (Machine.openTransfer ch ph bs s) := fun _ _ => h.port _ _ hs
  have hko : ∀ ph bs, PointsKnown hot (Machine.openTransfer ch ph bs s) := fun _ _ => hk.port _ _
  unfold Machine.rawFrame
  split
  · exact hs
  · split
    · exact ho _ _
    · dsimp only
      unfold Machine.decideRaw badFrameReply
      dsimp only
      split
      · exact h.respond _ _ _ _ (h.port _ _ (ho _ _))
      · split
        · exact h.respond _ _ _ _ (h.port _ _ (ho _ _))
        · split
          · exact h.respond _ _ _ _ (ho _ _)
          · exact h.decideFrame _ _ _ _ (hko _ _) (ho _ _)

theorem Fine.responseEnds {s : State} (ch : Channel) (hs : K s) : K (responseEnds ch s) := by
  unfold Machine.responseEnds
  split
  · exact hs
  · exact h.queue _ _ (h.port _ _ hs)

/-! ## Commands -/

/-- Every command but DRST asserted and the end of the image read keeps the law. -/
theorem Fine.exec {c : Instr} {s t : State} (h1 : c ≠ .drstAsserted) (h2 : ∀ bs, c ≠ .imageReadComplete bs)
    (e : exec c s = .next t) (hk : PointsKnown hot s) (hs : K s) : K t := by
  rcases hf : requestOf c with _ | f
  · cases c <;> first | exact False.elim (h1 rfl) | exact False.elim (h2 _ rfl) | (cases hf; done) | skip
    all_goals
      injection e with e
      subst e
    · exact h.rawFrame _ _ hk hs
    · unfold Machine.selectRises; split
      · exact hs
      · exact h.port _ _ hs
    · exact h.responseEnds _ hs
    · exact h.channelReset _ hk hs
    · exact h.releaseCrst _ hs
    · exact h.devTouch (s := s) rfl hs
    · exact h.clearanceExpired _ hs
    · exact h.sectionDiscExpired _ hs
    · exact h.pointDiscExpired _ hs
    · exact h.signalDiscExpired _ hs
    · exact h.moveExpired _ hs
    · exact h.windowExpired _ hs
    · exact h.channelSupervisionExpired _ hk hs
    · exact h.pauseLimitExpired _ hk hs
    · exact h.settingExpired _ hs
    · exact h.overlapExpired _ hs
    · exact h.releaseExpired _ hs
    · exact h.watchExpired _ hs
    · exact h.linkSendExpired _ hs
    · exact h.trainingExpired _ hs
    · exact h.supervisionExpired _ hs
    · exact h.answerExpired _ hs
    · exact h.echoExpired _ hs
    · exact h.takeRun _ _ hs
    · exact h.takeRun _ _ hs
    · exact h.takeRun _ _ hs
    · exact h.takeRun _ _ hs
    · exact h.takeRun _ _ hs
    · exact h.reconExpired _ hs
    · exact h.transferExpired _ hs
    · exact h.acceptExpired _ hs
    · exact h.transitExpired _ hs
    · exact h.reserveExpired _ hs
    · exact h.imageCheckExpired hs
    · exact h.toggleHealth hs
    · exact h.takeRun _ _ hs
    · exact h.tick hs
  · rw [exec_request hf] at e
    injection e with e
    subst e
    exact h.request f hk hs

theorem Fine.imageRead {s : State} (bs : List Byte)
    (hfill : s.dev.state = .loading → validate bs = none → K s → K { fillBlocks (imageBytes bs) s with dev :=
      { (fillBlocks (imageBytes bs) s).dev with state := .awaiting, checkTimer := Timer.start Config.imageCheckTime } })
    (hs : K s) : K (imageRead bs s) := by
  unfold Machine.imageRead
  split
  · next hl =>
    split
    · next hv => exact h.enterAwaiting (hfill hl.1 hv hs)
    · exact h.enterSafeHalt _ _ _ hs
  · exact hs

/-- A law that DRST and the filling of the blocks keep too is kept by every step. -/
theorem Fine.step (hdrst : ∀ s, K s → K (assertDrst s))
    (hfill : ∀ s bs, s.dev.state = .loading → validate bs = none → K s → K { fillBlocks (imageBytes bs) s with dev :=
      { (fillBlocks (imageBytes bs) s).dev with state := .awaiting, checkTimer := Timer.start Config.imageCheckTime } })
    {s t : State} (e : step s = .next t) (hk : PointsKnown hot s) (hs : K s) : K t := by
  rcases step_cases e with ⟨-, rfl⟩ | ⟨c, rest, -, he⟩
  · exact hs
  · have hs' : K { s with pending := rest } := h.self.rest s _ ⟨rfl, rfl, rfl, rfl, rfl, rfl, rfl, rfl, rfl, rfl⟩ hs
    have hk' : PointsKnown hot { s with pending := rest } := fun e => elementLaw_kept.pending _ _ (hk e)
    by_cases h1 : c = .drstAsserted
    · subst h1; injection he with he; subst he
      exact hdrst _ hs'
    · by_cases h2 : ∃ bs, c = .imageReadComplete bs
      · obtain ⟨bs, rfl⟩ := h2
        injection he with he; subst he
        exact h.imageRead bs (hfill _ bs) hs'
      · exact h.exec h1 (fun bs eb => h2 ⟨bs, eb⟩) he hk' hs'

end DeviceChanges

end Sys2Proof.Machine

/-!
PROOFS. The channel records and the windows are kept by every command (R30, R34 to R37). Part of O58.
-/

namespace Sys2Proof.Machine

/-- A change of signals that touches the permission and its watch timer alone. -/
def PermChange (f : SignalRec → SignalRec) : Prop := ∀ x, f x = { x with perm := (f x).perm, watch := (f x).watch }

/-- The withdrawal of a permission changes permission of signals alone, beside events (R96, R97). -/
theorem withdrawOnly_perms (a : ActiveRoute) (c : PermCause) (s : State) : ∃ f, PermChange f
    ∧ (∀ x, (f x).perm = x.perm ∨ (f x).perm = none) ∧ SameRest { s with signals := s.signals.map f } (withdrawOnly a c s) := by
  have hid : SameRest { s with signals := s.signals.map id } s :=
    ⟨rfl, rfl, (List.map_id _).symm, rfl, rfl, rfl, rfl, rfl, rfl, rfl⟩
  unfold withdrawOnly
  dsimp only
  split
  · split
    · refine ⟨_, fun x => ?_, fun x => ?_, (sameRest_emitTo .A _ (setPerm (s.defOf a.id).entry none s)).trans (sameRest_emitTo .B _ _)⟩
      · split <;> rfl
      · split
        · exact .inr rfl
        · exact .inl rfl
    · exact ⟨id, fun _ => rfl, fun _ => .inl rfl, hid⟩
  · exact ⟨id, fun _ => rfl, fun _ => .inl rfl, hid⟩

theorem ChannelLaw.keep {s t : State} (h : ChannelLaw s) (ha : t.chanA = s.chanA) (hb : t.chanB = s.chanB)
    (ht : t.table = s.table) : ChannelLaw t :=
  h.of_eq (fun ch => by cases ch; exacts [ha, hb]) ht

theorem ChannelLaw.withdrawOnly {s : State} (h : ChannelLaw s) (a : ActiveRoute) (c : PermCause) :
    ChannelLaw (withdrawOnly a c s) := by
  obtain ⟨f, -, -, e⟩ := withdrawOnly_perms a c s
  exact h.keep e.chanA e.chanB e.table

theorem channelLaw_changes : Changes ChannelLaw (fun _ => False) where
  rest _ _ e h := h.keep e.chanA e.chanB e.table; sections _ _ _ _ h := h.keep rfl rfl rfl
  points _ _ _ _ h := h.keep rfl rfl rfl
  signals _ _ _ _ h := h.keep rfl rfl rfl
  routes _ _ _ h := h.keep rfl rfl rfl
  slots _ _ _ _ h := h.keep rfl rfl rfl
  device _ _ _ _ h := h.keep rfl rfl rfl
  chan _ _ e _ h := e.lawful h
  withdraw s a c _ h := h.keep rfl rfl rfl
  grant s a _ _ _ h := h.keep rfl rfl rfl
  lock _ _ _ _ h := h.keep rfl rfl rfl
  leave s a c st _ _ h := (h.withdrawOnly a c).keep rfl rfl rfl
  enter s a _ h := (h.withdrawOnly a .entered).keep rfl rfl rfl
  passEntry _ _ _ _ h := h.keep rfl rfl rfl
  drop _ _ _ _ h := h.keep rfl rfl rfl
  cancel s a c _ h := (h.withdrawOnly a c).keep rfl rfl rfl
  release _ _ _ _ _ h := h.keep rfl rfl rfl
  overlap _ _ _ _ h := h.keep rfl rfl rfl
  flags _ _ _ h := h.keep rfl rfl rfl
  accept _ _ _ _ _ _ _ h := h.keep rfl rfl rfl
  inbound _ _ _ _ _ _ _ h := h.keep rfl rfl rfl
  leaveInbound _ _ _ _ _ _ _ _ h := h.keep rfl rfl rfl
  take s d v flanks opts _ h := by rw [takeRoute_taken]; exact h.keep rfl rfl rfl
  blocks s ch _ := by
    have hc : ∀ k, (resetBlocks ch s).chan k = ChannelRec.initial (s.chan k).crst := fun k => by
      cases ch <;> cases k <;> rfl
    have ht : (resetBlocks ch s).table = [] := by cases ch <;> rfl
    refine ⟨?_, fun k => ?_, fun k => ?_, fun x hx => by rw [ht] at hx; cases hx⟩
    · have ha : (resetBlocks ch s).chanA = _ := hc .A
      rw [ha]; exact fun e => by cases e.1
    · rw [hc]; exact ⟨fun e => (by cases e), fun e => (by cases e)⟩
    · rw [hc]; exact ⟨fun e => (by cases e), fun e => (by cases e)⟩

theorem channelLaw_step {s t : State} (h : ChannelLaw s) (e : step s = .next t) : ChannelLaw t := by
  refine (Fine.const channelLaw_changes).step (fun s _ => ?_) (fun s bs _ _ h => h.keep rfl rfl rfl) e
    (fun ⟨_, _, e, _⟩ => e.elim) h
  refine ⟨fun e => (by cases e.1), fun k => ?_, fun k => ?_, fun x hx => by cases hx⟩
  · cases k <;> exact ⟨fun e => (by cases e), fun e => (by cases e)⟩
  · cases k <;> exact ⟨fun e => (by cases e), fun e => (by cases e)⟩

end Sys2Proof.Machine

/-!
PROOFS. The locks of the active routes are kept by every command (R57, R77). Part of O57.
-/

namespace Sys2Proof.Machine

/-! ## The locks of one route -/

/-- The claim of a flank entry stands in the set of its element. -/
def ClaimStands (s : State) (r : Nat) (f : FlankRec) : Prop :=
  (∀ id p, f.opt = .point id p → ∃ x, s.point? id = some x ∧ ⟨r, f.index⟩ ∈ x.claims)
    ∧ ∀ id, f.opt = .signal id → ∃ x, s.signal? id = some x ∧ ⟨r, f.index⟩ ∈ x.claims

/-- What `LockLaw` says of one active route. -/
structure RouteLocks (s : State) (a : ActiveRoute) : Prop where
  holders : ∀ j id : Nat, (s.defOf a.id).secs[j]? = some id → a.released[j]? = some false →
    ∃ x, s.section? id = some x ∧ x.holder = .route a.id
  points : ∀ q ∈ (s.defOf a.id).points, ∀ x, s.point? q.point = some x → ∀ j : Nat,
    (s.defOf a.id).secs[j]? = some x.sec → a.released[j]? = some false → x.hold = .route a.id q.pos
  overlapSections : a.overlap = .held → ∀ id ∈ overlapSecs (s.defOf a.id) a.variant,
    ∃ x, s.section? id = some x ∧ x.holder = .overlap a.id
  overlapPoints : a.overlap = .held → ∀ q ∈ overlapPoints (s.defOf a.id) a.variant,
    ∃ x, s.point? q.point = some x ∧ x.hold = .overlap a.id q.pos
  indexes : (a.flanks.map (·.index)).Nodup
  claims : ∀ f ∈ a.flanks, f.standing = true → ClaimStands s a.id f

theorem lockLaw_iff {s : State} : LockLaw s ↔ (s.routes.map (·.id)).Nodup ∧ (s.dev.state = .loading → s.routes = [])
    ∧ (∀ d ∈ s.store, d.Apart) ∧ ∀ a ∈ s.routes, RouteLocks s a := by
  constructor
  · intro h
    refine ⟨h.ids, h.loading, h.store, fun a ha => ⟨h.sections a ha, h.points a ha, h.overlapSections a ha,
      h.overlapPoints a ha, h.indexes a ha, fun f hf hs => ?_⟩⟩
    have := h.claims a ha f hf hs
    constructor
    · intro id p e; rw [e] at this; exact this
    · intro id e; rw [e] at this; exact this
  · rintro ⟨h1, h2, h3, h4⟩
    refine ⟨h1, h2, h3, fun a ha => (h4 a ha).holders, fun a ha => (h4 a ha).points, fun a ha => (h4 a ha).overlapSections,
      fun a ha => (h4 a ha).overlapPoints, fun a ha => (h4 a ha).indexes, fun a ha f hf hs => ?_⟩
    have hc := (h4 a ha).claims f hf hs
    cases e : f.opt with
    | point id p => exact hc.1 id p e
    | signal id => exact hc.2 id e

/-! ## Changes of every record of a kind -/

/-- `t` comes from `s` by a change of each section, point and signal; the Route Store stays. -/
structure Elementwise (s t : State) (f : SectionRec → SectionRec) (g : PointRec → PointRec) (k : SignalRec → SignalRec) :
    Prop where
  store : t.store = s.store
  (sections : t.sections = s.sections.map f)
  points : t.points = s.points.map g
  signals : t.signals = s.signals.map k
  idOfSection : ∀ x, (f x).id = x.id
  idOfPoint : ∀ x, (g x).id = x.id
  pointSec : ∀ x, (g x).sec = x.sec
  idOfSignal : ∀ x, (k x).id = x.id

section EveryRecord
variable {s t : State} {f : SectionRec → SectionRec} {g : PointRec → PointRec} {k : SignalRec → SignalRec}

section Lookups
variable (e : Elementwise s t f g k)
include e

theorem Elementwise.defOf (r : Nat) : t.defOf r = s.defOf r := by
  unfold State.defOf State.def?; rw [e.store]

theorem Elementwise.section? (id : Nat) : t.section? id = (s.section? id).map f := by
  unfold State.section?
  rw [e.sections]; exact find?_mapAll (key := SectionRec.id) e.idOfSection id _

theorem Elementwise.point? (id : Nat) : t.point? id = (s.point? id).map g := by
  unfold State.point?
  rw [e.points]; exact find?_mapAll (key := PointRec.id) e.idOfPoint id _

theorem Elementwise.signal? (id : Nat) : t.signal? id = (s.signal? id).map k := by
  unfold State.signal?
  rw [e.signals]; exact find?_mapAll (key := SignalRec.id) e.idOfSignal id _

end Lookups

/-- Only the rest of the state changes. -/
theorem Elementwise.refl (hst : t.store = s.store) (hx : t.sections = s.sections) (hp : t.points = s.points)
    (hg : t.signals = s.signals) : Elementwise s t id id id :=
  ⟨hst, by rw [hx, List.map_id], by rw [hp, List.map_id], by rw [hg, List.map_id], fun _ => rfl, fun _ => rfl, fun _ => rfl,
    fun _ => rfl⟩

/-- How a route with its locks comes to be `b` with its locks, while the elements change. -/
structure Evolves (s : State) (f : SectionRec → SectionRec) (g : PointRec → PointRec) (k : SignalRec → SignalRec)
    (a b : ActiveRoute) : Prop where
  id : b.id = a.id
  variant : b.variant = a.variant
  released : ∀ j : Nat, b.released[j]? = some false → a.released[j]? = some false
  overlap : b.overlap = .held → a.overlap = .held
  indexes : b.flanks.map (·.index) = a.flanks.map (·.index)
  flanks : ∀ y ∈ b.flanks, y.standing = true → ∃ x ∈ a.flanks, x.standing = true ∧ x.index = y.index ∧ x.opt = y.opt
  holders : ∀ x, s.section? x.id = some x → x.holder = .route a.id → ∀ j : Nat, (s.defOf a.id).secs[j]? = some x.id →
    b.released[j]? = some false → (f x).holder = .route a.id
  overlapSections : b.overlap = .held → ∀ x, s.section? x.id = some x → x.holder = .overlap a.id → (f x).holder = .overlap a.id
  points : ∀ x p, s.point? x.id = some x → x.hold = .route a.id p → ∀ j : Nat, (s.defOf a.id).secs[j]? = some x.sec →
    b.released[j]? = some false → (g x).hold = .route a.id p
  overlapPoints : b.overlap = .held → ∀ x p, s.point? x.id = some x → x.hold = .overlap a.id p → (g x).hold = .overlap a.id p
  pointClaims : ∀ x, ∀ y ∈ b.flanks, y.standing = true → ⟨a.id, y.index⟩ ∈ x.claims → ⟨a.id, y.index⟩ ∈ (g x).claims
  signalClaims : ∀ x, ∀ y ∈ b.flanks, y.standing = true → ⟨a.id, y.index⟩ ∈ x.claims → ⟨a.id, y.index⟩ ∈ (k x).claims

theorem RouteLocks.evolve {a b : ActiveRoute} (h : RouteLocks s a) (e : Elementwise s t f g k) (v : Evolves s f g k a b) :
    RouteLocks t b where
  holders j id hid hr := by
    rw [v.id, e.defOf] at hid
    obtain ⟨x, hx, hh⟩ := h.holders j id hid (v.released j hr)
    obtain rfl := sectionLookup_id hx
    exact ⟨f x, by rw [e.section?, hx]; rfl, by rw [v.id]; exact v.holders x hx hh j hid hr⟩
  points q hq y hy j hj hr := by
    rw [v.id, e.defOf] at hq hj
    rw [e.point?] at hy
    obtain ⟨x, hx, rfl⟩ := Option.map_eq_some_iff.1 hy
    rw [e.pointSec] at hj
    have hp := h.points q hq x hx j hj (v.released j hr)
    have hx' : s.point? x.id = some x := by rw [point?_id hx]; exact hx
    rw [v.id]
    exact v.points x q.pos hx' hp j hj hr
  overlapSections ho id hid := by
    rw [v.id, e.defOf, v.variant] at hid
    obtain ⟨x, hx, hh⟩ := h.overlapSections (v.overlap ho) id hid
    obtain rfl := sectionLookup_id hx
    exact ⟨f x, by rw [e.section?, hx]; rfl, by rw [v.id]; exact v.overlapSections ho x hx hh⟩
  overlapPoints ho q hq := by
    rw [v.id, e.defOf, v.variant] at hq
    obtain ⟨x, hx, hh⟩ := h.overlapPoints (v.overlap ho) q hq
    have hx' : s.point? x.id = some x := by rw [point?_id hx]; exact hx
    exact ⟨g x, by rw [e.point?, hx]; rfl, by rw [v.id]; exact v.overlapPoints ho x q.pos hx' hh⟩
  indexes := by rw [v.indexes]; exact h.indexes
  claims y hy hs := by
    obtain ⟨z, hz, hzs, hi, ho⟩ := v.flanks y hy hs
    obtain ⟨hp, hg⟩ := h.claims z hz hzs
    rw [ho] at hp hg
    rw [hi] at hp hg
    constructor
    · intro id p eo
      obtain ⟨x, hx, hc⟩ := hp id p eo
      exact ⟨g x, by rw [e.point?, hx]; rfl, by rw [v.id]; exact v.pointClaims x y hy hs hc⟩
    · intro id eo
      obtain ⟨x, hx, hc⟩ := hg id eo
      exact ⟨k x, by rw [e.signal?, hx]; rfl, by rw [v.id]; exact v.signalClaims x y hy hs hc⟩

theorem LockLaw.evolve (h : LockLaw s) (e : Elementwise s t f g k) (hload : t.dev.state = .loading → s.dev.state = .loading)
    (hids : (t.routes.map (·.id)).Nodup) (hr : ∀ b ∈ t.routes, ∃ a ∈ s.routes, Evolves s f g k a b) : LockLaw t := by
  obtain ⟨-, h2, h3, h4⟩ := lockLaw_iff.1 h
  refine lockLaw_iff.2 ⟨hids, fun hl => ?_, by rw [e.store]; exact h3, fun b hb => ?_⟩
  · refine List.eq_nil_iff_forall_not_mem.2 fun b hb => ?_
    obtain ⟨a, ha, -⟩ := hr b hb
    rw [h2 (hload hl)] at ha
    cases ha
  · obtain ⟨a, ha, v⟩ := hr b hb
    exact (h4 a ha).evolve e v

/-! ## Changes that keep every lock of the routes that stay -/

/-- What the locks read of an active route. -/
def ActiveRoute.locks (a : ActiveRoute) :
    Nat × Option Nat × List Bool × OverlapStatus × List (Nat × Guard × FlankOpt × Bool) :=
  (a.id, a.variant, a.released, a.overlap, a.flanks.map (fun f => (f.index, f.guard, f.opt, f.standing)))

/-- Nothing that names route `r` is dropped. -/
structure KeepsHolds (s : State) (f : SectionRec → SectionRec) (g : PointRec → PointRec) (k : SignalRec → SignalRec) (r : Nat) :
    Prop where
  holders : ∀ x, s.section? x.id = some x → x.holder = .route r ∨ x.holder = .overlap r → (f x).holder = x.holder
  points : ∀ x p, s.point? x.id = some x → x.hold = .route r p ∨ x.hold = .overlap r p → (g x).hold = x.hold
  pointClaims : ∀ x i, ⟨r, i⟩ ∈ x.claims → ⟨r, i⟩ ∈ (g x).claims
  signalClaims : ∀ x i, ⟨r, i⟩ ∈ x.claims → ⟨r, i⟩ ∈ (k x).claims

theorem Evolves.keep {a b : ActiveRoute} (hl : b.locks = a.locks) (h : KeepsHolds s f g k a.id) : Evolves s f g k a b := by
  have hid : b.id = a.id := congrArg (·.1) hl
  have hvar : b.variant = a.variant := congrArg (·.2.1) hl
  have hrel : b.released = a.released := congrArg (·.2.2.1) hl
  have hov : b.overlap = a.overlap := congrArg (·.2.2.2.1) hl
  have hfl : b.flanks.map (fun f => (f.index, f.guard, f.opt, f.standing))
      = a.flanks.map (fun f => (f.index, f.guard, f.opt, f.standing)) := congrArg (·.2.2.2.2) hl
  refine ⟨hid, hvar, fun j e => hrel ▸ e, fun e => hov ▸ e, ?_, fun y hy hs => ?_, fun x hx hh j _ _ => ?_, fun _ x hx hh => ?_,
    fun x p hx hh j _ _ => ?_, fun _ x p hx hh => ?_, fun x y _ _ => h.pointClaims x _, fun x y _ _ => h.signalClaims x _⟩
  · have := congrArg (List.map Prod.fst) hfl
    rwa [List.map_map, List.map_map] at this
  · obtain ⟨z, hz, e⟩ := List.mem_map.1 (hfl ▸ List.mem_map_of_mem (f := fun f : FlankRec => (f.index, f.guard, f.opt, f.standing)) hy)
    simp only [Prod.mk.injEq] at e
    obtain ⟨e1, -, e3, e4⟩ := e
    exact ⟨z, hz, e4.trans hs, e1, e3⟩
  · exact (h.holders x hx (.inl hh)).trans hh
  · exact (h.holders x hx (.inr hh)).trans hh
  · exact (h.points x p hx (.inl hh)).trans hh
  · exact (h.points x p hx (.inr hh)).trans hh

theorem LockLaw.keep (h : LockLaw s) (e : Elementwise s t f g k) (hload : t.dev.state = .loading → s.dev.state = .loading)
    (hl : (t.routes.map ActiveRoute.locks).Sublist (s.routes.map ActiveRoute.locks))
    (hk : ∀ b ∈ t.routes, KeepsHolds s f g k b.id) : LockLaw t := by
  refine h.evolve e hload ?_ fun b hb => ?_
  · have := (hl.map (fun p => p.1))
    rw [List.map_map, List.map_map] at this
    exact h.ids.sublist this
  · obtain ⟨a, ha, e⟩ := List.mem_map.1 (hl.subset (List.mem_map_of_mem hb))
    have hid : a.id = b.id := congrArg (·.1) e
    exact ⟨a, ha, .keep e.symm (hid ▸ hk b hb)⟩

end EveryRecord

/-- The rest of the state changes, and of the routes what no lock reads. -/
theorem LockLaw.of_eq {s t : State} (h : LockLaw s) (hst : t.store = s.store) (hx : t.sections = s.sections)
    (hp : t.points = s.points) (hg : t.signals = s.signals) (hload : t.dev.state = .loading → s.dev.state = .loading)
    (hr : t.routes.map ActiveRoute.locks = s.routes.map ActiveRoute.locks) : LockLaw t :=
  h.keep (.refl hst hx hp hg) hload (hr ▸ .refl _) fun _ _ => ⟨fun _ _ _ => rfl, fun _ _ _ _ => rfl, fun _ _ => id, fun _ _ => id⟩

/-- Signals change in what no lock reads. -/
theorem LockLaw.mapSignals {s : State} {k : SignalRec → SignalRec} (hk : ∀ x, (k x).id = x.id ∧ (k x).claims = x.claims)
    (h : LockLaw s) : LockLaw { s with signals := s.signals.map k } :=
  h.keep (f := id) (g := id) (k := k) ⟨rfl, by rw [List.map_id], by rw [List.map_id], rfl, fun _ => rfl, fun _ => rfl,
      fun _ => rfl, fun x => (hk x).1⟩ id (.refl _)
    fun _ _ => ⟨fun _ _ _ => rfl, fun _ _ _ _ => rfl, fun _ _ => id, fun x i hc => by rw [(hk x).2]; exact hc⟩

theorem LockLaw.withdrawOnly {s : State} (h : LockLaw s) (a : ActiveRoute) (c : PermCause) : LockLaw (withdrawOnly a c s) := by
  obtain ⟨f, hf, -, e⟩ := withdrawOnly_perms a c s
  exact (h.mapSignals (k := f) fun x => by rw [hf x]; exact ⟨rfl, rfl⟩).of_eq e.store e.sections e.points e.signals
    (fun hl => e.dev ▸ hl) (by rw [e.routes])

theorem map_locks_eq {rs : List ActiveRoute} {f : ActiveRoute → ActiveRoute} (hf : ∀ a, (f a).locks = a.locks) :
    (rs.map f).map ActiveRoute.locks = rs.map ActiveRoute.locks := map_core_eq (core := ActiveRoute.locks) hf rs

theorem ActiveRoute.locks_of_face {a b : ActiveRoute} (h : b.face = a.face) : b.locks = a.locks := by
  have h1 : b.id = a.id := congrArg (·.1) h
  have h2 : b.variant = a.variant := congrArg (·.2.1) h
  have h3 : b.released = a.released := congrArg (·.2.2.2.1) h
  have h4 : b.overlap = a.overlap := congrArg (·.2.2.2.2.1) h
  have h5 : b.flanks = a.flanks := congrArg (·.2.2.2.2.2.1) h
  unfold ActiveRoute.locks
  rw [h1, h2, h3, h4, h5]

end Sys2Proof.Machine

/-!
PROOFS. Every kind of change keeps the locks of the active routes (R57, R77). Part of O57.
-/

namespace Sys2Proof.Machine

/-! ## What drops and releases leave (R65, R71, R85, R108, R112) -/

section LocksDropped
variable {s : State}

/-- A section without the holder of route `r`. -/
def SectionRec.without (r : Nat) (x : SectionRec) : SectionRec :=
  if x.holder = .route r ∨ x.holder = .overlap r then { x with holder := .none } else x

/-- A point without the hold and the claims of route `r`. -/
def PointRec.without (r : Nat) (x : PointRec) : PointRec :=
  { x with
    hold := (match x.hold with
      | .route q p => if q = r then .none else .route q p
      | .overlap q p => if q = r then .none else .overlap q p
      | .none => .none)
    claims := x.claims.filter (fun c => c.route != r)
    claimPos := if x.claims.filter (fun c => c.route != r) = [] then none else x.claimPos }

/-- A signal without the entry-of and the claims of route `r`. -/
def SignalRec.without (r : Nat) (x : SignalRec) : SignalRec :=
  { x with
    entryOf := if x.entryOf = some r then none else x.entryOf, claims := x.claims.filter (fun c => c.route != r) }

theorem PointRec.without_hold (r : Nat) (x : PointRec) : (x.without r).hold = (match x.hold with
    | .route q p => if q = r then .none else .route q p
    | .overlap q p => if q = r then .none else .overlap q p
    | .none => .none) := rfl

theorem without_elementwise (s : State) (r : Nat) : Elementwise s (s.without r)
    (SectionRec.without r) (PointRec.without r) (SignalRec.without r) :=
  ⟨rfl, rfl, rfl, rfl, fun x => by unfold SectionRec.without; split <;> rfl, fun _ => rfl, fun _ => rfl, fun _ => rfl⟩

theorem without_keepsHolds (s : State) {r q : Nat} (hq : q ≠ r) : KeepsHolds s
    (SectionRec.without r) (PointRec.without r) (SignalRec.without r) q where
  holders x _ hh := by
    have hn : ¬ (x.holder = .route r ∨ x.holder = .overlap r) := by
      rcases hh with hh | hh <;> rw [hh] <;> simpa using hq
    unfold SectionRec.without; rw [if_neg hn]
  points x p _ hh := by
    rw [PointRec.without_hold]
    rcases hh with hh | hh <;> rw [hh] <;> exact if_neg hq
  pointClaims x i hc := List.mem_filter.2 ⟨hc, by simpa using hq⟩
  signalClaims x i hc := List.mem_filter.2 ⟨hc, by simpa using hq⟩

theorem LockLaw.dropRoute (h : LockLaw s) (r : Nat) : LockLaw (dropRoute r s) := by
  rw [dropRoute_without]
  refine h.keep (without_elementwise s r) id (List.filter_sublist.map _) fun b hb => without_keepsHolds s ?_
  simpa using (List.mem_filter.1 hb).2

/-- The claims that guard one part of a route are no claims of another route. -/
theorem guardClaims_other {a : ActiveRoute} {g : Guard} {c : Claim} (h : c.route ≠ a.id) : guardClaims a g c = false := by
  simp [guardClaims, h]

/-- A STANDING entry that guards something else keeps its claim, since the indexes of a route's entries are distinct. -/
theorem guardClaims_of_other_guard {a : ActiveRoute} (hn : (a.flanks.map (·.index)).Nodup) {g : Guard} {x : FlankRec}
    (hx : x ∈ a.flanks) (hg : x.guard ≠ g) : guardClaims a g ⟨a.id, x.index⟩ = false := by
  unfold guardClaims
  rw [Bool.and_eq_false_iff]
  refine .inr (List.any_eq_false.2 fun y hy => ?_)
  simp only [Bool.and_eq_true, beq_iff_eq, not_and]
  intro e hi
  exact hg ((List.inj_on_of_nodup_map hn hy hx hi) ▸ e.1)

/-- The guard `g` of a route is dropped: what stays STANDING guards something else. -/
theorem dropGuard_standing {g : Guard} {fs : List FlankRec} {y : FlankRec}
    (hy : y ∈ fs.map (fun f => if f.guard = g then { f with standing := false, satisfied := false } else f))
    (hs : y.standing = true) : y ∈ fs ∧ y.guard ≠ g := by
  obtain ⟨x, hx, rfl⟩ := List.mem_map.1 hy
  split at hs
  · cases hs
  · next hg => rw [if_neg hg]; exact ⟨hx, hg⟩

theorem dropGuard_index (g : Guard) (fs : List FlankRec) :
    (fs.map (fun f => if f.guard = g then { f with standing := false, satisfied := false } else f)).map (·.index) =
      fs.map (·.index) := map_core_eq (core := FlankRec.index) (fun x => by split <;> rfl) fs

/-- A section when route `a` releases section `id`. -/
def SectionRec.freed (a : ActiveRoute) (id : Nat) (x : SectionRec) : SectionRec :=
  if x.id = id ∧ x.holder = .route a.id then { x with holder := .none } else x

/-- A point when route `a` releases section `id`: a hold in that section and the claims that guard it are dropped. -/
def PointRec.freed (a : ActiveRoute) (id : Nat) (x : PointRec) : PointRec :=
  { x with
    hold := (match x.hold with
      | .route q p => if q = a.id ∧ x.sec = id then .none else .route q p
      | .overlap q p => .overlap q p
      | .none => .none)
    claims := x.claims.filter (fun c => !guardClaims a (.sec a.cursor) c)
    claimPos := if x.claims.filter (fun c => !guardClaims a (.sec a.cursor) c) = [] then none else x.claimPos }

def SignalRec.freed (a : ActiveRoute) (x : SignalRec) : SignalRec :=
  { x with claims := x.claims.filter (fun c => !guardClaims a (.sec a.cursor) c) }

theorem PointRec.freed_route {a : ActiveRoute} {id : Nat} {x : PointRec} {q : Nat} {p : Pos} (h : x.hold = .route q p)
    (hn : ¬ (q = a.id ∧ x.sec = id)) : (x.freed a id).hold = .route q p := by
  unfold PointRec.freed; rw [h]; exact if_neg hn

theorem PointRec.freed_overlap {a : ActiveRoute} {id : Nat} {x : PointRec} {q : Nat} {p : Pos} (h : x.hold = .overlap q p) :
    (x.freed a id).hold = .overlap q p := by
  unfold PointRec.freed; rw [h]

theorem SectionRec.freed_keeps {a : ActiveRoute} {id : Nat} {x : SectionRec} (h : ¬ (x.id = id ∧ x.holder = .route a.id)) :
    x.freed a id = x := if_neg h

theorem freed_elementwise (s : State) (a : ActiveRoute) (id : Nat) : Elementwise s (s.freed a id)
    (SectionRec.freed a id) (PointRec.freed a id) (SignalRec.freed a) :=
  ⟨rfl, rfl, rfl, rfl, fun x => by unfold SectionRec.freed; split <;> rfl, fun _ => rfl, fun _ => rfl, fun _ => rfl⟩

/-- A section that stays unreleased is not the one that is released: the sections of a route are distinct. -/
theorem released_other {secs : List Nat} (hn : secs.Nodup) {c j : Nat} {id : Nat} {fs : List Bool}
    (hc : secs[c]? = some id) (hj : secs[j]? = some id) (hr : (fs.set c true)[j]? = some false) : False := by
  obtain ⟨hc1, hc2⟩ := List.getElem?_eq_some_iff.1 hc
  obtain ⟨hj1, hj2⟩ := List.getElem?_eq_some_iff.1 hj
  have : c = j := (hn.getElem_inj_iff).1 (hc2.trans hj2.symm)
  subst this
  rw [List.getElem?_set] at hr
  simp only [if_true] at hr
  split at hr <;> cases hr

theorem set_released {c j : Nat} {fs : List Bool} (hr : (fs.set c true)[j]? = some false) : fs[j]? = some false := by
  rw [List.getElem?_set] at hr
  split at hr
  · split at hr <;> cases hr
  · exact hr

/-- The Route Store has distinct sections in a route whose definition it holds. -/
theorem LockLaw.apart (h : LockLaw s) {r : Nat} {id : Nat} {j : Nat} (hj : (s.defOf r).secs[j]? = some id) :
    (s.defOf r).Apart := by
  unfold State.defOf at hj ⊢
  cases hd : s.def? r with
  | none => rw [hd] at hj; cases hj
  | some d => exact h.store d (List.mem_of_find?_eq_some hd)

theorem LockLaw.freed (h : LockLaw s) {a : ActiveRoute} {id : Nat} (ha : s.route? a.id = some a)
    (hid : (s.defOf a.id).secs[a.cursor - 1]? = some id) : LockLaw (s.freed a id) := by
  have hm := List.mem_of_find?_eq_some ha
  have hn := (h.apart hid).secs
  refine h.evolve (freed_elementwise s a id) (fun e => e) ?_ fun b hb => ?_
  · have e : (s.freed a id).routes.map (·.id) = s.routes.map (·.id) :=
      map_core_eq (core := ActiveRoute.id) (fun x => by split <;> rfl) s.routes
    rw [e]; exact h.ids
  · obtain ⟨c, hc, rfl⟩ := List.mem_map.1 hb
    refine ⟨c, hc, ?_⟩
    by_cases hca : c.id = a.id
    · have : c = a := List.inj_on_of_nodup_map h.ids hc hm hca
      subst this
      rw [if_pos rfl]
      refine ⟨rfl, rfl, fun j => set_released, fun e => e, dropGuard_index _ _, fun y hy hs => ?_, fun x hx hh j hj hr => ?_,
        fun _ x hx hh => ?_, fun x p hx hh j hj hr => ?_, fun _ x p hx hh => ?_, fun x y hy hs hcl => ?_, fun x y hy hs hcl => ?_⟩
      · exact ⟨y, (dropGuard_standing hy hs).1, hs, rfl, rfl⟩
      · rw [SectionRec.freed_keeps]
        · exact hh
        · exact fun e => released_other hn hid (e.1 ▸ hj) hr
      · rw [SectionRec.freed_keeps]
        · exact hh
        · rintro ⟨-, e⟩; rw [hh] at e; cases e
      · exact PointRec.freed_route hh fun e => released_other hn hid (e.2 ▸ hj) hr
      · exact PointRec.freed_overlap hh
      · obtain ⟨hy', hg⟩ := dropGuard_standing hy hs
        exact List.mem_filter.2 ⟨hcl, by rw [guardClaims_of_other_guard (h.indexes c hm) hy' hg]; rfl⟩
      · obtain ⟨hy', hg⟩ := dropGuard_standing hy hs
        exact List.mem_filter.2 ⟨hcl, by rw [guardClaims_of_other_guard (h.indexes c hm) hy' hg]; rfl⟩
    · rw [if_neg hca]
      refine .keep rfl ⟨fun x hx hh => ?_, fun x p hx hh => ?_, fun x i hcl => ?_, fun x i hcl => ?_⟩
      · rw [SectionRec.freed_keeps]
        rintro ⟨-, e⟩
        rcases hh with hh | hh <;> rw [hh] at e
        · exact hca (Holder.route.inj e)
        · cases e
      · rcases hh with hh | hh
        · exact (PointRec.freed_route hh fun e => hca e.1).trans hh.symm
        · exact (PointRec.freed_overlap hh).trans hh.symm
      · exact List.mem_filter.2 ⟨hcl, by rw [guardClaims_other hca]; rfl⟩
      · exact List.mem_filter.2 ⟨hcl, by rw [guardClaims_other hca]; rfl⟩

/-! ### The overlap (R86, R87, R112) -/

def SectionRec.overlapFreed (r : Nat) (x : SectionRec) : SectionRec :=
  if (x.holder == .overlap r) = true then { x with holder := .none } else x

/-- Whether a hold is the overlap's hold of route `r`. -/
def overlapHold (r : Nat) (h : PointHold) : Bool := match h with
  | .overlap q _ => q == r
  | _ => false

/-- A claim goes with the overlap of route `a`. -/
def overlapClaim (kept : Bool) (a : ActiveRoute) (c : Claim) : Bool := !kept && guardClaims a .overlap c

def PointRec.overlapFreed (kept : Bool) (a : ActiveRoute) (x : PointRec) : PointRec :=
  PointRec.dropClaims (overlapClaim kept a) (if overlapHold a.id x.hold = true then { x with hold := .none } else x)

/-- A route whose overlap is freed; with `kept` the claims that guard it stand. -/
def ActiveRoute.overlapFreed (kept : Bool) (x : ActiveRoute) : ActiveRoute :=
  if kept then { x with overlap := .released, overlapTimer := .off }
  else dropGuard .overlap { x with overlap := .released, overlapTimer := .off }

theorem overlapFreed_elementwise (s : State) (kept : Bool) (a : ActiveRoute) : Elementwise s (s.overlapFreed kept a)
    (SectionRec.overlapFreed a.id) (PointRec.overlapFreed kept a) (SignalRec.dropClaims (overlapClaim kept a)) where
  store := rfl; sections := rfl
  points := by
    refine (List.map_map (g := PointRec.dropClaims _)).trans (List.map_congr_left fun x _ => ?_)
    rcases x with ⟨i1, i2, i3, i4, i5, i6, i7, i8, i9, i10, i11, i12, i13, hold, i14, i15⟩
    cases hold <;> rfl
  signals := rfl
  idOfSection x := by unfold SectionRec.overlapFreed; split <;> rfl
  idOfPoint x := by
    show (if overlapHold a.id x.hold = true then _ else _ : PointRec).id = _
    split <;> rfl
  pointSec x := by
    show (if overlapHold a.id x.hold = true then _ else _ : PointRec).sec = _
    split <;> rfl
  idOfSignal _ := rfl

theorem overlapFreed_routes (s : State) (kept : Bool) (a : ActiveRoute) : (s.overlapFreed kept a).routes =
    s.routes.map (fun x => if x.id = a.id then x.overlapFreed kept else x) := rfl

theorem ActiveRoute.overlapFreed_id (kept : Bool) (x : ActiveRoute) : (x.overlapFreed kept).id = x.id := by
  cases kept <;> rfl

theorem ActiveRoute.overlapFreed_variant (kept : Bool) (x : ActiveRoute) : (x.overlapFreed kept).variant = x.variant := by
  cases kept <;> rfl

theorem ActiveRoute.overlapFreed_released (kept : Bool) (x : ActiveRoute) : (x.overlapFreed kept).released = x.released := by
  cases kept <;> rfl

theorem ActiveRoute.overlapFreed_overlap (kept : Bool) (x : ActiveRoute) : (x.overlapFreed kept).overlap = .released := by
  cases kept <;> rfl

theorem SectionRec.overlapFreed_keeps {r : Nat} {x : SectionRec} (h : x.holder ≠ .overlap r) : x.overlapFreed r = x :=
  if_neg (by simpa using h)

theorem PointRec.overlapFreed_hold {kept : Bool} {a : ActiveRoute} {x : PointRec} (h : overlapHold a.id x.hold = false) :
    (x.overlapFreed kept a).hold = x.hold := by
  unfold PointRec.overlapFreed; rw [if_neg (by rw [h]; decide)]; rfl

theorem PointRec.overlapFreed_claims (kept : Bool) (a : ActiveRoute) (x : PointRec) :
    (x.overlapFreed kept a).claims = x.claims.filter (fun c => !overlapClaim kept a c) := by
  unfold PointRec.overlapFreed
  split <;> rfl

/-- What stays STANDING when an overlap is freed keeps its claim. -/
theorem overlapClaim_standing {kept : Bool} {a : ActiveRoute} (hn : (a.flanks.map (·.index)).Nodup) {y : FlankRec}
    (hy : y ∈ (a.overlapFreed kept).flanks) (hs : y.standing = true) : y ∈ a.flanks ∧ overlapClaim kept a ⟨a.id, y.index⟩ = false := by
  cases kept with
  | true => exact ⟨hy, rfl⟩
  | false =>
    obtain ⟨hy', hg⟩ := dropGuard_standing (g := .overlap) hy hs
    exact ⟨hy', guardClaims_of_other_guard hn hy' hg⟩

theorem LockLaw.overlapFreed (h : LockLaw s) {a : ActiveRoute} (kept : Bool) (ha : s.route? a.id = some a) :
    LockLaw (s.overlapFreed kept a) := by
  have hm := List.mem_of_find?_eq_some ha
  refine h.evolve (overlapFreed_elementwise s kept a) (fun e => e) ?_ fun b hb => ?_
  · have e : (s.overlapFreed kept a).routes.map (·.id) = s.routes.map (·.id) := by
      rw [overlapFreed_routes]
      exact map_core_eq (core := ActiveRoute.id) (fun x => by split <;> [exact x.overlapFreed_id kept; rfl]) s.routes
    rw [e]; exact h.ids
  · rw [overlapFreed_routes] at hb
    obtain ⟨c, hc, rfl⟩ := List.mem_map.1 hb
    refine ⟨c, hc, ?_⟩
    by_cases hca : c.id = a.id
    · have : c = a := List.inj_on_of_nodup_map h.ids hc hm hca
      subst this
      rw [if_pos rfl]
      have hnot : (c.overlapFreed kept).overlap ≠ .held := by rw [c.overlapFreed_overlap]; decide
      refine ⟨c.overlapFreed_id kept, c.overlapFreed_variant kept, fun j e => by rwa [c.overlapFreed_released] at e,
        fun e => absurd e hnot, ?_, fun y hy hs => ⟨y, (overlapClaim_standing (h.indexes c hm) hy hs).1, hs, rfl, rfl⟩,
        fun x hx hh j hj hr => ?_, fun e => absurd e hnot, fun x p hx hh j hj hr => ?_, fun e => absurd e hnot,
        fun x y hy hs hcl => ?_, fun x y hy hs hcl => ?_⟩
      · cases kept
        · exact dropGuard_index .overlap c.flanks
        · rfl
      · rw [SectionRec.overlapFreed_keeps (by rw [hh]; exact fun e => by cases e)]; exact hh
      · rw [PointRec.overlapFreed_hold (by rw [hh]; rfl)]; exact hh
      · rw [PointRec.overlapFreed_claims]
        exact List.mem_filter.2 ⟨hcl, by rw [(overlapClaim_standing (h.indexes c hm) hy hs).2]; rfl⟩
      · exact List.mem_filter.2 ⟨hcl, by rw [(overlapClaim_standing (h.indexes c hm) hy hs).2]; rfl⟩
    · rw [if_neg hca]
      refine .keep rfl ⟨fun x hx hh => ?_, fun x p hx hh => ?_, fun x i hcl => ?_, fun x i hcl => ?_⟩
      · rw [SectionRec.overlapFreed_keeps]
        rcases hh with hh | hh <;> rw [hh] <;> simp [hca]
      · refine PointRec.overlapFreed_hold ?_
        rcases hh with hh | hh <;> rw [hh] <;> simp [overlapHold, hca]
      · rw [PointRec.overlapFreed_claims]
        exact List.mem_filter.2 ⟨hcl, by simp [overlapClaim, guardClaims_other (a := a) (g := .overlap) (c := ⟨c.id, i⟩) hca]⟩
      · exact List.mem_filter.2 ⟨hcl, by simp [overlapClaim, guardClaims_other (a := a) (g := .overlap) (c := ⟨c.id, i⟩) hca]⟩

end LocksDropped

end Sys2Proof.Machine

/-!
PROOFS. The take of a route keeps the locks of the others and makes its own (R50, R57, R77), and so every kind of change keeps
the locks of the active routes. Part of O57.
-/

namespace Sys2Proof.Machine

/-! ## What SET ROUTE has found (R46 to R49) -/

section TakeFound
variable {s : State} {d : RouteDef} {v : Option Nat} {flanks : List FlankRec} {opts : List Nat}

/-- The chosen records, entry by entry. -/
theorem chosen_at (h : chooseFlanks s d v d.flanks [] [] = .ok (flanks, opts)) : flanks.length = d.flanks.length
    ∧ ∀ (i : Nat) (e : FlankDef), d.flanks[i]? = some e → ∃ o ∈ e.options, flanks[i]? = some ⟨e.index, e.guard, o, true, optSatisfied s o⟩
      ∧ obtainable s d v (flanks.take i) o = true := by
  obtain ⟨fs, os, hfs, -, hl, -, hall⟩ := chooseFlanks_ok d.flanks [] [] h
  rw [List.nil_append] at hfs
  subst hfs
  refine ⟨hl, fun i e he => ?_⟩
  obtain ⟨k, o, -, ho, hgi, hob, -⟩ := hall i e he
  exact ⟨o, List.mem_of_getElem? ho, hgi, by rwa [List.nil_append] at hob⟩

/-- A chosen record was obtainable beside those before it, and its flag is what its element gives (R49, R77, R82). -/
theorem chosen_obtainable (h : chooseFlanks s d v d.flanks [] [] = .ok (flanks, opts)) {i : Nat} {f : FlankRec}
    (hf : flanks[i]? = some f) : obtainable s d v (flanks.take i) f.opt = true ∧ f.satisfied = optSatisfied s f.opt := by
  obtain ⟨hl, hall⟩ := chosen_at h
  have hi : i < d.flanks.length := hl ▸ (List.getElem?_eq_some_iff.1 hf).1
  obtain ⟨o, -, hgi, hob⟩ := hall i _ (List.getElem?_eq_getElem hi)
  obtain rfl := Option.some.inj (hf.symm.trans hgi)
  exact ⟨hob, rfl⟩

theorem chosen_index (h : chooseFlanks s d v d.flanks [] [] = .ok (flanks, opts)) :
    flanks.map (·.index) = d.flanks.map (·.index) := by
  obtain ⟨hl, hall⟩ := chosen_at h
  refine List.ext_getElem? fun i => ?_
  rw [List.getElem?_map, List.getElem?_map]
  cases he : d.flanks[i]? with
  | none =>
    rw [List.getElem?_eq_none_iff] at he
    rw [List.getElem?_eq_none_iff.2 (hl ▸ he)]; rfl
  | some e =>
    obtain ⟨o, -, hgi, -⟩ := hall i e he
    rw [hgi]; rfl

section TakeChecks
variable (h : Takeable s d v flanks opts)
include h

theorem Takeable.checks : checkSignal s d = none ∧ (∀ i ∈ allSecs d v, SectionReady s i)
    ∧ (∀ q ∈ allPoints d v, PointReady s q) ∧ ExitReady s d := by
  have ha := h.available
  unfold availability at ha
  rw [Option.or_eq_none_iff, Option.or_eq_none_iff, Option.or_eq_none_iff, List.findSome?_eq_none_iff,
    List.findSome?_eq_none_iff] at ha
  obtain ⟨h1, h2, h3, h4⟩ := ha
  exact ⟨h1, fun i hi => checkSection_none_iff.1 (h2 i hi), fun q hq => checkPoint_none_iff.1 (h3 q hq),
    checkBoundary_none_iff.1 h4⟩

/-- A section that the route takes is free. -/
theorem Takeable.section_free {x : SectionRec} (hx : s.section? x.id = some x) (hm : x.id ∈ allSecs d v) : x.holder = .none := by
  obtain ⟨y, hy, hf, -⟩ := h.checks.2.1 _ hm
  obtain rfl := Option.some.inj (hx.symm.trans hy)
  exact hf

theorem Takeable.point_free {x : PointRec} (hx : s.point? x.id = some x) {q : PointReq} (hq : q ∈ allPoints d v)
    (hqx : q.point = x.id) : x.hold = .none := by
  obtain ⟨y, hy, hf, -⟩ := h.checks.2.2.1 _ hq
  rw [hqx] at hy
  obtain rfl := Option.some.inj (hx.symm.trans hy)
  exact hf

end TakeChecks

/-! ## The take -/

def SectionRec.taken (d : RouteDef) (v : Option Nat) (x : SectionRec) : SectionRec :=
  { x with holder := if x.id ∈ d.secs then .route d.id else if x.id ∈ overlapSecs d v then .overlap d.id else x.holder }

def SignalRec.taken (d : RouteDef) (flanks : List FlankRec) (x : SignalRec) : SignalRec :=
  { x with entryOf := if x.id = d.entry then some d.id else x.entryOf
           claims := x.claims ++ claimsFor d.id flanks (fun o => o == .signal x.id) }

theorem taken_elementwise (s : State) (d : RouteDef) (v : Option Nat) (flanks : List FlankRec) (opts : List Nat) :
    Elementwise s (s.taken d v flanks opts) (SectionRec.taken d v) (PointRec.taken d v flanks) (SignalRec.taken d flanks) :=
  ⟨rfl, rfl, rfl, rfl, fun _ => rfl, fun _ => rfl, fun _ => rfl, fun _ => rfl⟩

theorem SectionRec.taken_other {x : SectionRec} (h : x.id ∉ allSecs d v) : (x.taken d v).holder = x.holder := by
  unfold allSecs at h
  rw [List.mem_append, not_or] at h
  unfold SectionRec.taken
  rw [if_neg h.1, if_neg h.2]

theorem PointRec.taken_other {x : PointRec} (h : ∀ q ∈ allPoints d v, q.point ≠ x.id) : (x.taken d v flanks).hold = x.hold := by
  have h1 : d.points.find? (fun q => q.point == x.id) = none :=
    List.find?_eq_none.2 fun q hq => by simpa using h q (List.mem_append_left _ hq)
  have h2 : (overlapPoints d v).find? (fun q => q.point == x.id) = none :=
    List.find?_eq_none.2 fun q hq => by simpa using h q (List.mem_append_right _ hq)
  unfold PointRec.taken
  rw [h1, h2]

/-- A point of the route takes the position that the route requires of it. -/
theorem PointRec.taken_route {x : PointRec} (hn : (d.points.map (·.point)).Nodup) {q : PointReq} (hq : q ∈ d.points)
    (hqx : q.point = x.id) : (x.taken d v flanks).hold = .route d.id q.pos := by
  have h1 : d.points.find? (fun q => q.point == x.id) = some q := hqx ▸ find?_key (key := PointReq.point) hn hq
  unfold PointRec.taken
  rw [h1]

theorem PointRec.taken_overlap {x : PointRec} (hn : ((overlapPoints d v).map (·.point)).Nodup) {q : PointReq}
    (hq : q ∈ overlapPoints d v) (hqx : q.point = x.id) (ho : ∀ p ∈ d.points, p.point ≠ x.id) :
    (x.taken d v flanks).hold = .overlap d.id q.pos := by
  have h1 : d.points.find? (fun q => q.point == x.id) = none :=
    List.find?_eq_none.2 fun p hp => by simpa using ho p hp
  have h2 : (overlapPoints d v).find? (fun q => q.point == x.id) = some q := hqx ▸ find?_key (key := PointReq.point) hn hq
  unfold PointRec.taken
  rw [h1, h2]

/-- The overlap of a variant has no section and no point of the route itself, and its points are distinct (R43). -/
theorem RouteDef.Apart.overlap (h : d.Apart) (v : Option Nat) : (∀ i ∈ overlapSecs d v, i ∉ d.secs)
    ∧ ((overlapPoints d v).map (·.point)).Nodup ∧ ∀ q ∈ overlapPoints d v, ∀ p ∈ d.points, q.point ≠ p.point := by
  unfold overlapSecs overlapPoints
  cases v with
  | none => exact ⟨fun _ hi => (by cases hi), List.nodup_nil, fun _ hq => (by cases hq)⟩
  | some k =>
    dsimp only
    cases hk : d.variants[k]? with
    | none => exact ⟨fun _ hi => (by cases hi), List.nodup_nil, fun _ hq => (by cases hq)⟩
    | some o =>
      obtain ⟨-, h2, h3, h4⟩ := h.variants o (List.mem_of_getElem? hk)
      exact ⟨h3, h2, h4⟩

theorem Takeable.keepsHolds (h : Takeable s d v flanks opts) (r : Nat) :
    KeepsHolds s (SectionRec.taken d v) (PointRec.taken d v flanks) (SignalRec.taken d flanks) r where
  holders x hx hh := by
    refine SectionRec.taken_other fun hm => ?_
    have := h.section_free hx hm
    rw [this] at hh
    exact hh.elim (fun e => by cases e) (fun e => by cases e)
  points x p hx hh := by
    refine PointRec.taken_other fun q hq hqx => ?_
    have := h.point_free hx hq hqx
    rw [this] at hh
    exact hh.elim (fun e => by cases e) (fun e => by cases e)
  pointClaims _ _ hc := List.mem_append_left _ hc
  signalClaims _ _ hc := List.mem_append_left _ hc

/-- The claims of a chosen option stand after the take (R77). -/
theorem Takeable.claimStands (h : Takeable s d v flanks opts) {f : FlankRec} (hf : f ∈ flanks) :
    ClaimStands (s.taken d v flanks opts) d.id f := by
  obtain ⟨i, hi⟩ := List.getElem?_of_mem hf
  have hob := (chosen_obtainable h.chosen hi).1
  have e := taken_elementwise s d v flanks opts
  constructor
  · intro id p ho
    rw [ho, obtainable_point_iff] at hob
    obtain ⟨x, hx, -⟩ := hob
    refine ⟨x.taken d v flanks, by rw [e.point?, hx]; rfl, List.mem_append_right _ (mem_claimsFor.2 ⟨f, hf, ?_, rfl⟩)⟩
    rw [ho, point?_id hx]
    cases p <;> simp
  · intro id ho
    rw [ho, obtainable_signal_iff] at hob
    obtain ⟨x, hx, -⟩ := hob
    refine ⟨x.taken d flanks, by rw [e.signal?, hx]; rfl, List.mem_append_right _ (mem_claimsFor.2 ⟨f, hf, ?_, rfl⟩)⟩
    rw [ho, signal?_id hx]
    simp

/-- The locks of the new route stand (R50, R57). -/
theorem Takeable.locks (h : Takeable s d v flanks opts) (ha : d.Apart) (p : Nat) :
    RouteLocks (s.taken d v flanks opts) (newRecord d v flanks opts p) := by
  have e := taken_elementwise s d v flanks opts
  have hd : (s.taken d v flanks opts).defOf d.id = d := defOf_eq h.found
  obtain ⟨ho1, ho2, ho3⟩ := ha.overlap v
  obtain ⟨-, hsec, hpt, -⟩ := h.checks
  refine ⟨fun j id hid _ => ?_, fun q hq y hy j _ _ => ?_, fun _ id hid => ?_, fun _ q hq => ?_, ?_, fun f hf _ => h.claimStands hf⟩
  · have hid' : id ∈ d.secs := List.mem_of_getElem? (hd ▸ hid)
    obtain ⟨x, hx, -⟩ := hsec id (List.mem_append_left _ hid')
    obtain rfl := sectionLookup_id hx
    exact ⟨x.taken d v, by rw [e.section?, hx]; rfl, if_pos hid'⟩
  · have hq' : q ∈ d.points := hd ▸ hq
    rw [e.point?] at hy
    obtain ⟨x, hx, rfl⟩ := Option.map_eq_some_iff.1 hy
    exact PointRec.taken_route ha.points hq' (point?_id hx).symm
  · have hid' : id ∈ overlapSecs d v := hd ▸ hid
    obtain ⟨x, hx, -⟩ := hsec id (List.mem_append_right _ hid')
    obtain rfl := sectionLookup_id hx
    exact ⟨x.taken d v, by rw [e.section?, hx]; rfl, (if_neg (ho1 _ hid')).trans (if_pos hid')⟩
  · have hq' : q ∈ overlapPoints d v := hd ▸ hq
    obtain ⟨x, hx, -⟩ := hpt q (List.mem_append_right _ hq')
    refine ⟨x.taken d v flanks, by rw [e.point?, hx]; rfl, PointRec.taken_overlap ho2 hq' (point?_id hx).symm fun p hp => ?_⟩
    rw [point?_id hx]
    exact fun e => ho3 q hq' p hp e.symm
  · show (flanks.map (·.index)).Nodup
    rw [chosen_index h.chosen]; exact ha.flanks

theorem LockLaw.taken (hl : LockLaw s) (h : Takeable s d v flanks opts) : LockLaw (s.taken d v flanks opts) := by
  obtain ⟨h1, -, h3, h4⟩ := lockLaw_iff.1 hl
  have hfresh : ∀ a ∈ s.routes, a.id ≠ d.id := fun a ha => by simpa using List.find?_eq_none.1 h.fresh a ha
  refine lockLaw_iff.2 ⟨?_, fun e => absurd e h.served, h3, fun b hb => ?_⟩
  · show ((s.routes ++ [newRecord d v flanks opts (param 11 s)]).map (·.id)).Nodup
    rw [List.map_append]
    refine List.nodup_append.2 ⟨h1, List.nodup_singleton _, fun i hi j hj e => ?_⟩
    obtain ⟨a, ha, rfl⟩ := List.mem_map.1 hi
    exact hfresh a ha (e.trans (List.mem_singleton.1 hj))
  · rcases List.mem_append.1 hb with hb | hb
    · exact (h4 b hb).evolve (taken_elementwise s d v flanks opts) (.keep rfl (h.keepsHolds _))
    · rw [List.mem_singleton.1 hb]
      exact h.locks (h3 d (List.mem_of_find?_eq_some h.found)) _

end TakeFound

/-! ## Every kind of change -/

/-- A route list with the same locks, one record changed. -/
theorem LockLaw.mapRoute {s : State} (h : LockLaw s) {r : Nat} {f : ActiveRoute → ActiveRoute} (hf : ∀ a, (f a).locks = a.locks) :
    LockLaw (s.mapRoute r f) :=
  h.of_eq rfl rfl rfl rfl id (map_locks_eq fun a => by split <;> [exact hf a; rfl])

theorem LockLaw.mapSections {s : State} (h : LockLaw s) {f : SectionRec → SectionRec}
    (hf : ∀ x, (f x).id = x.id) (hh : ∀ r x, s.section? x.id = some x → x.holder = .route r ∨ x.holder = .overlap r →
      (f x).holder = x.holder) : LockLaw { s with sections := s.sections.map f } :=
  h.keep (f := f) (g := id) (k := id) ⟨rfl, rfl, by rw [List.map_id], by rw [List.map_id], hf, fun _ => rfl, fun _ => rfl,
      fun _ => rfl⟩ id (.refl _)
    fun _ _ => ⟨hh _, fun _ _ _ _ => rfl, fun _ _ => id, fun _ _ => id⟩

theorem LockLaw.dropEntryOf {s : State} (h : LockLaw s) (r : Nat) : LockLaw (dropEntryOf r s) :=
  h.mapSignals fun x => by split <;> exact ⟨rfl, rfl⟩

theorem lockLaw_changes : Changes LockLaw (fun _ => False) where
  rest _ _ e h := h.of_eq e.store e.sections e.points e.signals (fun hl => e.dev ▸ hl) (by rw [e.routes]); sections s f hf _ h :=
    h.mapSections (fun x => (hf x).1) fun _ x _ _ => (hf x).2
  points s f hf _ h := h.keep (f := id) (g := f) (k := id) ⟨rfl, by rw [List.map_id], rfl, by rw [List.map_id], fun _ => rfl,
      fun x => (hf x).1, fun x => (hf x).2.1, fun _ => rfl⟩ id (.refl _)
    fun _ _ => ⟨fun _ _ _ => rfl, fun x _ _ _ => (hf x).2.2.1, fun x i hc => by rw [(hf x).2.2.2.1]; exact hc, fun _ _ => id⟩
  signals s f hf _ h := h.mapSignals fun x => ⟨(hf x).1, (hf x).2.2.1⟩
  routes s f hf h := h.of_eq rfl rfl rfl rfl id (map_locks_eq fun a => ActiveRoute.locks_of_face (hf a))
  slots _ _ _ _ h := h.of_eq rfl rfl rfl rfl id rfl
  device _ _ hd _ h := h.of_eq rfl rfl rfl rfl hd rfl
  chan s t e _ h := by rw [e.eq]; exact h.of_eq rfl rfl rfl rfl id rfl
  withdraw s a c _ h := (((h.mapSignals (k := fun x => if x.id = (s.defOf a.id).entry then
      { x with perm := none, watch := SignalRec.watchTimer (param 7 s) { x with perm := none } } else x)
      fun x => by split <;> exact ⟨rfl, rfl⟩).mapRoute (r := a.id) (f := fun x => { x with state := .locked, grantAllowed := false })
      fun _ => rfl).of_eq rfl rfl rfl rfl id rfl)
  grant s a _ _ _ h := (((h.mapSignals (k := fun x => if x.id = (s.defOf a.id).entry then
      { x with perm := some a.id, watch := SignalRec.watchTimer (param 7 s) { x with perm := some a.id } } else x)
      fun x => by split <;> exact ⟨rfl, rfl⟩).mapRoute (r := a.id) (f := fun x => { x with state := .permitted, permittedBefore := true })
      fun _ => rfl).of_eq rfl rfl rfl rfl id rfl)
  lock _ _ _ _ h := h.mapRoute fun _ => rfl
  leave s a c st _ _ h := (h.withdrawOnly a c).mapRoute fun _ => rfl
  enter s a _ h := ((h.withdrawOnly a .entered).dropEntryOf a.id).mapRoute fun _ => rfl
  passEntry _ a _ _ h := h.dropEntryOf a.id
  drop _ a _ _ h := h.dropRoute a.id
  cancel s a c _ h := (h.withdrawOnly a c).dropRoute a.id
  release s a id ha hid h := h.freed ha hid
  overlap s a kept ha h := h.overlapFreed kept ha
  flags s id _ h := h.of_eq rfl rfl rfl rfl (fun e => e) (map_locks_eq fun a => by
    unfold ActiveRoute.locks rederiveFlank
    dsimp only
    rw [map_core_eq (core := fun f : FlankRec => (f.index, f.guard, f.opt, f.standing))]
    intro f; split <;> rfl)
  accept s ref x f hx hb _ h := by
    refine LockLaw.of_eq (h.mapSections (f := fun y => if y.id = x.bsec then { y with holder := .entry ref.link ref.idx } else y)
      (fun y => by split <;> rfl) fun r y hy hh => ?_) rfl rfl rfl rfl id rfl
    rw [if_neg]
    intro e
    obtain ⟨b, hb, hf⟩ := hb
    rw [← e] at hb
    obtain rfl := Option.some.inj (hy.symm.trans hb)
    rw [hf] at hh
    exact hh.elim (fun e => by cases e) (fun e => by cases e)
  inbound _ _ _ _ _ _ _ h := h.of_eq rfl rfl rfl rfl id rfl
  leaveInbound s ref x b f _ _ _ h := by
    refine LockLaw.of_eq (h.mapSections (f := fun y => if y.id = b then
        (if y.holder = .entry ref.link ref.idx then { y with holder := .none } else y) else y)
      (fun y => by repeat' split
                   all_goals rfl) fun r y _ hh => ?_) rfl rfl rfl rfl id rfl
    split
    · rw [if_neg]
      rcases hh with hh | hh <;> rw [hh] <;> exact fun e => by cases e
    · rfl
  take s d v flanks opts ht h := by rw [takeRoute_taken]; exact h.taken ht
  blocks s ch h := by
    have hr : (resetBlocks ch s).routes = [] := by cases ch <;> rfl
    refine lockLaw_iff.2 ⟨by rw [hr]; exact List.nodup_nil, fun _ => hr, ?_, fun a ha => by rw [hr] at ha; cases ha⟩
    have hs : (resetBlocks ch s).store = s.store := by cases ch <;> rfl
    rw [hs]; exact h.store

theorem reqOf_points {ps : List ImgPoint} : (ps.map reqOf).map (·.point) = ps.map Prod.fst := by
  rw [List.map_map]; rfl

/-- The flank entries of a route are collected index by index (R44). -/
theorem flanksOf_index (m : Image) (r : Nat) : ((flanksOf m r).map (·.index)).Nodup := by
  unfold flanksOf
  rw [List.map_filterMap]
  refine List.Nodup.filterMap (fun j k i hj hk => ?_) List.nodup_range
  have hidx : ∀ {j : Nat}, i ∈ ((m.flanks.find? (fun f => f.route == r && f.index == j + 1)).map flankDefOf).map (·.index) →
      i = j + 1 := by
    intro j hj
    obtain ⟨y, hy, rfl⟩ := Option.map_eq_some_iff.1 (Option.mem_def.1 hj)
    obtain ⟨x, hx, rfl⟩ := Option.map_eq_some_iff.1 hy
    have := List.find?_some hx
    simp only [Bool.and_eq_true, beq_iff_eq] at this
    exact this.2
  have := (hidx hj).symm.trans (hidx hk)
  omega

/-- What R42 to R44 ask of an image keeps the parts of each route record apart. -/
theorem Image.Sound.apart {m : Image} (h : m.Sound) {r : ImgRoute} (hr : r ∈ m.routes) : (routeDefOf m r).Apart := by
  have hs := h.routes.2 r hr
  obtain ⟨-, -, hn, -⟩ := hs.sections
  refine ⟨hn, ?_, flanksOf_index m r.id, fun v hv => ?_⟩
  · show ((r.points.map reqOf).map (·.point)).Nodup
    rw [reqOf_points]; exact hs.points.2.1
  · obtain ⟨x, hx, rfl⟩ := List.mem_map.1 hv
    obtain ⟨-, -, -, h4, h5, h6, h7⟩ := hs.variants.2 x hx
    refine ⟨h4, ?_, fun i hi => (h5 i hi).2, fun q hq p hp => ?_⟩
    · show ((x.points.map reqOf).map (·.point)).Nodup
      rw [reqOf_points]; exact h6.1
    · obtain ⟨q', hq', rfl⟩ := List.mem_map.1 hq
      obtain ⟨p', hp', rfl⟩ := List.mem_map.1 hp
      exact h7 q' hq' p' hp'

/-- The blocks filled from a sound image have locks, since no route is active in LOADING (R55, R163). -/
theorem LockLaw.filled {s : State} (h : LockLaw s) {bs : List Byte} (hl : s.dev.state = .loading) (hv : validate bs = none)
    (d : Device) : LockLaw { fillBlocks (imageBytes bs) s with dev := d } := by
  have hr : s.routes = [] := h.loading hl
  have hr' : ({ fillBlocks (imageBytes bs) s with dev := d } : State).routes = [] := hr
  refine lockLaw_iff.2 ⟨by rw [hr']; exact List.nodup_nil, fun _ => hr', fun x hx => ?_, fun a ha => by rw [hr'] at ha; cases ha⟩
  obtain ⟨r, hm, rfl⟩ := List.mem_map.1 hx
  exact ((validate_none bs).1 hv).2.2.2.apart hm

theorem lockLaw_drst (s : State) : LockLaw (assertDrst s) :=
  lockLaw_iff.2 ⟨List.nodup_nil, fun _ => rfl, fun _ hx => (by cases hx), fun _ ha => (by cases ha)⟩

theorem lockLaw_step {s t : State} (h : LockLaw s) (e : step s = .next t) : LockLaw t :=
  (Fine.const lockLaw_changes).step (fun s _ => lockLaw_drst s) (fun _ _ hl hv h => h.filled hl hv _) e
    (fun ⟨_, _, e, _⟩ => e.elim) h

end Sys2Proof.Machine

/-!
PROOFS. Holders name active routes and the claim sets are lawful under every kind of change (R57, R75 to R78). Part of O58.
-/

namespace Sys2Proof.Machine

section DroppedClaims
variable {s t : State} {f : SectionRec → SectionRec} {g : PointRec → PointRec} {k : SignalRec → SignalRec}

/-- A change of the elements that takes no holder, hold, entry-of or claim. -/
structure Drops (f : SectionRec → SectionRec) (g : PointRec → PointRec) (k : SignalRec → SignalRec) : Prop where
  holder : ∀ x r, (f x).holder = .route r ∨ (f x).holder = .overlap r → x.holder = .route r ∨ x.holder = .overlap r
  hold : ∀ x, (g x).hold = x.hold ∨ (g x).hold = .none
  entry : ∀ x r, (k x).entryOf = some r → x.entryOf = some r
  pointClaims : ∀ x, (g x).claims.Sublist x.claims
  claimPos : ∀ x : PointRec, (x.claims = [] ↔ x.claimPos = none) → (g x).claimPos = if (g x).claims = [] then none else x.claimPos
  signalClaims : ∀ x, (k x).claims.Sublist x.claims

/-- A point that keeps its claims keeps their position. -/
theorem claimPos_kept {x y : PointRec} (hc : y.claims = x.claims) (hp : y.claimPos = x.claimPos)
    (h : x.claims = [] ↔ x.claimPos = none) : y.claimPos = if y.claims = [] then none else x.claimPos := by
  rw [hc, hp]
  split
  · next e => exact h.1 e
  · rfl

theorem Names.drops {A : Nat → Prop} (h : Names A s) (e : Elementwise s t f g k) (d : Drops f g k) : Names A t := by
  have h1 := h.mapSections (f := f) fun x r hh => .inl (d.holder x r hh)
  have h2 := h1.mapPoints (f := g) (fun x r p hh => by
    rcases d.hold x with e | e <;> rw [e] at hh
    · exact .inl hh
    · exact hh.elim (fun e => by cases e) (fun e => by cases e)) (fun x c hc => .inl ((d.pointClaims x).subset hc))
  exact (h2.mapSignals (f := k) (fun x r hh => .inl (d.entry x r hh)) (fun x c hc => .inl ((d.signalClaims x).subset hc))).of_eq
    e.sections e.points e.signals

theorem HolderLaw.drops (h : HolderLaw s) (e : Elementwise s t f g k) (d : Drops f g k)
    (hr : t.routes.map (·.id) = s.routes.map (·.id)) : HolderLaw t := by
  refine holderLaw_iff.2 (((holderLaw_iff.1 h).drops e d).mono fun r ⟨a, ha, e⟩ => ?_)
  have hm : r ∈ t.routes.map (·.id) := hr ▸ (List.mem_map.2 ⟨a, ha, e⟩)
  exact List.mem_map.1 hm

/-- The STANDING entries of `t` are STANDING in `s`, on the same elements. -/
def FlanksFrom (s t : State) : Prop := ∀ b ∈ t.routes, ∀ x ∈ b.flanks, x.standing = true →
  ∃ a ∈ s.routes, ∃ y ∈ a.flanks, y.standing = true ∧ y.opt = x.opt

theorem FlanksFrom.of_locks (h : (t.routes.map ActiveRoute.locks).Sublist (s.routes.map ActiveRoute.locks)) : FlanksFrom s t := by
  intro b hb x hx hs
  obtain ⟨a, ha, e⟩ := List.mem_map.1 (h.subset (List.mem_map_of_mem hb))
  obtain ⟨y, hy, h1, -, h3⟩ := (Evolves.keep (s := s) (f := id) (g := id) (k := id) (a := a) (b := b) e.symm
    ⟨fun _ _ _ => rfl, fun _ _ _ _ => rfl, fun _ _ => id, fun _ _ => id⟩).flanks x hx hs
  exact ⟨a, ha, y, hy, h1, h3⟩

/-- Claims are dropped, and with the last one the position (R75, R78). -/
theorem ClaimLaw.drops (h : ClaimLaw s) (hl : LockLaw t) (e : Elementwise s t f g k) (d : Drops f g k) (hf : FlanksFrom s t) :
    ClaimLaw t where
  points id y hy := by
    rw [e.point?] at hy
    obtain ⟨x, hx, rfl⟩ := Option.map_eq_some_iff.1 hy
    obtain ⟨h1, h2, h3⟩ := h.points id x hx
    refine ⟨(d.pointClaims x).length_le.trans h1, h2.sublist (d.pointClaims x), ?_⟩
    rw [d.claimPos x h3]
    split
    · next hc => exact ⟨fun _ => rfl, fun _ => hc⟩
    · next hc =>
      refine ⟨fun e => absurd e hc, fun e => absurd ?_ hc⟩
      have := h3.2 e
      exact List.sublist_nil.1 (this ▸ d.pointClaims x)
  holds id y r p hy hh hc := by
    rw [e.point?] at hy
    obtain ⟨x, hx, rfl⟩ := Option.map_eq_some_iff.1 hy
    rcases d.hold x with eh | eh <;> rw [eh] at hh
    · rw [d.claimPos x (h.points id x hx).2.2, if_neg hc]
      exact h.holds id x r p hx hh fun e => hc (List.sublist_nil.1 (e ▸ d.pointClaims x))
    · exact hh.elim (fun e => by cases e) (fun e => by cases e)
  shared b hb z hz hs id p y ho hy := by
    obtain ⟨y', hy', hc⟩ := ((lockLaw_iff.1 hl).2.2.2 b hb).claims z hz hs |>.1 id p ho
    obtain rfl := Option.some.inj (hy.symm.trans hy')
    rw [e.point?] at hy
    obtain ⟨x, hx, rfl⟩ := Option.map_eq_some_iff.1 hy
    obtain ⟨a, ha, w, hw, hws, hwo⟩ := hf b hb z hz hs
    rw [d.claimPos x (h.points id x hx).2.2, if_neg (List.ne_nil_of_mem hc)]
    exact h.shared a ha w hw hws id p x (hwo.trans ho) hx
  signals id y hy := by
    rw [e.signal?] at hy
    obtain ⟨x, hx, rfl⟩ := Option.map_eq_some_iff.1 hy
    obtain ⟨h1, h2⟩ := h.signals id x hx
    exact ⟨(d.signalClaims x).length_le.trans h1, h2.sublist (d.signalClaims x)⟩

end DroppedClaims

/-! ## The three laws together -/

/-- Holders and claims name active routes, the locks of these stand, and the claim sets are lawful (R57, R75 to R78). -/
structure HeldLaw (s : State) : Prop where
  holder : HolderLaw s
  lock : LockLaw s
  claim : ClaimLaw s

section ThreeLaws
variable {s t : State} {f : SectionRec → SectionRec} {g : PointRec → PointRec} {k : SignalRec → SignalRec}

theorem HeldLaw.drops (h : HeldLaw s) (hl : LockLaw s → LockLaw t) (e : Elementwise s t f g k) (d : Drops f g k)
    (hr : t.routes.map (·.id) = s.routes.map (·.id)) (hf : FlanksFrom s t) : HeldLaw t :=
  ⟨h.holder.drops e d hr, hl h.lock, h.claim.drops (hl h.lock) e d hf⟩

theorem Drops.refl : Drops id id id :=
  ⟨fun _ _ => id, fun _ => .inl rfl, fun _ _ => id, fun _ => .refl _, fun _ h => claimPos_kept rfl rfl h, fun _ => .refl _⟩

theorem ids_of_locks (h : t.routes.map ActiveRoute.locks = s.routes.map ActiveRoute.locks) :
    t.routes.map (·.id) = s.routes.map (·.id) := by
  have := congrArg (List.map (fun p => p.1)) h
  rwa [List.map_map, List.map_map] at this

theorem HeldLaw.of_locks (h : HeldLaw s) (hl : LockLaw s → LockLaw t) (e : Elementwise s t f g k) (d : Drops f g k)
    (hr : t.routes.map ActiveRoute.locks = s.routes.map ActiveRoute.locks) : HeldLaw t :=
  h.drops hl e d (ids_of_locks hr) (.of_locks (hr ▸ .refl _))

/-- The rest of the state changes, and of the routes what no lock reads. -/
theorem HeldLaw.of_eq (h : HeldLaw s) (hl : LockLaw s → LockLaw t) (hst : t.store = s.store) (hx : t.sections = s.sections)
    (hp : t.points = s.points) (hg : t.signals = s.signals)
    (hr : t.routes.map ActiveRoute.locks = s.routes.map ActiveRoute.locks) : HeldLaw t :=
  h.of_locks hl (.refl hst hx hp hg) .refl hr

/-- Signals change in what neither a holder nor a claim reads. -/
theorem HeldLaw.mapSignals (h : HeldLaw s) (hl : LockLaw s → LockLaw t) (hst : t.store = s.store) (hx : t.sections = s.sections)
    (hp : t.points = s.points) (hg : t.signals = s.signals.map k)
    (hk : ∀ x, (k x).id = x.id ∧ ((k x).entryOf = x.entryOf ∨ (k x).entryOf = none) ∧ (k x).claims = x.claims)
    (hr : t.routes.map ActiveRoute.locks = s.routes.map ActiveRoute.locks) : HeldLaw t :=
  h.of_locks hl (f := id) (g := id) ⟨hst, by rw [hx, List.map_id], by rw [hp, List.map_id], hg, fun _ => rfl, fun _ => rfl,
      fun _ => rfl, fun x => (hk x).1⟩
    ⟨fun _ _ => id, fun _ => .inl rfl, fun x r e => (hk x).2.1.elim (fun h => h ▸ e) (fun h => by rw [h] at e; cases e),
      fun _ => .refl _, fun _ h => claimPos_kept rfl rfl h, fun x => by rw [(hk x).2.2]⟩ hr

end ThreeLaws

/-! ## The claims of a route that is taken (R49, R75 to R77) -/

section TakenClaims
variable {s : State} {d : RouteDef} {v : Option Nat} {flanks : List FlankRec} {opts : List Nat}

/-- The claims of the chosen options on an element that has room for each of them have room together (R75). -/
theorem chosen_room {q : FlankOpt → Bool} {id n : Nat} (hq : ∀ o, q o = true → o.element = id) (hn : n ≤ 8)
    (hb : ∀ (i : Nat) (x : FlankRec), flanks[i]? = some x → q x.opt = true →
      n + ((flanks.take i).filter (fun y => y.opt.element == id)).length < 8) :
    n + (flanks.filter (fun y => q y.opt)).length ≤ 8 := by
  suffices h : ∀ i, n + ((flanks.take i).filter (fun y => q y.opt)).length ≤ 8 by
    have := h flanks.length
    rwa [List.take_length] at this
  intro i
  induction i with
  | zero => simpa using hn
  | succ i ih =>
    rw [List.take_add_one]
    cases hx : flanks[i]? with
    | none => simpa using ih
    | some x =>
      rw [Option.toList_some, List.filter_append]
      by_cases hqx : q x.opt = true
      · have hle : ((flanks.take i).filter (fun y => q y.opt)).length
            ≤ ((flanks.take i).filter (fun y => y.opt.element == id)).length :=
          (List.monotone_filter_right _ (fun y hy => by simpa using hq y.opt hy)).length_le
        have hlt := hb i x hx hqx
        rw [List.filter_cons_of_pos (by exact hqx), List.filter_nil, List.length_append, List.length_singleton]
        omega
      · rw [List.filter_cons_of_neg (by exact hqx), List.filter_nil, List.append_nil]
        exact ih

/-- New claims of a fresh route make no claim twice: they have distinct indexes, and the others are of other routes (R75). -/
theorem claims_nodup {cs : List Claim} {r : Nat} (hcs : cs.Nodup) (hr : ∀ c ∈ cs, c.route ≠ r)
    (hi : (flanks.map (·.index)).Nodup) (o : FlankOpt → Bool) : (cs ++ claimsFor r flanks o).Nodup := by
  refine List.nodup_append.2 ⟨hcs, ?_, fun c hc c' hc' e => ?_⟩
  · have h1 : ((flanks.filter (fun g => o g.opt)).map (·.index)).Nodup := hi.sublist (List.filter_sublist.map _)
    have h2 : claimsFor r flanks o = ((flanks.filter (fun g => o g.opt)).map (·.index)).map (fun i => ⟨r, i⟩) := by
      rw [List.map_map]; rfl
    rw [h2]
    exact h1.map (fun _ _ e => (Claim.mk.inj e).2)
  · obtain ⟨g, -, -, rfl⟩ := mem_claimsFor.1 hc'
    exact hr c hc (e ▸ rfl)

/-- The claims that the chosen options add to a point. -/
def pointClaims (id : Nat) : FlankOpt → Bool :=
  fun o => o == .point id .normal || o == .point id .reverse

theorem pointClaims_iff {id : Nat} {o : FlankOpt} : pointClaims id o = true ↔ ∃ p, o = .point id p := by
  unfold pointClaims
  rw [Bool.or_eq_true, beq_iff_eq, beq_iff_eq]
  constructor
  · rintro (e | e)
    · exact ⟨_, e⟩
    · exact ⟨_, e⟩
  · rintro ⟨p, rfl⟩
    cases p
    · exact .inl rfl
    · exact .inr rfl

theorem claimPosFor_some {id : Nat} {p : Pos} (h : claimPosFor flanks id = some p) : ∃ x ∈ flanks, x.opt = .point id p := by
  obtain ⟨x, hx, e⟩ := List.mem_filterMap.1 (List.mem_of_getLast? h)
  refine ⟨x, hx, ?_⟩
  cases ho : x.opt with
  | signal k => rw [ho] at e; cases e
  | point k q =>
    rw [ho] at e
    dsimp only at e
    split at e
    · next hk => rw [hk, Option.some.inj e]
    · cases e

theorem claimPosFor_none {id : Nat} (h : claimPosFor flanks id = none) {x : FlankRec} (hx : x ∈ flanks) (p : Pos) :
    x.opt ≠ .point id p := by
  intro ho
  have hn := List.filterMap_eq_nil_iff.1 (List.getLast?_eq_none_iff.1 h) x hx
  rw [ho] at hn
  simp at hn

theorem claimsFor_nil_iff {id : Nat} {r : Nat} : claimsFor r flanks (pointClaims id) = [] ↔ claimPosFor flanks id = none := by
  constructor
  · intro h
    cases hp : claimPosFor flanks id with
    | none => rfl
    | some p =>
      obtain ⟨x, hx, ho⟩ := claimPosFor_some hp
      have : (⟨r, x.index⟩ : Claim) ∈ claimsFor r flanks (pointClaims id) :=
        mem_claimsFor.2 ⟨x, hx, pointClaims_iff.2 ⟨p, ho⟩, rfl⟩
      rw [h] at this; cases this
  · intro h
    refine List.eq_nil_iff_forall_not_mem.2 fun c hc => ?_
    obtain ⟨x, hx, ho, -⟩ := mem_claimsFor.1 hc
    obtain ⟨p, ho⟩ := pointClaims_iff.1 ho
    exact claimPosFor_none h hx p ho

section TakenPoints
variable (h : Takeable s d v flanks opts)
include h

/-- A point that is chosen is obtainable in the chosen position (R49, R76). -/
theorem Takeable.chosen_point {i : Nat} {f : FlankRec} (hf : flanks[i]? = some f) {x : PointRec} {p : Pos}
    (ho : f.opt = .point x.id p) (hx : s.point? x.id = some x) :
    (match (allPoints d v).find? (fun q => q.point == x.id) with
      | some q => q.pos = p
      | none => x.hold = .none)
    ∧ (x.claims = [] ∨ x.claimPos = some p) ∧ (∀ y ∈ flanks.take i, y.opt.element = x.id → y.opt = .point x.id p)
    ∧ x.claims.length + ((flanks.take i).filter (fun y => y.opt.element == x.id)).length < 8 := by
  have hob := (chosen_obtainable h.chosen hf).1
  rw [ho, obtainable_point_iff] at hob
  obtain ⟨y, hy, h1, h2, h3, h4, -⟩ := hob
  obtain rfl := Option.some.inj (hx.symm.trans hy)
  exact ⟨h1, h2, h3, h4⟩

/-- All chosen options on one point ask for one position (R76). -/
theorem Takeable.one_position {x : PointRec} (hx : s.point? x.id = some x) {f g : FlankRec} {p q : Pos} (hf : f ∈ flanks)
    (hg : g ∈ flanks) (hfo : f.opt = .point x.id p) (hgo : g.opt = .point x.id q) : p = q := by
  have before : ∀ {i j : Nat} {f g : FlankRec} {p q : Pos}, flanks[i]? = some f → flanks[j]? = some g → i < j →
      f.opt = .point x.id p → g.opt = .point x.id q → p = q := by
    intro i j f g p q hi hj hij hfo hgo
    have hm : f ∈ flanks.take j := List.mem_of_getElem? (i := i) (by rw [List.getElem?_take, if_pos hij]; exact hi)
    have := (h.chosen_point hj hgo hx).2.2.1 f hm (by rw [hfo]; rfl)
    rw [hfo] at this
    exact (FlankOpt.point.inj this).2
  obtain ⟨i, hi⟩ := List.getElem?_of_mem hf
  obtain ⟨j, hj⟩ := List.getElem?_of_mem hg
  rcases Nat.lt_trichotomy i j with hij | rfl | hij
  · exact before hi hj hij hfo hgo
  · obtain rfl := Option.some.inj (hi.symm.trans hj)
    rw [hfo] at hgo
    exact (FlankOpt.point.inj hgo).2
  · exact (before hj hi hij hgo hfo).symm

/-- The claims of the list at the take are of other routes. -/
theorem Takeable.claims_other (hh : HolderLaw s) : (∀ id x, s.point? id = some x → ∀ c ∈ x.claims, c.route ≠ d.id)
    ∧ ∀ id x, s.signal? id = some x → ∀ c ∈ x.claims, c.route ≠ d.id := by
  have hfresh : ∀ a ∈ s.routes, a.id ≠ d.id := fun a ha => by simpa using List.find?_eq_none.1 h.fresh a ha
  constructor
  · intro id x hx c hc e
    obtain ⟨a, ha, hac⟩ := hh.pointClaims x (List.mem_of_find?_eq_some hx) c hc
    exact hfresh a ha (hac.trans e)
  · intro id x hx c hc e
    obtain ⟨a, ha, hac⟩ := hh.signalClaims x (List.mem_of_find?_eq_some hx) c hc
    exact hfresh a ha (hac.trans e)

/-- A point of the route has the position that the route requires, also of its claims (R76). -/
theorem Takeable.point_position {x : PointRec} (hx : s.point? x.id = some x) {q : PointReq}
    (hq : (allPoints d v).find? (fun q => q.point == x.id) = some q) {c : List Claim}
    (hc : x.claims ++ claimsFor d.id flanks (pointClaims x.id) = c) (hne : c ≠ []) :
    (claimPosFor flanks x.id).or x.claimPos = some q.pos := by
  subst hc
  cases hp : claimPosFor flanks x.id with
  | some p =>
    obtain ⟨f, hf, ho⟩ := claimPosFor_some hp
    obtain ⟨i, hi⟩ := List.getElem?_of_mem hf
    have := (h.chosen_point hi ho hx).1
    rw [hq] at this
    exact congrArg some this.symm
  | none =>
    rw [claimsFor_nil_iff.2 hp, List.append_nil] at hne
    have hm := List.mem_of_find?_eq_some hq
    have hqx : q.point = x.id := by have := List.find?_some hq; simpa using this
    obtain ⟨y, hy, -, hcl, -⟩ := h.checks.2.2.1 q hm
    rw [hqx] at hy
    obtain rfl := Option.some.inj (hx.symm.trans hy)
    exact hcl.resolve_left hne

theorem Takeable.claimLaw (hl : HeldLaw s) : ClaimLaw (s.taken d v flanks opts) := by
  have e := taken_elementwise s d v flanks opts
  have ha : d.Apart := hl.lock.store d (List.mem_of_find?_eq_some h.found)
  have hidx : (flanks.map (·.index)).Nodup := by rw [chosen_index h.chosen]; exact ha.flanks
  obtain ⟨hop, hos⟩ := h.claims_other hl.holder
  have hfind : ∀ x : PointRec, (allPoints d v).find? (fun q => q.point == x.id)
      = (d.points.find? (fun q => q.point == x.id)).or ((overlapPoints d v).find? (fun q => q.point == x.id)) :=
    fun x => List.find?_append ..
  have hpos : ∀ x : PointRec, (x.taken d v flanks).claimPos = (claimPosFor flanks x.id).or x.claimPos := fun _ => rfl
  have hcl : ∀ x : PointRec, (x.taken d v flanks).claims = x.claims ++ claimsFor d.id flanks (pointClaims x.id) := fun _ => rfl
  have look : ∀ {id : Nat} {y : PointRec}, (s.taken d v flanks opts).point? id = some y →
      ∃ x, s.point? id = some x ∧ x.id = id ∧ s.point? x.id = some x ∧ y = x.taken d v flanks := by
    intro id y hy
    rw [e.point?] at hy
    obtain ⟨x, hx, rfl⟩ := Option.map_eq_some_iff.1 hy
    exact ⟨x, hx, point?_id hx, by rw [point?_id hx]; exact hx, rfl⟩
  refine ⟨fun id y hy => ?_, fun id y r p hy hh hne => ?_, fun b hb z hz hs id p y ho hy => ?_, fun id y hy => ?_⟩
  · obtain ⟨x, hx, -, hx', rfl⟩ := look hy
    obtain ⟨h1, h2, h3⟩ := hl.claim.points id x hx
    rw [hcl, hpos]
    refine ⟨?_, claims_nodup h2 (hop id x hx) hidx _, ?_⟩
    · rw [List.length_append]
      have := chosen_room (flanks := flanks) (q := pointClaims x.id) (id := x.id) (n := x.claims.length)
        (fun o ho => by obtain ⟨p, rfl⟩ := pointClaims_iff.1 ho; rfl) h1 (fun i f hf ho => by
          obtain ⟨p, ho⟩ := pointClaims_iff.1 ho
          exact (h.chosen_point hf ho hx').2.2.2)
      unfold claimsFor
      rw [List.length_map]; exact this
    · rw [List.append_eq_nil_iff, Option.or_eq_none_iff, claimsFor_nil_iff, h3, and_comm]
  · obtain ⟨x, hx, -, hx', rfl⟩ := look hy
    rw [hpos]
    cases hq : (allPoints d v).find? (fun q => q.point == x.id) with
    | some q =>
      rw [h.point_position hx' hq (hcl x).symm hne]
      rw [hfind] at hq
      have hh' : (x.taken d v flanks).hold = .route d.id q.pos ∨ (x.taken d v flanks).hold = .overlap d.id q.pos := by
        unfold PointRec.taken
        cases h1 : d.points.find? (fun q => q.point == x.id) with
        | some q' =>
          rw [h1, Option.some_or] at hq
          obtain rfl := Option.some.inj hq
          exact .inl rfl
        | none =>
          rw [h1, Option.none_or] at hq
          rw [hq]
          exact .inr rfl
      rcases hh' with e1 | e1 <;> rw [e1] at hh <;> rcases hh with e2 | e2 <;> cases e2 <;> rfl
    | none =>
      have hold : (x.taken d v flanks).hold = x.hold := PointRec.taken_other fun q hm he => by
        have := List.find?_eq_none.1 hq q hm
        exact this (by simpa using he)
      rw [hold] at hh
      have hn : claimPosFor flanks x.id = none := by
        cases hp : claimPosFor flanks x.id with
        | none => rfl
        | some p' =>
          obtain ⟨f, hf, ho⟩ := claimPosFor_some hp
          obtain ⟨i, hi⟩ := List.getElem?_of_mem hf
          have := (h.chosen_point hi ho hx').1
          rw [hq] at this
          rw [this] at hh
          exact hh.elim (fun e => by cases e) (fun e => by cases e)
      rw [hn, Option.none_or]
      rw [hcl, claimsFor_nil_iff.2 hn, List.append_nil] at hne
      exact hl.claim.holds id x r p hx hh hne
  · obtain ⟨x, hx, rfl, -, rfl⟩ := look hy
    rw [hpos]
    rcases List.mem_append.1 hb with hb | hb
    · obtain ⟨x', hx', hc⟩ := ((lockLaw_iff.1 hl.lock).2.2.2 b hb).claims z hz hs |>.1 _ p ho
      obtain rfl := Option.some.inj (hx.symm.trans hx')
      have hold := hl.claim.shared b hb z hz hs _ p x ho hx
      cases hp : claimPosFor flanks x.id with
      | none => rw [Option.none_or]; exact hold
      | some p' =>
        obtain ⟨f, hf, hfo⟩ := claimPosFor_some hp
        obtain ⟨i, hi⟩ := List.getElem?_of_mem hf
        have := (h.chosen_point hi hfo hx).2.1.resolve_left (List.ne_nil_of_mem hc)
        rw [Option.some_or]
        exact this.symm.trans hold
    · obtain rfl := List.mem_singleton.1 hb
      have hz' : z ∈ flanks := hz
      cases hp : claimPosFor flanks x.id with
      | none => exact absurd ho (claimPosFor_none hp hz' p)
      | some p' =>
        obtain ⟨f, hf, hfo⟩ := claimPosFor_some hp
        rw [h.one_position hx hf hz' hfo ho] <;> rfl
  · rw [e.signal?] at hy
    obtain ⟨x, hx, rfl⟩ := Option.map_eq_some_iff.1 hy
    have hxid := signal?_id hx
    obtain ⟨h1, h2⟩ := hl.claim.signals id x hx
    refine ⟨?_, claims_nodup h2 (hos id x hx) hidx _⟩
    show (x.claims ++ claimsFor d.id flanks (fun o => o == .signal x.id)).length ≤ 8
    rw [List.length_append]
    have := chosen_room (flanks := flanks) (q := fun o => o == .signal x.id) (id := x.id) (n := x.claims.length)
      (fun o ho => by rw [beq_iff_eq.1 ho]; rfl) h1 (fun i f hf ho => by
        have hob := (chosen_obtainable h.chosen hf).1
        rw [beq_iff_eq.1 ho, obtainable_signal_iff, hxid] at hob
        obtain ⟨y, hy, -, -, hlt⟩ := hob
        obtain rfl := Option.some.inj (hx.symm.trans hy)
        rw [hxid]; exact hlt)
    unfold claimsFor
    rw [List.length_map]; exact this

end TakenPoints

end TakenClaims

end Sys2Proof.Machine

/-!
PROOFS. The claim sets are lawful after every command, beside the holders and the locks (R57, R75 to R78), and with the bounds of
the stores and the channel records that is O58.
-/

namespace Sys2Proof.Machine

/-! ## What the drops of a route, a section and an overlap take -/

section WhatDrops
variable {s : State}

theorem without_drops (r : Nat) : Drops (SectionRec.without r) (PointRec.without r) (SignalRec.without r) where
  holder x q e := by
    unfold SectionRec.without at e
    split at e
    · exact e.elim (fun e => by cases e) (fun e => by cases e)
    · exact e
  hold x := by
    rw [PointRec.without_hold]
    cases x.hold with
    | none => exact .inl rfl
    | route q p => dsimp only; split <;> [exact .inr rfl; exact .inl rfl]
    | overlap q p => dsimp only; split <;> [exact .inr rfl; exact .inl rfl]
  entry x q e := by
    unfold SignalRec.without at e
    dsimp only at e
    split at e
    · cases e
    · exact e
  pointClaims _ := List.filter_sublist
  claimPos _ _ := rfl
  signalClaims _ := List.filter_sublist

theorem freed_drops (a : ActiveRoute) (id : Nat) : Drops (SectionRec.freed a id) (PointRec.freed a id) (SignalRec.freed a) where
  holder x q e := by
    unfold SectionRec.freed at e
    split at e
    · exact e.elim (fun e => by cases e) (fun e => by cases e)
    · exact e
  hold x := by
    cases hh : x.hold with
    | none => unfold PointRec.freed; rw [hh]; exact .inl rfl
    | route q p =>
      by_cases h : q = a.id ∧ x.sec = id
      · unfold PointRec.freed; rw [hh]; exact .inr (if_pos h)
      · exact .inl (PointRec.freed_route hh h)
    | overlap q p => exact .inl (PointRec.freed_overlap hh)
  entry _ _ e := e
  pointClaims _ := List.filter_sublist
  claimPos _ _ := rfl
  signalClaims _ := List.filter_sublist

theorem overlapFreed_drops (kept : Bool) (a : ActiveRoute) : Drops (SectionRec.overlapFreed a.id) (PointRec.overlapFreed kept a)
    (SignalRec.dropClaims (overlapClaim kept a)) where
  holder x q e := by
    unfold SectionRec.overlapFreed at e
    split at e
    · exact e.elim (fun e => by cases e) (fun e => by cases e)
    · exact e
  hold x := by
    cases h : overlapHold a.id x.hold with
    | false => exact .inl (PointRec.overlapFreed_hold h)
    | true => unfold PointRec.overlapFreed; rw [if_pos h]; exact .inr rfl
  entry _ _ e := e
  pointClaims x := by rw [PointRec.overlapFreed_claims]; exact List.filter_sublist
  claimPos x _ := by
    have hp : (x.overlapFreed kept a).claimPos
        = if (x.claims.filter (fun c => !overlapClaim kept a c)).isEmpty then none else x.claimPos := by
      unfold PointRec.overlapFreed
      split <;> rfl
    rw [hp, PointRec.overlapFreed_claims]
    exact if_congr List.isEmpty_iff rfl rfl
  signalClaims _ := List.filter_sublist

/-- One record of the route list drops STANDING entries. -/
theorem flanksFrom_of {t : State} (h : ∀ b ∈ t.routes, ∃ a ∈ s.routes, ∀ x ∈ b.flanks, x.standing = true → x ∈ a.flanks) :
    FlanksFrom s t := by
  intro b hb x hx hs
  obtain ⟨a, ha, e⟩ := h b hb
  exact ⟨a, ha, x, e x hx hs, hs, rfl⟩

theorem freed_flanks (s : State) (a : ActiveRoute) (id : Nat) : FlanksFrom s (s.freed a id) :=
  flanksFrom_of fun b hb => by
    obtain ⟨c, hc, rfl⟩ := List.mem_map.1 hb
    refine ⟨c, hc, fun x hx hs => ?_⟩
    split at hx
    · exact (dropGuard_standing hx hs).1
    · exact hx

theorem overlapFreed_flanks (s : State) (a : ActiveRoute) (kept : Bool) : FlanksFrom s (s.overlapFreed kept a) :=
  flanksFrom_of fun b hb => by
    rw [overlapFreed_routes] at hb
    obtain ⟨c, hc, rfl⟩ := List.mem_map.1 hb
    refine ⟨c, hc, fun x hx hs => ?_⟩
    split at hx
    · cases kept
      · exact (dropGuard_standing hx hs).1
      · exact hx
    · exact hx

theorem HeldLaw.withdrawOnly (h : HeldLaw s) (a : ActiveRoute) (c : PermCause) : HeldLaw (withdrawOnly a c s) := by
  obtain ⟨f, hf, -, e⟩ := withdrawOnly_perms a c s
  exact h.mapSignals (k := f) (fun hl => hl.withdrawOnly a c) e.store e.sections e.points e.signals
    (fun x => by rw [hf x]; exact ⟨rfl, .inl rfl, rfl⟩) (by rw [e.routes])

theorem HeldLaw.dropEntryOf (h : HeldLaw s) (r : Nat) : HeldLaw (dropEntryOf r s) :=
  h.mapSignals (fun hl => hl.dropEntryOf r) rfl rfl rfl rfl
    (fun x => by split <;> [exact ⟨rfl, .inr rfl, rfl⟩; exact ⟨rfl, .inl rfl, rfl⟩]) rfl

theorem HeldLaw.mapRoute (h : HeldLaw s) {r : Nat} {f : ActiveRoute → ActiveRoute} (hf : ∀ a, (f a).locks = a.locks) :
    HeldLaw (s.mapRoute r f) :=
  h.of_eq (fun hl => hl.mapRoute hf) rfl rfl rfl rfl (map_locks_eq fun a => by split <;> [exact hf a; rfl])

theorem HeldLaw.dropRoute (h : HeldLaw s) (r : Nat) : HeldLaw (dropRoute r s) := by
  have hl := h.lock.dropRoute r
  refine ⟨holderLaw_unitClosed.dropRoute s r h.holder, hl, ?_⟩
  rw [dropRoute_without] at hl ⊢
  exact h.claim.drops hl (without_elementwise s r) (without_drops r) (.of_locks (List.filter_sublist.map _))

/-- Sections change in no holder of a route. -/
theorem HeldLaw.mapSections (h : HeldLaw s) {t : State} {f : SectionRec → SectionRec} (hl : LockLaw s → LockLaw t)
    (hx : t.sections = s.sections.map f) (hf : ∀ x, (f x).id = x.id)
    (hh : ∀ x r, (f x).holder = .route r ∨ (f x).holder = .overlap r → x.holder = .route r ∨ x.holder = .overlap r)
    (hst : t.store = s.store) (hp : t.points = s.points) (hg : t.signals = s.signals) (hr : t.routes = s.routes) : HeldLaw t :=
  h.of_locks hl (g := id) (k := id) ⟨hst, hx, by rw [hp, List.map_id], by rw [hg, List.map_id], hf, fun _ => rfl, fun _ => rfl,
    fun _ => rfl⟩ { Drops.refl with holder := hh } (by rw [hr])

/-- A section when the slot `ref` gives up its reservation on section `b` (R147, R148). -/
def SectionRec.withoutEntry (ref : SlotRef) (b : Nat) (x : SectionRec) : SectionRec :=
  if x.id = b ∧ x.holder = .entry ref.link ref.idx then { x with holder := .none } else x

theorem SectionRec.withoutEntry_id (ref : SlotRef) (b : Nat) (x : SectionRec) : (x.withoutEntry ref b).id = x.id := by
  unfold SectionRec.withoutEntry; split <;> rfl

theorem dropEntry_sections (ref : SlotRef) (b : Nat) (s : State) :
    (dropEntry ref b s).sections = s.sections.map (SectionRec.withoutEntry ref b) := by
  refine List.map_congr_left fun x _ => ?_
  unfold SectionRec.withoutEntry
  by_cases h : x.id = b
  · rw [if_pos h]
    exact if_congr (by rw [and_iff_right h]) rfl rfl
  · rw [if_neg h, if_neg fun e => h e.1]

/-- Elements without holders and claims, and no routes. -/
theorem claimLaw_free (h1 : ∀ x ∈ s.points, x.hold = .none ∧ x.claims = [] ∧ x.claimPos = none)
    (h2 : ∀ x ∈ s.signals, x.claims = []) (h3 : s.routes = []) : ClaimLaw s where
  points id x hx := by
    obtain ⟨-, hc, hp⟩ := h1 x (List.mem_of_find?_eq_some hx)
    rw [hc, hp]; exact ⟨by decide, List.nodup_nil, fun _ => rfl, fun _ => rfl⟩
  holds id x r p hx _ hc := absurd (h1 x (List.mem_of_find?_eq_some hx)).2.1 hc
  shared a ha := by rw [h3] at ha; cases ha
  signals id x hx := by
    rw [h2 x (List.mem_of_find?_eq_some hx)]; exact ⟨by decide, List.nodup_nil⟩

end WhatDrops

/-! ## Every kind of change -/

theorem heldLaw_changes : Changes HeldLaw (fun _ => False) where
  rest s t e h := h.of_eq (lockLaw_changes.rest s t e) e.store e.sections e.points e.signals (by rw [e.routes]); sections s f hf hn h :=
    h.mapSections (lockLaw_changes.sections s f hf hn) rfl (fun x => (hf x).1)
    (fun x r e => by rwa [(hf x).2] at e) rfl rfl rfl rfl
  points s f hf hn h := h.of_locks (f := id) (g := f) (k := id) (lockLaw_changes.points s f hf hn)
    ⟨rfl, (List.map_id _).symm, rfl, (List.map_id _).symm, fun _ => rfl, fun x => (hf x).1, fun x => (hf x).2.1, fun _ => rfl⟩
    { Drops.refl with
      hold := fun x => .inl (hf x).2.2.1
      pointClaims := fun x => by rw [(hf x).2.2.2.1]
      claimPos := fun x => claimPos_kept (hf x).2.2.2.1 (hf x).2.2.2.2 } rfl
  signals s f hf hn h := h.mapSignals (lockLaw_changes.signals s f hf hn) rfl rfl rfl rfl
    (fun x => ⟨(hf x).1, .inl (hf x).2.1, (hf x).2.2.1⟩) rfl
  routes s f hf h := h.of_eq (lockLaw_changes.routes s f hf) rfl rfl rfl rfl (map_locks_eq fun a => ActiveRoute.locks_of_face (hf a))
  slots s f hf hn h := h.of_eq (lockLaw_changes.slots s f hf hn) rfl rfl rfl rfl rfl
  device s d hd hn h := h.of_eq (lockLaw_changes.device s d hd hn) rfl rfl rfl rfl rfl
  chan s t e hn h := h.of_eq (lockLaw_changes.chan s t e hn) (by rw [e.eq]) (by rw [e.eq]) (by rw [e.eq]) (by rw [e.eq])
    (by rw [e.eq])
  withdraw s a c hp h := h.mapSignals (lockLaw_changes.withdraw s a c hp) rfl rfl rfl rfl
    (fun x => by split <;> exact ⟨rfl, .inl rfl, rfl⟩) (map_locks_eq fun x => by split <;> rfl)
  grant s a h1 h2 h3 h := h.mapSignals (lockLaw_changes.grant s a h1 h2 h3) rfl rfl rfl rfl
    (fun x => by split <;> exact ⟨rfl, .inl rfl, rfl⟩) (map_locks_eq fun x => by split <;> rfl)
  lock _ _ _ _ h := h.mapRoute fun _ => rfl
  leave s a c st _ _ h := (h.withdrawOnly a c).mapRoute fun _ => rfl
  enter s a _ h := ((h.withdrawOnly a .entered).dropEntryOf a.id).mapRoute fun _ => rfl
  passEntry _ a _ _ h := h.dropEntryOf a.id
  drop _ a _ _ h := h.dropRoute a.id
  cancel s a c _ h := (h.withdrawOnly a c).dropRoute a.id
  release s a id ha hid h := h.drops (fun hl => hl.freed ha hid) (freed_elementwise s a id) (freed_drops a id)
    (map_core_eq (core := ActiveRoute.id) (fun x => by split <;> rfl) s.routes) (freed_flanks s a id)
  overlap s a kept ha h := h.drops (fun hl => hl.overlapFreed kept ha) (overlapFreed_elementwise s kept a) (overlapFreed_drops kept a)
    (map_core_eq (core := ActiveRoute.id) (fun x => by split <;> [exact x.overlapFreed_id kept; rfl]) s.routes)
    (overlapFreed_flanks s a kept)
  flags s id hn h := h.of_eq (lockLaw_changes.flags s id hn) rfl rfl rfl rfl (map_locks_eq fun a => by
    unfold ActiveRoute.locks rederiveFlank
    dsimp only
    rw [map_core_eq (core := fun f : FlankRec => (f.index, f.guard, f.opt, f.standing))]
    intro f; split <;> rfl)
  accept s ref x f hx hb hf h := h.mapSections (lockLaw_changes.accept s ref x f hx hb hf) rfl (fun y => by split <;> rfl)
    (fun y r e => by
      split at e
      · exact e.elim (fun e => by cases e) (fun e => by cases e)
      · exact e) rfl rfl rfl rfl
  inbound s ref x f h1 h2 h3 h := h.of_eq (lockLaw_changes.inbound s ref x f h1 h2 h3) rfl rfl rfl rfl rfl
  leaveInbound s ref x b f h1 h2 h3 h := h.mapSections (lockLaw_changes.leaveInbound s ref x b f h1 h2 h3)
    (dropEntry_sections ref b s) (SectionRec.withoutEntry_id ref b) (fun y r e => by
      unfold SectionRec.withoutEntry at e
      split at e
      · exact e.elim (fun e => by cases e) (fun e => by cases e)
      · exact e) rfl rfl rfl rfl
  take s d v flanks opts ht h := by
    have hh := holderLaw_take s d v flanks opts h.holder
    rw [takeRoute_taken] at hh ⊢
    exact ⟨hh, h.lock.taken ht, ht.claimLaw h⟩
  blocks s ch h := by
    refine ⟨holderLaw_stepClosed.blocks s ch h.holder, lockLaw_changes.blocks s ch h.lock, ?_⟩
    cases ch <;> exact claimLaw_free (List.forall_mem_map.2 fun _ _ => ⟨rfl, rfl, rfl⟩) (List.forall_mem_map.2 fun _ _ => rfl) rfl

theorem heldLaw_step {s t : State} (h : HeldLaw s) (e : step s = .next t) : HeldLaw t := by
  refine (Fine.const heldLaw_changes).step (fun s hs => ⟨holderLaw_kept.loading s hs.holder, lockLaw_drst s, ?_⟩)
    (fun s bs hl hv hs => ⟨(holderLaw_kept.fill s (imageBytes bs) hl hs.holder).of_eq rfl rfl rfl rfl, hs.lock.filled hl hv _, ?_⟩) e (fun ⟨_, _, e, _⟩ => e.elim) h
  · exact claimLaw_free (List.forall_mem_nil _) (List.forall_mem_nil _) rfl
  · exact claimLaw_free (List.forall_mem_map.2 fun _ _ => ⟨rfl, rfl, rfl⟩) (List.forall_mem_map.2 fun _ _ => rfl) (hs.lock.loading hl)

/-- Settles O58, the bounds by `StepKept`, the claim sets beside holders and locks and the channel records by the kinds of
change. -/
theorem stepKeepsStoreLaw : Obligations.StepKeepsStoreLaw :=
  ⟨fun _ _ h e => storeLaw_kept.step h e, fun _ _ hh hl hc e => (heldLaw_step ⟨hh, hl, hc⟩ e).claim,
    fun _ _ h e => channelLaw_step h e⟩

end Sys2Proof.Machine

/-!
PROOFS. An entry reservation names a slot over its section that holds it, after every command (R146 to R148). Part of O57.
-/

namespace Sys2Proof.Machine

section Reservations
variable {s t : State}

/-- No section takes a reservation, and a slot that holds one keeps it. -/
theorem ReservationLaw.keep (h : ReservationLaw s) {f : SectionRec → SectionRec} {g : Slot → Slot}
    (hx : t.sections = s.sections.map f) (hs : t.slots = s.slots.map g) (hid : ∀ x, (f x).id = x.id)
    (hf : ∀ x l i, (f x).holder = .entry l i → x.holder = .entry l i)
    (hg : ∀ y, (g y).ref = y.ref ∧ (g y).bsec = y.bsec)
    (hi : ∀ y ∈ s.slots, ∀ x ∈ s.sections, (f x).holder = .entry y.ref.link y.ref.idx → y.bsec = x.id → y.inb.Reserves →
      (g y).inb.Reserves) :
    ReservationLaw t where
  refs := by
    rw [hs, map_core_eq (core := Slot.ref) (fun y => (hg y).1)]; exact h.refs
  entries x' hx' l i e := by
    rw [hx] at hx'
    obtain ⟨x, hxm, rfl⟩ := List.mem_map.1 hx'
    obtain ⟨y, hy, hr, hb, hinb⟩ := h.entries x hxm l i (hf x l i e)
    have hr' : y.ref.link = l ∧ y.ref.idx = i := by rw [hr]; exact ⟨rfl, rfl⟩
    exact ⟨g y, hs ▸ List.mem_map_of_mem hy, (hg y).1.trans hr, ((hg y).2.trans hb).trans (hid x).symm,
      hi y hy x hxm (by rw [hr'.1, hr'.2]; exact e) hb hinb⟩

/-- Only sections change, and none takes a reservation. -/
theorem ReservationLaw.mapSections (h : ReservationLaw s) {f : SectionRec → SectionRec} (hx : t.sections = s.sections.map f)
    (hs : t.slots = s.slots) (hid : ∀ x, (f x).id = x.id) (hf : ∀ x l i, (f x).holder = .entry l i → x.holder = .entry l i) :
    ReservationLaw t :=
  h.keep (g := id) hx (by rw [hs, List.map_id]) hid hf (fun _ => ⟨rfl, rfl⟩) fun _ _ _ _ _ _ e => e

theorem ReservationLaw.of_eq (h : ReservationLaw s) (hx : t.sections = s.sections) (hs : t.slots = s.slots) : ReservationLaw t :=
  h.mapSections (f := id) (by rw [hx, List.map_id]) hs (fun _ => rfl) fun _ _ _ e => e

/-- No section is reserved. -/
theorem reservationLaw_free (hn : (s.slots.map (·.ref)).Nodup) (h : ∀ x ∈ s.sections, x.holder = .none) : ReservationLaw s :=
  ⟨hn, fun x hx l i e => by rw [h x hx] at e; cases e⟩

/-- The slots have distinct names, so a name finds its slot. -/
theorem ReservationLaw.slot_eq (h : ReservationLaw s) {ref : SlotRef} {x y : Slot} (hx : s.slot? ref = some x) (hy : y ∈ s.slots)
    (e : y.ref = ref) : y = x :=
  List.inj_on_of_nodup_map h.refs hy (List.mem_of_find?_eq_some hx) (e.trans (slot?_ref hx).symm)

theorem ReservationLaw.withdrawOnly (h : ReservationLaw s) (a : ActiveRoute) (c : PermCause) :
    ReservationLaw (withdrawOnly a c s) := by
  obtain ⟨f, -, -, e⟩ := withdrawOnly_perms a c s
  exact h.of_eq e.sections e.slots

theorem ReservationLaw.dropRoute (h : ReservationLaw s) (r : Nat) : ReservationLaw (dropRoute r s) := by
  rw [dropRoute_without]
  refine h.mapSections rfl rfl (without_elementwise s r).idOfSection fun x l i e => ?_
  split at e
  · cases e
  · exact e

end Reservations

theorem reservationLaw_changes : Changes ReservationLaw (fun _ => False) where
  rest s t e h := h.of_eq e.sections e.slots; sections s f hf _ h :=
    h.mapSections rfl rfl (fun x => (hf x).1) fun x l i e => by rwa [(hf x).2] at e
  points _ _ _ _ h := h.of_eq rfl rfl
  signals _ _ _ _ h := h.of_eq rfl rfl
  routes _ _ _ h := h.of_eq rfl rfl
  slots s f hf _ h := h.keep (f := id) (g := f) (List.map_id _).symm rfl (fun _ => rfl) (fun _ _ _ e => e)
    (fun y => ⟨(hf y).1, (hf y).2.1⟩) fun y _ _ _ _ _ e => by rwa [(hf y).2.2]
  device _ _ _ _ h := h.of_eq rfl rfl
  chan s t e _ h := h.of_eq (by rw [e.eq]) (by rw [e.eq])
  withdraw _ _ _ _ h := h.of_eq rfl rfl
  grant _ _ _ _ _ h := h.of_eq rfl rfl
  lock _ _ _ _ h := h.of_eq rfl rfl
  leave s a c st _ _ h := (h.withdrawOnly a c).of_eq rfl rfl
  enter s a _ h := (h.withdrawOnly a .entered).of_eq rfl rfl
  passEntry _ _ _ _ h := h.of_eq rfl rfl
  drop _ a _ _ h := h.dropRoute a.id
  cancel s a c _ h := (h.withdrawOnly a c).dropRoute a.id
  release s a id _ _ h := h.mapSections rfl rfl (freed_elementwise s a id).idOfSection fun x l i e => by
    split at e
    · cases e
    · exact e
  overlap s a kept _ h := h.mapSections rfl rfl (overlapFreed_elementwise s kept a).idOfSection fun x l i e => by
    split at e
    · cases e
    · exact e
  flags _ _ _ h := h.of_eq rfl rfl
  accept s ref x f hx _ hf h := by
    refine ⟨?_, fun z hz l i e => ?_⟩
    · show ((s.slots.map _).map _).Nodup
      rw [map_core_eq (core := Slot.ref) (fun y => by split <;> [exact (hf y).1; rfl])]
      exact h.refs
    · obtain ⟨y, hy, rfl⟩ := List.mem_map.1 hz
      split at e
      · next hb =>
        obtain ⟨rfl, rfl⟩ := Holder.entry.inj e
        have hxr : x.ref = ref := slot?_ref hx
        refine ⟨f x, List.mem_map.2 ⟨x, List.mem_of_find?_eq_some hx, if_pos hxr⟩, (hf x).1.trans hxr, ?_, .inl (hf x).2.2.2⟩
        rw [if_pos hb, (hf x).2.1]; exact hb.symm
      · next hb =>
        obtain ⟨w, hw, hr, hwb, hi⟩ := h.entries y hy l i e
        rw [if_neg hb]
        by_cases hwr : w.ref = ref
        · exact ⟨f w, List.mem_map.2 ⟨w, hw, if_pos hwr⟩, (hf w).1.trans hr, (hf w).2.1.trans hwb, .inl (hf w).2.2.2⟩
        · exact ⟨w, List.mem_map.2 ⟨w, hw, if_neg hwr⟩, hr, hwb, hi⟩
  inbound s ref x f hx hf hi h := by
    refine h.keep (f := id) (List.map_id _).symm rfl (fun _ => rfl) (fun _ _ _ e => e)
      (fun y => by split <;> [exact ⟨(hf y).1, (hf y).2.1⟩; exact ⟨rfl, rfl⟩]) fun y hy _ _ _ _ e => ?_
    split
    · next hr => exact hi (h.slot_eq hx hy hr ▸ e) y
    · exact e
  leaveInbound s ref x b f hx hb hf h := by
    refine h.keep (dropEntry_sections ref b s) rfl (SectionRec.withoutEntry_id ref b) (fun y l i e => ?_)
      (fun y => by split <;> [exact ⟨(hf y).1, (hf y).2.1⟩; exact ⟨rfl, rfl⟩]) fun y hy z _ e hyb hi => ?_
    · unfold SectionRec.withoutEntry at e
      split at e
      · cases e
      · exact e
    · split
      · next hr =>
        obtain rfl := h.slot_eq hx hy hr
        have hz : z.id = b := hyb.symm.trans (hb h.refs)
        unfold SectionRec.withoutEntry at e
        split at e
        · cases e
        · next hn => exact absurd ⟨hz, hr ▸ e⟩ hn
      · exact hi
  take s d v flanks opts _ h := by
    rw [takeRoute_taken]
    refine h.mapSections (f := SectionRec.taken d v) rfl rfl (fun _ => rfl) fun x l i e => ?_
    unfold SectionRec.taken at e
    dsimp only at e
    split_ifs at e
    exact e
  blocks s ch h := by
    have hn : ((s.slots.map Slot.fresh).map (·.ref)).Nodup := by
      rw [map_core_eq (core := Slot.ref) (f := Slot.fresh) (fun _ => rfl)]; exact h.refs
    cases ch <;> exact reservationLaw_free hn (List.forall_mem_map.2 fun _ _ => rfl)

theorem reservationLaw_step {s t : State} (h : ReservationLaw s) (e : step s = .next t) : ReservationLaw t := by
  refine (Fine.const reservationLaw_changes).step (fun s _ => reservationLaw_free List.nodup_nil (List.forall_mem_nil _))
    (fun s bs _ hv _ => reservationLaw_free ?_ (List.forall_mem_map.2 fun _ _ => rfl)) e (fun ⟨_, _, e, _⟩ => e.elim) h
  have hs := ((validate_none bs).1 hv).2.2.2.slots.1
  show (((imageOf (imageBytes bs)).slots.map _).map _).Nodup
  rw [List.map_map]; exact hs

end Sys2Proof.Machine

/-!
PROOFS. The permission of a signal names the route in PERMITTED whose entry it is, and the entry-of of a signal the route not yet
entered (R57, R93), under every kind of change. Part of O57.
-/

namespace Sys2Proof.Machine

/-! ## Permission and entry-of by the name of the signal -/

def State.permOf (s : State) (g : Nat) : Option Nat := (s.signal? g).bind (·.perm)

def State.entryOf (s : State) (g : Nat) : Option Nat := (s.signal? g).bind (·.entryOf)

/-- The states of a route before its train has entered. -/
def RouteState.Before (st : RouteState) : Prop := st = .calling ∨ st = .locked ∨ st = .permitted

/-- What the law reads of a route. -/
def ActiveRoute.stands (a : ActiveRoute) : Nat × RouteState := (a.id, a.state)

/-- `AuthorityLaw` without the condition on the device and the channels, which a change can put in doubt (R95, R104). -/
structure AuthBase (s : State) : Prop where
  ids : (s.routes.map (·.id)).Nodup
  loading : s.dev.state = .loading → s.routes = []
  names : ∀ g r, s.permOf g = some r → (r, RouteState.permitted) ∈ s.routes.map ActiveRoute.stands ∧ (s.defOf r).entry = g
  permitted : ∀ r, (r, RouteState.permitted) ∈ s.routes.map ActiveRoute.stands → s.permOf (s.defOf r).entry = some r
  entry : ∀ r st, (r, st) ∈ s.routes.map ActiveRoute.stands → st.Before → s.entryOf (s.defOf r).entry = some r

theorem mem_stands {rs : List ActiveRoute} {r : Nat} {st : RouteState} :
    (r, st) ∈ rs.map ActiveRoute.stands ↔ ∃ a ∈ rs, a.id = r ∧ a.state = st := by
  simp only [List.mem_map, ActiveRoute.stands, Prod.mk.injEq]

theorem permOf_eq_some {s : State} {g r : Nat} : s.permOf g = some r ↔ ∃ x, s.signal? g = some x ∧ x.perm = some r :=
  Option.bind_eq_some_iff

theorem entryOf_eq_some {s : State} {g r : Nat} : s.entryOf g = some r ↔ ∃ x, s.signal? g = some x ∧ x.entryOf = some r :=
  Option.bind_eq_some_iff

theorem authorityLaw_iff {s : State} : AuthorityLaw s ↔ AuthBase s ∧ ∀ a ∈ s.routes, a.state = .permitted →
    s.dev.state = .inService ∧ ∀ ch, s.operating ch = true := by
  simp only [operating_iff]
  constructor
  · intro h
    refine ⟨⟨h.ids, h.loading, fun g r e => ?_, fun r e => ?_, fun r st e hb => ?_⟩, h.service⟩
    · obtain ⟨x, hx, hp⟩ := permOf_eq_some.1 e
      obtain ⟨a, ha, hr, hs, hg⟩ := h.names g x r hx hp
      exact ⟨mem_stands.2 ⟨a, ha, hr, hs⟩, hg⟩
    · obtain ⟨a, ha, rfl, hs⟩ := mem_stands.1 e
      exact permOf_eq_some.2 (h.permitted a ha hs)
    · obtain ⟨a, ha, rfl, rfl⟩ := mem_stands.1 e
      exact entryOf_eq_some.2 (h.entry a ha hb)
  · rintro ⟨h, hs⟩
    refine ⟨h.ids, h.loading, hs, fun g x r hx hp => ?_, fun a ha hp => ?_, fun a ha hb => ?_⟩
    · obtain ⟨hm, hg⟩ := h.names g r (permOf_eq_some.2 ⟨x, hx, hp⟩)
      obtain ⟨a, ha, hr, hst⟩ := mem_stands.1 hm
      exact ⟨a, ha, hr, hst, hg⟩
    · exact permOf_eq_some.1 (h.permitted a.id (mem_stands.2 ⟨a, ha, rfl, hp⟩))
    · exact entryOf_eq_some.1 (h.entry a.id a.state (mem_stands.2 ⟨a, ha, rfl, rfl⟩) hb)

/-! ## Changes of the signals -/

section SignalChanges
variable {s t : State} {k : SignalRec → SignalRec}

theorem signal?_of_map (hg : t.signals = s.signals.map k) (hk : ∀ x, (k x).id = x.id) (g : Nat) :
    t.signal? g = (s.signal? g).map k := by
  unfold State.signal?
  rw [hg]; exact find?_mapAll (key := SignalRec.id) hk g _

theorem permOf_map (hg : t.signals = s.signals.map k) (hk : ∀ x, (k x).id = x.id) (hp : ∀ x, (k x).perm = x.perm) (g : Nat) :
    t.permOf g = s.permOf g := by
  unfold State.permOf
  rw [signal?_of_map hg hk, Option.bind_map]
  exact congrArg _ (funext hp)

theorem entryOf_map (hg : t.signals = s.signals.map k) (hk : ∀ x, (k x).id = x.id) (he : ∀ x, (k x).entryOf = x.entryOf) (g : Nat) :
    t.entryOf g = s.entryOf g := by
  unfold State.entryOf
  rw [signal?_of_map hg hk, Option.bind_map]
  exact congrArg _ (funext he)

/-- Nothing that names `q` is taken from an entry-of. -/
theorem entryOf_other (hg : t.signals = s.signals.map k) (hk : ∀ x, (k x).id = x.id) {q : Nat}
    (he : ∀ x, x.entryOf = some q → (k x).entryOf = some q) {g : Nat} (h : s.entryOf g = some q) : t.entryOf g = some q := by
  obtain ⟨x, hx, e⟩ := entryOf_eq_some.1 h
  exact entryOf_eq_some.2 ⟨k x, by rw [signal?_of_map hg hk, hx]; rfl, he x e⟩

theorem permOf_setPerm (g : Nat) (p : Option Nat) (q : Nat) :
    (setPerm g p s).permOf q = if q = g ∧ (s.signal? g).isSome then p else s.permOf q := by
  unfold State.permOf
  rw [show (setPerm g p s).signal? q = _ from signal?_of_map (s := s) rfl (fun x => by split <;> rfl) q, Option.bind_map]
  by_cases h : q = g
  · subst h
    cases hx : s.signal? q with
    | none => simp
    | some x => simp [signal?_id hx]
  · rw [if_neg fun e => h e.1]
    cases hx : s.signal? q with
    | none => rfl
    | some x =>
      show (if x.id = g then _ else x : SignalRec).perm = x.perm
      rw [if_neg fun e => h ((signal?_id hx).symm.trans e)]

theorem permOf_withdrawOnly (a : ActiveRoute) (c : PermCause) (q : Nat) : (withdrawOnly a c s).permOf q =
    if q = (s.defOf a.id).entry ∧ s.permOf q = some a.id then none else s.permOf q := by
  unfold withdrawOnly
  dsimp only
  cases hx : s.signal? (s.defOf a.id).entry with
  | none =>
    rw [if_neg]
    rintro ⟨rfl, e⟩
    rw [State.permOf, hx] at e; cases e
  | some x =>
    dsimp only
    have hp : s.permOf (s.defOf a.id).entry = x.perm := by rw [State.permOf, hx]; rfl
    by_cases h : x.perm = some a.id
    · rw [if_pos h]
      refine (permOf_setPerm (s := s) _ none q).trans (if_congr ?_ rfl rfl)
      refine and_congr_right fun e => ?_
      rw [hx, e, hp]
      exact ⟨fun _ => h, fun _ => rfl⟩
    · rw [if_neg h, if_neg]
      rintro ⟨rfl, e⟩
      exact h (hp ▸ e)

end SignalChanges

/-! ## Changes that a route does not see -/

section UnseenChanges
variable {s t : State}

theorem defOf_of_store (h : t.store = s.store) (r : Nat) : t.defOf r = s.defOf r := by
  unfold State.defOf State.def?; rw [h]

theorem AuthBase.keep (h : AuthBase s) (hst : t.store = s.store) (hload : t.dev.state = .loading → s.dev.state = .loading)
    (hp : ∀ g, t.permOf g = s.permOf g) (he : ∀ g, t.entryOf g = s.entryOf g)
    (hr : t.routes.map ActiveRoute.stands = s.routes.map ActiveRoute.stands) : AuthBase t where
  ids := by
    have e := congrArg (List.map Prod.fst) hr
    rw [List.map_map, List.map_map] at e
    exact e ▸ h.ids
  loading hl := List.map_eq_nil_iff.1 (hr.trans (by rw [h.loading (hload hl)]; rfl))
  names g r e := by rw [hr, defOf_of_store hst]; exact h.names g r (hp g ▸ e)
  permitted r e := by rw [hp, defOf_of_store hst]; exact h.permitted r (hr ▸ e)
  entry r st e hb := by rw [he, defOf_of_store hst]; exact h.entry r st (hr ▸ e) hb

theorem AuthBase.mapSignals (h : AuthBase s) {k : SignalRec → SignalRec} (hg : t.signals = s.signals.map k)
    (hk : ∀ x, (k x).id = x.id ∧ (k x).entryOf = x.entryOf ∧ (k x).perm = x.perm) (hst : t.store = s.store)
    (hload : t.dev.state = .loading → s.dev.state = .loading)
    (hr : t.routes.map ActiveRoute.stands = s.routes.map ActiveRoute.stands) : AuthBase t :=
  h.keep hst hload (permOf_map hg (fun x => (hk x).1) fun x => (hk x).2.2) (entryOf_map hg (fun x => (hk x).1) fun x => (hk x).2.1) hr

theorem AuthBase.of_eq (h : AuthBase s) (hg : t.signals = s.signals) (hst : t.store = s.store)
    (hload : t.dev.state = .loading → s.dev.state = .loading)
    (hr : t.routes.map ActiveRoute.stands = s.routes.map ActiveRoute.stands) : AuthBase t :=
  h.mapSignals (k := id) (by rw [hg, List.map_id]) (fun _ => ⟨rfl, rfl, rfl⟩) hst hload hr

/-- No route is active and no permission given. -/
theorem authBase_idle (hr : s.routes = []) (hp : ∀ x ∈ s.signals, x.perm = none) : AuthBase s where
  ids := by rw [hr]; exact List.nodup_nil
  loading _ := hr
  names g r e := by
    obtain ⟨x, hx, e⟩ := permOf_eq_some.1 e
    rw [hp x (List.mem_of_find?_eq_some hx)] at e; cases e
  permitted r e := by rw [hr] at e; cases e
  entry r st e := by rw [hr] at e; cases e

/-! ## Changes that take a route out of PERMITTED, or from the list -/

/-- The routes other than `r` stand as they did. -/
def OthersStand (r : Nat) (s t : State) : Prop := ∀ q st, q ≠ r →
  ((q, st) ∈ t.routes.map ActiveRoute.stands ↔ (q, st) ∈ s.routes.map ActiveRoute.stands)

/-- Permission and entry-of of the other routes stay, and route `r` has no permission. -/
theorem AuthBase.letGo (h : AuthBase s) (r : Nat) (hst : t.store = s.store) (hload : t.dev.state = .loading → t.routes = [])
    (hn : (t.routes.map (·.id)).Nodup) (ho : OthersStand r s t)
    (hr : ∀ st, (r, st) ∈ t.routes.map ActiveRoute.stands → st ≠ .permitted ∧ (st.Before → t.entryOf (s.defOf r).entry = some r))
    (hp : ∀ g q, t.permOf g = some q ↔ s.permOf g = some q ∧ q ≠ r)
    (he : ∀ g q, q ≠ r → s.entryOf g = some q → t.entryOf g = some q) : AuthBase t where
  ids := hn
  loading := hload
  names g q e := by
    obtain ⟨e, hq⟩ := (hp g q).1 e
    rw [ho q _ hq, defOf_of_store hst]; exact h.names g q e
  permitted q e := by
    by_cases hq : q = r
    · subst hq; exact absurd rfl (hr _ e).1
    · rw [ho q _ hq] at e
      rw [defOf_of_store hst]
      exact (hp _ q).2 ⟨h.permitted q e, hq⟩
  entry q st e hb := by
    rw [defOf_of_store hst]
    by_cases hq : q = r
    · subst hq; exact (hr _ e).2 hb
    · rw [ho q _ hq] at e
      exact he _ q hq (h.entry q st e hb)

theorem othersStand_mapRoute {r : Nat} {f : ActiveRoute → ActiveRoute} (hf : ∀ a, (f a).id = a.id)
    (hr : t.routes = s.routes.map (fun a => if a.id = r then f a else a)) : OthersStand r s t := by
  intro q st hq
  rw [hr, mem_stands, mem_stands]
  constructor
  · rintro ⟨b, hb, e, hs⟩
    obtain ⟨a, ha, rfl⟩ := List.mem_map.1 hb
    have hid : a.id ≠ r := fun e' => hq (by rw [← e, if_pos e', hf a, e'])
    rw [if_neg hid] at e hs
    exact ⟨a, ha, e, hs⟩
  · rintro ⟨a, ha, rfl, hs⟩
    exact ⟨a, List.mem_map.2 ⟨a, ha, if_neg hq⟩, rfl, hs⟩

/-- The list keeps its ids when one record changes. -/
theorem nodup_mapRoute (h : AuthBase s) {r : Nat} {f : ActiveRoute → ActiveRoute} (hf : ∀ a, (f a).id = a.id)
    (hr : t.routes = s.routes.map (fun a => if a.id = r then f a else a)) : (t.routes.map (·.id)).Nodup := by
  rw [hr, map_core_eq (core := ActiveRoute.id) (fun a => by split <;> [exact hf a; rfl])]; exact h.ids

theorem stands_mapRoute {r : Nat} {f : ActiveRoute → ActiveRoute}
    (hr : t.routes = s.routes.map (fun a => if a.id = r then f a else a)) {st : RouteState}
    (h : (r, st) ∈ t.routes.map ActiveRoute.stands) : ∃ a ∈ s.routes, a.id = r ∧ (f a).state = st := by
  obtain ⟨b, hb, e, hs⟩ := mem_stands.1 h
  rw [hr] at hb
  obtain ⟨a, ha, rfl⟩ := List.mem_map.1 hb
  have hid : a.id = r := by
    split at e
    · next h => exact h
    · exact e
  rw [if_pos hid] at hs
  exact ⟨a, ha, hid, hs⟩

theorem AuthBase.state_of_route (h : AuthBase s) {a : ActiveRoute} (ha : s.route? a.id = some a) {st : RouteState}
    (e : (a.id, st) ∈ s.routes.map ActiveRoute.stands) : st = a.state := by
  obtain ⟨b, hb, hid, rfl⟩ := mem_stands.1 e
  rw [List.inj_on_of_nodup_map h.ids hb (List.mem_of_find?_eq_some ha) hid]

/-- A route that is not in PERMITTED has no permission. -/
theorem AuthBase.unpermitted (h : AuthBase s) {a : ActiveRoute} (ha : s.route? a.id = some a) (hp : a.state ≠ .permitted)
    (g q : Nat) : s.permOf g = some q ↔ s.permOf g = some q ∧ q ≠ a.id := by
  refine ⟨fun e => ⟨e, ?_⟩, fun e => e.1⟩
  rintro rfl
  exact hp (h.state_of_route ha (h.names g _ e).1).symm

/-- Once the permission of its entry signal is withdrawn a route has none. -/
theorem AuthBase.withdrawn (h : AuthBase s) (a : ActiveRoute) (c : PermCause) (g q : Nat) :
    (withdrawOnly a c s).permOf g = some q ↔ s.permOf g = some q ∧ q ≠ a.id := by
  rw [permOf_withdrawOnly]
  by_cases hq : q = a.id
  · subst hq
    refine iff_of_false (fun e => ?_) (fun e => e.2 rfl)
    split at e
    · cases e
    · next hn => exact hn ⟨(h.names g _ e).2.symm, e⟩
  · by_cases hg : g = (s.defOf a.id).entry ∧ s.permOf g = some a.id
    · rw [if_pos hg, hg.2]
      exact iff_of_false (fun e => by cases e) (fun e => hq (Option.some.inj e.1).symm)
    · rw [if_neg hg]
      exact (and_iff_left hq).symm

end UnseenChanges

end Sys2Proof.Machine

/-!
PROOFS. Every kind of change keeps permission and entry-of with the routes (R57, R93, R95 to R97). Part of O57.
-/

namespace Sys2Proof.Machine

section PermissionChanges
variable {s t : State}

/-- One record changes into a state that has no permission, its permission gone before. -/
theorem AuthBase.mapRoute (h : AuthBase s) {r : Nat} {f : ActiveRoute → ActiveRoute} (hf : ∀ a, (f a).id = a.id)
    (hr : t.routes = s.routes.map (fun a => if a.id = r then f a else a)) (hst : t.store = s.store)
    (hload : t.dev.state = .loading → s.dev.state = .loading)
    (hs : ∀ a ∈ s.routes, a.id = r → (f a).state ≠ .permitted
      ∧ ((f a).state.Before → t.entryOf (s.defOf r).entry = some r))
    (hp : ∀ g q, t.permOf g = some q ↔ s.permOf g = some q ∧ q ≠ r)
    (he : ∀ g q, q ≠ r → s.entryOf g = some q → t.entryOf g = some q) : AuthBase t :=
  h.letGo r hst (fun hl => by rw [hr, h.loading (hload hl)]; rfl) (nodup_mapRoute h hf hr) (othersStand_mapRoute hf hr)
    (fun st e => by obtain ⟨a, ha, hid, rfl⟩ := stands_mapRoute hr e; exact hs a ha hid) hp he

/-- A route leaves the list, its permission gone before. -/
theorem AuthBase.without (h : AuthBase s) (r : Nat) (hr : t.routes = s.routes.filter (fun a => a.id != r)) (hst : t.store = s.store)
    (hload : t.dev.state = .loading → s.dev.state = .loading)
    (hp : ∀ g q, t.permOf g = some q ↔ s.permOf g = some q ∧ q ≠ r)
    (he : ∀ g q, q ≠ r → s.entryOf g = some q → t.entryOf g = some q) : AuthBase t := by
  have hm : ∀ q st, (q, st) ∈ t.routes.map ActiveRoute.stands ↔ (q, st) ∈ s.routes.map ActiveRoute.stands ∧ q ≠ r := by
    intro q st
    rw [hr, mem_stands, mem_stands]
    constructor
    · rintro ⟨a, ha, rfl, hs⟩
      obtain ⟨ha, hn⟩ := List.mem_filter.1 ha
      exact ⟨⟨a, ha, rfl, hs⟩, by simpa using hn⟩
    · rintro ⟨⟨a, ha, rfl, hs⟩, hn⟩
      exact ⟨a, List.mem_filter.2 ⟨ha, by simpa using hn⟩, rfl, hs⟩
  exact h.letGo r hst (fun hl => by rw [hr, h.loading (hload hl)]; rfl) (hr ▸ h.ids.sublist (List.filter_sublist.map _))
    (fun q st hq => by rw [hm, and_iff_left hq]) (fun st e => absurd rfl ((hm _ _).1 e).2) hp he

theorem entryOf_dropRoute {r q : Nat} (hq : q ≠ r) {g : Nat} (h : s.entryOf g = some q) : (dropRoute r s).entryOf g = some q := by
  rw [dropRoute_without]
  refine entryOf_other (s := s) (k := SignalRec.without r) rfl (fun _ => rfl) (fun x e => ?_) h
  show (if x.entryOf = some r then none else x.entryOf) = _
  rw [if_neg (by rw [e]; simpa using hq)]; exact e

theorem permOf_dropRoute (r g : Nat) : (dropRoute r s).permOf g = s.permOf g := by
  rw [dropRoute_without]
  exact permOf_map (s := s) (k := SignalRec.without r) rfl (fun _ => rfl) (fun _ => rfl) g

theorem entryOf_dropEntryOf {r q : Nat} (hq : q ≠ r) {g : Nat} (h : s.entryOf g = some q) :
    (dropEntryOf r s).entryOf g = some q := by
  refine entryOf_other (s := s) rfl (fun x => by split <;> rfl) (fun x e => ?_) h
  show (if _ then _ else x : SignalRec).entryOf = _
  rw [if_neg (by rw [e]; simpa using hq)]; exact e

theorem permOf_dropEntryOf (r g : Nat) : (dropEntryOf r s).permOf g = s.permOf g :=
  permOf_map (s := s) rfl (fun x => by split <;> rfl) (fun x => by split <;> rfl) g

theorem withdrawOnly_routes (s : State) (a : ActiveRoute) (c : PermCause) : (withdrawOnly a c s).routes = s.routes := by
  obtain ⟨_, -, -, e⟩ := withdrawOnly_perms a c s; exact e.routes

theorem withdrawOnly_store (s : State) (a : ActiveRoute) (c : PermCause) : (withdrawOnly a c s).store = s.store := by
  obtain ⟨_, -, -, e⟩ := withdrawOnly_perms a c s; exact e.store

theorem withdrawOnly_dev (s : State) (a : ActiveRoute) (c : PermCause) : (withdrawOnly a c s).dev.state = s.dev.state := by
  obtain ⟨_, -, -, e⟩ := withdrawOnly_perms a c s; exact e.dev

theorem ActiveRoute.stands_of_face {a b : ActiveRoute} (h : b.face = a.face) : b.stands = a.stands := by
  unfold ActiveRoute.stands
  rw [show b.id = a.id from congrArg (·.1) h, show b.state = a.state from congrArg (·.2.2.1) h]

theorem entryOf_withdrawOnly (a : ActiveRoute) (c : PermCause) (g : Nat) : (withdrawOnly a c s).entryOf g = s.entryOf g := by
  obtain ⟨f, hf, -, e⟩ := withdrawOnly_perms a c s
  exact entryOf_map (s := s) (t := withdrawOnly a c s) e.signals (fun x => by rw [hf x]) (fun x => by rw [hf x]) g

theorem AuthBase.withdraw (h : AuthBase s) {a : ActiveRoute} (c : PermCause)
    (hp : ∃ b, s.route? a.id = some b ∧ b.state = .permitted) : AuthBase (withdraw a c s) := by
  obtain ⟨b, hb, hp⟩ := hp
  have hm : (a.id, RouteState.permitted) ∈ s.routes.map ActiveRoute.stands :=
    mem_stands.2 ⟨b, List.mem_of_find?_eq_some hb, route?_id hb, hp⟩
  have hperm := h.permitted _ hm
  obtain ⟨x, hx, -⟩ := permOf_eq_some.1 hperm
  refine h.mapRoute (r := a.id) (f := fun x => { x with state := .locked, grantAllowed := false }) (fun _ => rfl)
    (withdraw_routes a c s) rfl (fun e => e) (fun _ _ _ => ⟨by simp, fun _ => ?_⟩) (fun g q => ?_) fun g q _ e => ?_
  · have he : (Machine.withdraw a c s).entryOf (s.defOf a.id).entry = s.entryOf (s.defOf a.id).entry :=
      entryOf_map (s := s) rfl (fun x => by split <;> rfl) (fun x => by split <;> rfl) _
    rw [he]; exact h.entry _ _ hm (.inr (.inr rfl))
  · have hpo : (Machine.withdraw a c s).permOf g = (setPerm (s.defOf a.id).entry none s).permOf g := rfl
    rw [hpo, permOf_setPerm]
    by_cases hg : g = (s.defOf a.id).entry
    · rw [if_pos ⟨hg, by rw [hx]; rfl⟩, hg, hperm]
      exact iff_of_false (fun e => by cases e) (fun e => e.2 (Option.some.inj e.1).symm)
    · rw [if_neg fun e => hg e.1]
      refine ⟨fun e => ⟨e, ?_⟩, fun e => e.1⟩
      rintro rfl
      exact hg (h.names g _ e).2.symm
  · have he : (Machine.withdraw a c s).entryOf g = s.entryOf g :=
      entryOf_map (s := s) rfl (fun x => by split <;> rfl) (fun x => by split <;> rfl) _
    rw [he]; exact e

/-- Two routes not yet entered do not have the same entry signal. -/
theorem AuthBase.entry_apart (h : AuthBase s) {q r : Nat} {st st' : RouteState} (hq : (q, st) ∈ s.routes.map ActiveRoute.stands)
    (hr : (r, st') ∈ s.routes.map ActiveRoute.stands) (hb : st.Before) (hb' : st'.Before)
    (e : (s.defOf q).entry = (s.defOf r).entry) : q = r := by
  have h1 := h.entry q st hq hb
  rw [e, h.entry r st' hr hb'] at h1
  exact (Option.some.inj h1).symm

def ActiveRoute.permit (b : ActiveRoute) : ActiveRoute := { b with state := .permitted, permittedBefore := true }

theorem AuthBase.grant (h : AuthBase s) {a : ActiveRoute} (ha : s.route? a.id = some a) (hl : a.state = .locked) :
    AuthBase (grant a s) := by
  have hm : (a.id, RouteState.locked) ∈ s.routes.map ActiveRoute.stands :=
    mem_stands.2 ⟨a, List.mem_of_find?_eq_some ha, rfl, hl⟩
  have hent := h.entry _ _ hm (.inr (.inl rfl))
  obtain ⟨x, hx, -⟩ := entryOf_eq_some.1 hent
  have hpo : ∀ g, (Machine.grant a s).permOf g = if g = (s.defOf a.id).entry then some a.id else s.permOf g := by
    intro g
    refine (permOf_setPerm (s := s) (s.defOf a.id).entry (some a.id) g).trans (if_congr ?_ rfl rfl)
    rw [hx]; exact and_iff_left rfl
  have hen : ∀ g, (Machine.grant a s).entryOf g = s.entryOf g :=
    entryOf_map (s := s) rfl (fun x => by split <;> rfl) (fun x => by split <;> rfl)
  have hr : (Machine.grant a s).routes = s.routes.map (fun b => if b.id = a.id then b.permit else b) := rfl
  have ho := othersStand_mapRoute (t := Machine.grant a s)
    (f := ActiveRoute.permit) (fun _ => rfl) hr
  have hself : ∀ st, (a.id, st) ∈ (Machine.grant a s).routes.map ActiveRoute.stands ↔ st = .permitted := by
    intro st
    constructor
    · intro e
      obtain ⟨b, -, -, e⟩ := stands_mapRoute hr e
      exact e.symm
    · rintro rfl
      exact mem_stands.2 ⟨_, List.mem_map.2 ⟨a, List.mem_of_find?_eq_some ha, if_pos rfl⟩, rfl, rfl⟩
  refine ⟨nodup_mapRoute h (f := ActiveRoute.permit) (fun _ => rfl) hr, fun hload => ?_, fun g q e => ?_, fun q e => ?_, fun q st e hb => ?_⟩
  · have : s.routes = [] := h.loading hload
    rw [hr, this]; rfl
  · rw [hpo] at e
    split at e
    · next hg =>
      obtain rfl := Option.some.inj e
      exact ⟨(hself _).2 rfl, hg.symm⟩
    · next hg =>
      obtain ⟨hq, hqe⟩ := h.names g q e
      have hne : q ≠ a.id := fun e' => hg (hqe.symm.trans (by rw [e']))
      exact ⟨(ho q _ hne).2 hq, hqe⟩
  · show (Machine.grant a s).permOf (s.defOf q).entry = some q
    rw [hpo]
    by_cases hq : q = a.id
    · rw [hq, if_pos rfl]
    · have e' := (ho q _ hq).1 e
      rw [if_neg fun e'' => hq (h.entry_apart e' hm (.inr (.inr rfl)) (.inr (.inl rfl)) e'')]
      exact h.permitted q e'
  · show (Machine.grant a s).entryOf (s.defOf q).entry = some q
    rw [hen]
    by_cases hq : q = a.id
    · rw [hq]; exact hent
    · exact h.entry q st ((ho q _ hq).1 e) hb

theorem AuthBase.taken (h : AuthBase s) {d : RouteDef} {v : Option Nat} {flanks : List FlankRec} {opts : List Nat}
    (ht : Takeable s d v flanks opts) : AuthBase (s.taken d v flanks opts) := by
  have e := taken_elementwise s d v flanks opts
  have hfresh : ∀ a ∈ s.routes, a.id ≠ d.id := fun a ha => by simpa using List.find?_eq_none.1 ht.fresh a ha
  obtain ⟨x, hx, hfree, -⟩ := (checkSignal_none_iff.1 ht.checks.1).1
  have hpo : ∀ g, (s.taken d v flanks opts).permOf g = s.permOf g :=
    permOf_map (s := s) (k := SignalRec.taken d flanks) rfl (fun _ => rfl) (fun _ => rfl)
  have hen : ∀ {g q}, s.entryOf g = some q → (s.taken d v flanks opts).entryOf g = some q := by
    intro g q hq
    obtain ⟨y, hy, hyq⟩ := entryOf_eq_some.1 hq
    refine entryOf_eq_some.2 ⟨y.taken d flanks, by rw [e.signal?, hy]; rfl, ?_⟩
    show (if y.id = d.entry then some d.id else y.entryOf) = some q
    rw [if_neg]
    · exact hyq
    · intro hid
      rw [← signal?_id hy, hid, hx] at hy
      obtain rfl := Option.some.inj hy
      rw [hfree] at hyq; cases hyq
  have hnew : (s.taken d v flanks opts).entryOf d.entry = some d.id :=
    entryOf_eq_some.2 ⟨x.taken d flanks, by rw [e.signal?, hx]; rfl, if_pos (signal?_id hx)⟩
  have hr : (s.taken d v flanks opts).routes.map ActiveRoute.stands = s.routes.map ActiveRoute.stands ++ [(d.id, .calling)] := by
    show (s.routes ++ [newRecord d v flanks opts (param 11 s)]).map ActiveRoute.stands = _
    rw [List.map_append]; rfl
  refine ⟨?_, fun hl => absurd hl ht.served, fun g q hq => ?_, fun q hq => ?_, fun q st hq hb => ?_⟩
  · show ((s.routes ++ [newRecord d v flanks opts (param 11 s)]).map (·.id)).Nodup
    rw [List.map_append]
    refine List.nodup_append.2 ⟨h.ids, List.nodup_singleton _, fun i hi j hj e => ?_⟩
    obtain ⟨a, ha, rfl⟩ := List.mem_map.1 hi
    exact hfresh a ha (e.trans (List.mem_singleton.1 hj))
  · rw [hpo] at hq
    obtain ⟨h1, h2⟩ := h.names g q hq
    exact ⟨hr ▸ List.mem_append_left _ h1, h2⟩
  · rw [hr] at hq
    rcases List.mem_append.1 hq with hq | hq
    · exact (hpo _).trans (h.permitted q hq)
    · cases (Prod.mk.inj (List.mem_singleton.1 hq)).2
  · rw [hr] at hq
    rcases List.mem_append.1 hq with hq | hq
    · exact hen (h.entry q st hq hb)
    · obtain ⟨rfl, -⟩ := Prod.mk.inj (List.mem_singleton.1 hq)
      rw [show (s.taken d v flanks opts).defOf d.id = d from defOf_eq ht.found]; exact hnew

end PermissionChanges

theorem authBase_changes : Changes AuthBase (fun _ => False) where
  rest s t e h := h.of_eq e.signals e.store (fun hl => e.dev ▸ hl) (by rw [e.routes]); sections _ _ _ _ h :=
    h.of_eq rfl rfl (fun e => e) rfl
  points _ _ _ _ h := h.of_eq rfl rfl (fun e => e) rfl
  signals s f hf _ h := h.mapSignals rfl (fun x => ⟨(hf x).1, (hf x).2.1, (hf x).2.2.2⟩) rfl (fun e => e) rfl
  routes s f hf h := h.of_eq rfl rfl (fun e => e)
    (map_core_eq (core := ActiveRoute.stands) (fun a => ActiveRoute.stands_of_face (hf a)) s.routes)
  slots _ _ _ _ h := h.of_eq rfl rfl (fun e => e) rfl
  device s d hd _ h := h.of_eq rfl rfl hd rfl
  chan s t e _ h := by rw [e.eq]; exact h.of_eq rfl rfl (fun e => e) rfl
  withdraw s a c hp h := h.withdraw c (hp h.ids)
  grant s a ha hl _ h := h.grant ha hl
  lock s a ha hc h := h.mapRoute (r := a.id) (f := fun x => { x with state := .locked, setting := .off }) (fun _ => rfl) rfl rfl
    (fun e => e) (fun b hb e => ⟨by simp, fun _ => h.entry a.id .calling
      (mem_stands.2 ⟨a, List.mem_of_find?_eq_some ha, rfl, hc⟩) (.inl rfl)⟩)
    (h.unpermitted ha (by rw [hc]; decide)) fun _ _ _ e => e
  leave s a c st ha hst h := h.mapRoute (r := a.id) (f := fun x => { x with state := st }) (fun _ => rfl)
    (by rw [← withdrawOnly_routes s a c]; rfl) (withdrawOnly_store s a c)
    (fun e => withdrawOnly_dev s a c ▸ e)
    (fun b hb e => by
      have : ¬ st.Before := by rcases hst with rfl | rfl <;> simp [RouteState.Before]
      exact ⟨fun e => this (.inr (.inr e)), fun hb => absurd hb this⟩)
    (h.withdrawn a c) fun g q _ e => (entryOf_withdrawOnly a c g).trans e
  enter s a ha h := h.mapRoute (r := a.id)
    (f := fun x => { x with state := .entered, release := .off, releaseT := 0, saturated := false }) (fun _ => rfl)
    (by rw [← withdrawOnly_routes s a .entered]; rfl) (withdrawOnly_store s a .entered)
    (fun e => withdrawOnly_dev s a .entered ▸ e)
    (fun b hb e => ⟨by simp, fun hb => by simp [RouteState.Before] at hb⟩)
    (fun g q => by
      rw [← h.withdrawn a .entered]
      exact iff_of_eq (congrArg (· = some q) (permOf_dropEntryOf (s := withdrawOnly a .entered s) a.id g)))
    fun g q hq e => entryOf_dropEntryOf (s := withdrawOnly a .entered s) hq ((entryOf_withdrawOnly a .entered g).trans e)
  passEntry s a ha hs h := h.letGo a.id rfl (fun hl => h.loading hl) h.ids (fun _ _ _ => Iff.rfl)
    (fun st e => by
      obtain rfl := h.state_of_route ha e
      rw [hs]; exact ⟨by decide, fun hb => by simp [RouteState.Before] at hb⟩)
    (fun g q => by rw [permOf_dropEntryOf]; exact h.unpermitted ha (by rw [hs]; decide) g q)
    fun g q hq e => entryOf_dropEntryOf hq e
  drop s a ha hs h := h.without a.id rfl rfl (fun e => e)
    (fun g q => by rw [permOf_dropRoute]; exact h.unpermitted ha hs g q) fun g q hq e => entryOf_dropRoute hq e
  cancel s a c ha h := h.without a.id (by rw [← withdrawOnly_routes s a c]; rfl) (withdrawOnly_store s a c)
    (fun e => withdrawOnly_dev s a c ▸ e)
    (fun g q => by rw [permOf_dropRoute]; exact h.withdrawn a c g q)
    fun g q hq e => entryOf_dropRoute hq ((entryOf_withdrawOnly a c g).trans e)
  release s a id _ _ h := h.mapSignals (k := SignalRec.freed a) rfl (fun _ => ⟨rfl, rfl, rfl⟩) rfl (fun e => e)
    (map_core_eq (core := ActiveRoute.stands) (fun x => by split <;> rfl) s.routes)
  overlap s a kept _ h := h.mapSignals (k := SignalRec.dropClaims (overlapClaim kept a)) rfl (fun _ => ⟨rfl, rfl, rfl⟩) rfl
    (fun e => e) (map_core_eq (core := ActiveRoute.stands) (fun x => by split <;> [(cases kept <;> rfl); rfl]) s.routes)
  flags s id _ h := h.of_eq rfl rfl (fun e => e) (map_core_eq (core := ActiveRoute.stands) (f := rederiveFlank s id)
    (fun _ => rfl) s.routes)
  accept _ _ _ _ _ _ _ h := h.of_eq rfl rfl (fun e => e) rfl
  inbound _ _ _ _ _ _ _ h := h.of_eq rfl rfl (fun e => e) rfl
  leaveInbound _ _ _ _ _ _ _ _ h := h.of_eq rfl rfl (fun e => e) rfl
  take s d v flanks opts ht h := by rw [takeRoute_taken]; exact h.taken ht
  blocks s ch _ := by cases ch <;> exact authBase_idle rfl (List.forall_mem_map.2 fun _ _ => rfl)

end Sys2Proof.Machine

/-!
PROOFS. A change handed to the Permission Unit leaves no route in PERMITTED for which it finds a condition failing (R95, R96).
Part of O57.
-/

namespace Sys2Proof.Machine

/-- What the conditions of R94 read of a route. -/
def ActiveRoute.asked (a : ActiveRoute) : Nat × Option Nat × Option SlotRef × List FlankRec :=
  (a.id, a.variant, a.exitSlot, a.flanks)

/-- The states differ in permissions, in the states of routes and in what no condition of R94 reads. -/
structure PermSteps (s t : State) : Prop where
  store : t.store = s.store
  (sections : t.sections = s.sections)
  points : t.points = s.points
  signals : ∃ f, PermChange f ∧ t.signals = s.signals.map f
  slots : t.slots = s.slots
  chanA : t.chanA = s.chanA
  chanB : t.chanB = s.chanB
  dev : t.dev.state = s.dev.state
  asked : t.routes.map ActiveRoute.asked = s.routes.map ActiveRoute.asked

section PermissionSteps
variable {s t : State}

theorem permChange_id : PermChange id := fun _ => rfl

theorem PermChange.face {f : SignalRec → SignalRec} (hf : PermChange f) (x : SignalRec) : (f x).id = x.id ∧ (f x).status = x.status
    ∧ (f x).faulted = x.faulted ∧ (f x).mask = x.mask ∧ (f x).claims = x.claims := by
  rw [hf x]; exact ⟨rfl, rfl, rfl, rfl, rfl⟩

theorem PermSteps.refl (s : State) : PermSteps s s :=
  ⟨rfl, rfl, rfl, ⟨id, permChange_id, (List.map_id _).symm⟩, rfl, rfl, rfl, rfl, rfl⟩

/-- The entry signal's fitness does not read its permission. -/
theorem PermSteps.entrySignalOk (h : PermSteps s t) (g : Nat) : entrySignalOk t g = entrySignalOk s g := by
  obtain ⟨f, hf, e⟩ := h.signals
  unfold Machine.entrySignalOk
  rw [signal?_of_map e (fun x => (hf.face x).1)]
  cases s.signal? g with
  | none => rfl
  | some x =>
    obtain ⟨-, h1, h2, h3, h4⟩ := hf.face x
    simp only [Option.map_some, h1, h2, h3, h4]

theorem PermSteps.chan (h : PermSteps s t) (ch : Channel) : t.chan ch = s.chan ch := by
  cases ch
  · exact h.chanA
  · exact h.chanB

theorem PermSteps.concerns (h : PermSteps s t) (c : Concern) (a : ActiveRoute) : concerns c t a = concerns c s a := by
  unfold Machine.concerns
  rw [defOf_of_store h.store]

theorem PermSteps.secStatusIs (h : PermSteps s t) (id : Nat) (st : SecStatus) : secStatusIs t id st = secStatusIs s id st := by
  unfold Machine.secStatusIs State.section?; rw [h.sections]

theorem PermSteps.failedBy (h : PermSteps s t) (c : Concern) (a : ActiveRoute) : failedBy c t a = failedBy c s a := by
  have hd : t.defOf a.id = s.defOf a.id := defOf_of_store h.store _
  cases c with
  | sec id => simp only [Machine.failedBy, hd, h.secStatusIs]
  | point id =>
    have hp : ∀ q, pointIn t q = pointIn s q := fun q => by unfold pointIn State.point?; rw [h.points]
    simp only [Machine.failedBy, hd, hp]
  | flank rs => rfl
  | signals gs => simp only [Machine.failedBy, hd, h.entrySignalOk]
  | channel ch =>
    have ho : t.operating ch = s.operating ch := by unfold State.operating; rw [h.chan]
    simp only [Machine.failedBy, ho]
  | device => simp only [Machine.failedBy, h.dev]
  | slot ref =>
    have hb : boundaryOk t (some ref) = boundaryOk s (some ref) := by unfold boundaryOk State.slot?; rw [h.slots]
    simp only [Machine.failedBy, hb]
  | route r => rfl

theorem concerns_of_asked {a b : ActiveRoute} (h : b.asked = a.asked) (c : Concern) (s : State) : concerns c s b = concerns c s a := by
  unfold concerns
  rw [show b.id = a.id from congrArg (·.1) h, show b.variant = a.variant from congrArg (·.2.1) h,
    show b.exitSlot = a.exitSlot from congrArg (·.2.2.1) h]

theorem failedBy_of_asked {a b : ActiveRoute} (h : b.asked = a.asked) (c : Concern) (s : State) : failedBy c s b = failedBy c s a := by
  unfold failedBy flankFail
  rw [show b.id = a.id from congrArg (·.1) h, show b.variant = a.variant from congrArg (·.2.1) h,
    show b.flanks = a.flanks from congrArg (·.2.2.2) h]

/-- Where every condition holds no change finds one failing. -/
theorem Grantable.not_failed {a : ActiveRoute} (h : Grantable s a) {c : Concern} (hc : concerns c s a = true) :
    failedBy c s a = none := by
  rw [Option.eq_none_iff_forall_ne_some]
  intro cause e
  cases (failedBy_iff (concerns_iff.1 hc) cause).1 e with
  | sec id hm hn _ => rw [h.secs id hm] at hn; cases hn
  | point q hq hn =>
    obtain ⟨x, hx, hs⟩ := pointIn_iff.1 (h.points q hq)
    exact hn x hx hs
  | flank rs before f after _ hf _ hs hn =>
    have := flankOk_iff.1 h.flank f (hf ▸ List.mem_append_right _ List.mem_cons_self) hs
    rw [hn] at this; cases this
  | signal gs _ hn => exact hn (entrySignalOk_iff.1 h.signal)
  | channel ch h1 h2 => exact (operating_iff.1 (h.channels ch)).elim h1 h2
  | device hn => exact hn h.service
  | slot ref hr hn =>
    obtain ⟨x, hx, ho⟩ := boundaryOk_iff.1 h.slot ref hr
    exact hn x hx ho

/-! ## One route, and all of them -/

/-- No route in PERMITTED of those that `D` names has a condition of `c` failing. -/
def Unfailed (c : Concern) (D : Nat → Prop) (s : State) : Prop := ∀ a ∈ s.routes, D a.id → a.state = .permitted →
  concerns c s a = true → failedBy c s a = none

theorem permSteps_withdraw (a : ActiveRoute) (c : PermCause) (s : State) : PermSteps s (withdraw a c s) :=
  ⟨rfl, rfl, rfl, ⟨_, fun x => by split <;> rfl, rfl⟩, rfl, rfl, rfl, rfl,
    map_core_eq (core := ActiveRoute.asked) (fun x => by split <;> rfl) s.routes⟩

theorem permSteps_grant (a : ActiveRoute) (s : State) : PermSteps s (grant a s) :=
  ⟨rfl, rfl, rfl, ⟨_, fun x => by split <;> rfl, rfl⟩, rfl, rfl, rfl, rfl,
    map_core_eq (core := ActiveRoute.asked) (fun x => by split <;> rfl) s.routes⟩

/-- The Permission Unit settles one route: it changes the record of that route alone. -/
theorem Unfailed.mapRoute {c : Concern} {D : Nat → Prop} {r : Nat} {f : ActiveRoute → ActiveRoute} (h : Unfailed c D s)
    (hp : PermSteps s t) (hr : t.routes = s.routes.map (fun b => if b.id = r then f b else b))
    (hf : ∀ b ∈ s.routes, b.id = r → (f b).id = r ∧ ((f b).state = .permitted → concerns c s (f b) = true →
      failedBy c s (f b) = none)) : Unfailed c (fun q => D q ∨ q = r) t := by
  intro b hb hd hs hc
  rw [hp.concerns] at hc
  rw [hp.failedBy]
  rw [hr] at hb
  obtain ⟨a, ha, rfl⟩ := List.mem_map.1 hb
  by_cases hid : a.id = r
  · rw [if_pos hid] at hs hc ⊢
    exact (hf a ha hid).2 hs hc
  · rw [if_neg hid] at hd hs hc ⊢
    exact h a ha (hd.resolve_right hid) hs hc

theorem Unfailed.add {c : Concern} {D : Nat → Prop} {r : Nat} (h : Unfailed c D s)
    (hr : ∀ b ∈ s.routes, b.id = r → b.state = .permitted → concerns c s b = true → failedBy c s b = none) :
    Unfailed c (fun q => D q ∨ q = r) s :=
  fun b hb hd hs hc => hd.elim (fun hd => h b hb hd hs hc) fun hd => hr b hb hd hs hc

theorem permRoute_settles {c : Concern} {D : Nat → Prop} {r : Nat} (hn : (s.routes.map (·.id)).Nodup) (h : Unfailed c D s) :
    PermSteps s (permRoute c r s) ∧ Unfailed c (fun q => D q ∨ q = r) (permRoute c r s) := by
  unfold permRoute
  split
  · next e => exact ⟨.refl s, h.add fun b hb hid => by simpa [hid] using List.find?_eq_none.1 e b hb⟩
  · next a e =>
    have ha := List.mem_of_find?_eq_some e
    obtain rfl := route?_id e
    have only : ∀ b ∈ s.routes, b.id = a.id → b = a := fun b hb hid => List.inj_on_of_nodup_map hn hb ha hid
    split
    · next hc =>
      exact ⟨.refl s, h.add fun b hb hid _ hbc => by rw [only b hb hid] at hbc; rw [hbc] at hc; cases hc⟩
    · split
      · split
        · refine ⟨permSteps_withdraw _ _ _, h.mapRoute (permSteps_withdraw _ _ _) (withdraw_routes _ _ _) fun b _ hid => ?_⟩
          exact ⟨hid, fun e => by cases e⟩
        · next hw =>
          refine ⟨.refl s, h.add fun b hb hid _ _ => ?_⟩
          rw [only b hb hid]
          unfold withdrawCause at hw
          split at hw
          · next hf => exact hf
          · split at hw <;> cases hw
      · next hnp =>
        split
        · next hg =>
          refine ⟨permSteps_grant _ _, h.mapRoute (permSteps_grant _ _) (f := ActiveRoute.permit) rfl fun b hb hid => ⟨hid, fun _ hc => ?_⟩⟩
          obtain rfl := only b hb hid
          rw [failedBy_of_asked (b := b.permit) (a := b) rfl]
          rw [concerns_of_asked (b := b.permit) (a := b) rfl] at hc
          exact (grantable_iff.1 hg.2.2).not_failed hc
        · exact ⟨.refl s, h.add fun b hb hid hs _ => absurd (only b hb hid ▸ hs) hnp⟩

theorem PermSteps.ids (h : PermSteps s t) : t.routes.map (·.id) = s.routes.map (·.id) := by
  have := congrArg (List.map Prod.fst) h.asked
  rwa [List.map_map, List.map_map] at this

theorem permEach_settles (c : Concern) : ∀ (as : List ActiveRoute) {D : Nat → Prop} {s : State}, (s.routes.map (·.id)).Nodup →
    Unfailed c D s → (inOrder (as.map (fun a => permRoute c a.id)) s).routes.map (·.id) = s.routes.map (·.id)
      ∧ Unfailed c (fun q => D q ∨ q ∈ as.map (·.id)) (inOrder (as.map (fun a => permRoute c a.id)) s)
  | [], _, _, _, h => ⟨rfl, fun b hb hd => h b hb (hd.resolve_right (by simp))⟩
  | a :: as, _, _, hn, h => by
    obtain ⟨hp, h1⟩ := permRoute_settles (r := a.id) hn h
    obtain ⟨hi, h2⟩ := permEach_settles c as (hp.ids ▸ hn) h1
    refine ⟨hi.trans hp.ids, fun b hb hd => h2 b hb ?_⟩
    rw [List.map_cons, List.mem_cons] at hd
    exact or_assoc.2 hd

/-- A handed change leaves no route in PERMITTED whose condition it finds failing (R95, R96); in SAFE_HALT it leaves none in
PERMITTED (R99). -/
theorem permOn_settles (hn : (s.routes.map (·.id)).Nodup) (c : Concern) : Unfailed c (fun _ => True) (permOn c s) := by
  unfold permOn
  split
  · exact fun a ha _ hp => absurd hp (withdrawAll_locks s a ha)
  · obtain ⟨hi, h⟩ := permEach_settles c s.routes hn (D := fun _ => False) (s := s) fun _ _ e => e.elim
    exact fun a ha _ => h a ha (.inr (hi ▸ List.mem_map_of_mem ha))

theorem permOn_halted (h : s.dev.state = .safeHalt) (c : Concern) : ∀ a ∈ (permOn c s).routes, a.state ≠ .permitted := by
  unfold permOn
  rw [if_pos h]
  exact withdrawAll_locks s

end PermissionSteps

end Sys2Proof.Machine

/-!
PROOFS. The conditions of a granted permission (R94, R96, R104), the entry of a train (R106) and the satisfied flags (R82): each is
kept by every change that does not put it in doubt, and settled by the unit that a change is handed to. Part of O57.
-/

namespace Sys2Proof.Machine

/-- One condition of R94. -/
inductive Concern.Single : Concern → Prop where
  | sec (id : Nat) : Single (.sec id)
  | point (id : Nat) : Single (.point id)
  | flank (r : Nat) : Single (.flank [r])
  | signal (g : Nat) : Single (.signals [g])
  | channel (ch : Channel) : Single (.channel ch)
  | device : Single .device
  | slot (ref : SlotRef) : Single (.slot ref)

def Doubt.Single : Doubt → Prop
  | .cond c => c.Single
  | _ => True

/-- What a doubt is about stands: a condition of R94 for every route in PERMITTED; a route in PERMITTED has not been entered; the
flags of the STANDING entries on an element. -/
def Stands (s : State) : Doubt → Prop
  | .cond c => Unfailed c (fun _ => True) s
  | .entry id r => ∀ a ∈ s.routes, a.id = r → a.state = .permitted → (s.defOf r).secs.head? = some id →
    secStatusIs s id .occupied = false
  | .flag id => ∀ a ∈ s.routes, ∀ f ∈ a.flanks, f.standing = true → f.opt.element = id → f.satisfied = optSatisfied s f.opt

/-- A change of a route that puts none of its conditions in doubt: one that stays has no more STANDING entries and is not newly in
PERMITTED; a new one is not in PERMITTED, its flags right. -/
def RouteCalm (s : State) (b : ActiveRoute) : Prop :=
  (b.state ≠ .permitted ∧ ∀ f ∈ b.flanks, f.standing = true → f.satisfied = optSatisfied s f.opt)
    ∨ ∃ a ∈ s.routes, b.id = a.id ∧ b.variant = a.variant ∧ b.exitSlot = a.exitSlot ∧ (b.state = .permitted → a.state = .permitted)
      ∧ ∀ y ∈ b.flanks, y.standing = true → y ∈ a.flanks

/-- A change that does not put `δ` in doubt. -/
structure Calm (δ : Doubt) (s t : State) : Prop where
  store : t.store = s.store
  routes : ∀ b ∈ t.routes, RouteCalm s b
  secs : ∀ id, δ.OfSection id → ∀ st, secStatusIs t id st = secStatusIs s id st
  points : ∀ id, δ.OfPoint id → ∀ p, pointIn t ⟨id, p⟩ = pointIn s ⟨id, p⟩
  fit : ∀ id, δ.OfSignal id → (∃ a ∈ s.routes, a.state = .permitted ∧ (s.defOf a.id).entry = id) → entrySignalOk s id = true →
    entrySignalOk t id = true
  signals : ∀ id, δ.OfSignal id → optSatisfied t (.signal id) = optSatisfied s (.signal id)
  chan : ∀ ch, δ = .cond (.channel ch) → (t.chan ch).state = (s.chan ch).state
  device : δ = .cond .device → t.dev.state = s.dev.state
  slots : ∀ ref, δ = .cond (.slot ref) → boundaryOk t (some ref) = boundaryOk s (some ref)

section Doubts
variable {δ : Doubt} {s t : State}

theorem Stands.idle (hr : s.routes = []) : Stands s δ := by
  cases δ with
  | cond c => exact fun a ha => by rw [hr] at ha; cases ha
  | entry id r => exact fun a ha => by rw [hr] at ha; cases ha
  | flag id => exact fun a ha => by rw [hr] at ha; cases ha

/-- An option asks the same of its element before and after. -/
theorem Calm.optSatisfied {o : FlankOpt} (h : Calm (.flag o.element) s t) : optSatisfied t o = optSatisfied s o := by
  cases o with
  | point id p => exact h.points id (.inr rfl) p
  | signal id => exact h.signals id (.inr rfl)

theorem concerns_calm (hst : t.store = s.store) {a b : ActiveRoute} (h1 : b.id = a.id) (h2 : b.variant = a.variant)
    (h3 : b.exitSlot = a.exitSlot) (c : Concern) : concerns c t b = concerns c s a := by
  unfold concerns
  rw [defOf_of_store hst, h1, h2, h3]

theorem Unfailed.calm {c : Concern} (hc : c.Single) (h : Unfailed c (fun _ => True) s) (k : Calm (.cond c) s t) :
    Unfailed c (fun _ => True) t := by
  intro b hb _ hp hcb
  obtain ⟨hn, -⟩ | ⟨a, ha, h1, h2, h3, h4, h5⟩ := k.routes b hb
  · exact absurd hp hn
  rw [concerns_calm k.store h1 h2 h3] at hcb
  have hf := h a ha trivial (h4 hp) hcb
  have hd : t.defOf b.id = s.defOf a.id := by rw [defOf_of_store k.store, h1]
  cases hc with
  | sec id =>
    have e : failedBy (.sec id) t b = failedBy (.sec id) s a := by simp only [failedBy, hd, k.secs id (.inl rfl)]
    exact e.trans hf
  | point id =>
    have e : ∀ q : PointReq, (q.point != id || pointIn t q) = (q.point != id || pointIn s q) := fun q => by
      by_cases hq : q.point = id
      · rw [show q = ⟨id, q.pos⟩ by rw [← hq], k.points id (.inl rfl) q.pos]
      · rw [show (q.point != id) = true by simpa using hq, Bool.true_or, Bool.true_or]
    simp only [failedBy, e, hd, h2]
    exact hf
  | flank r =>
    refine Option.map_eq_none_iff.2 (flankFail_none_iff.2 fun y hy hs => ?_)
    exact flankFail_none_iff.1 (Option.map_eq_none_iff.1 hf) y (h5 y hy hs) hs
  | signal g =>
    have hg : (s.defOf a.id).entry = g := by simpa [concerns, eq_comm] using hcb
    have hok : entrySignalOk s (s.defOf a.id).entry = true := by
      by_contra hn
      rw [show failedBy (.signals [g]) s a = _ from if_neg hn] at hf; cases hf
    refine if_pos ?_
    rw [hd, hg]
    exact k.fit g (.inl rfl) ⟨a, ha, h4 hp, hg⟩ (hg ▸ hok)
  | channel ch =>
    have e : t.operating ch = s.operating ch := by unfold State.operating; rw [k.chan ch rfl]
    show (if t.operating ch then none else _) = none
    rw [e]; exact hf
  | device =>
    show (if t.dev.state = .inService then none else _) = none
    rw [k.device rfl]; exact hf
  | slot ref =>
    show (if boundaryOk t (some ref) then none else _) = none
    rw [k.slots ref rfl]; exact hf

theorem Stands.calm (hδ : δ.Single) (h : Stands s δ) (k : Calm δ s t) : Stands t δ := by
  cases δ with
  | cond c => exact Unfailed.calm hδ h k
  | entry id r =>
    intro b hb hid hp hh
    obtain ⟨hn, -⟩ | ⟨a, ha, h1, -, -, h4, -⟩ := k.routes b hb
    · exact absurd hp hn
    rw [defOf_of_store k.store] at hh
    rw [k.secs id (.inr ⟨r, rfl⟩)]
    exact h a ha (h1.symm.trans hid) (h4 hp) hh
  | flag id =>
    intro b hb f hf hs he
    subst he
    rw [k.optSatisfied]
    obtain ⟨-, hn⟩ | ⟨a, ha, -, -, -, -, h5⟩ := k.routes b hb
    · exact hn f hf hs
    · exact h a ha f (h5 f hf hs) hs rfl

/-! ## Calm changes -/

/-- A route of the list that changes in none of these. -/
theorem RouteCalm.of_mem {a : ActiveRoute} (ha : a ∈ s.routes) : RouteCalm s a :=
  .inr ⟨a, ha, rfl, rfl, rfl, fun e => e, fun _ hy _ => hy⟩

theorem routeCalm_of_face {f : ActiveRoute → ActiveRoute} (hf : ∀ a, (f a).face = a.face) {b : ActiveRoute}
    (hb : b ∈ s.routes.map f) : RouteCalm s b := by
  obtain ⟨a, ha, rfl⟩ := List.mem_map.1 hb
  have h := hf a
  have hst : (f a).state = a.state := congrArg (·.2.2.1) h
  have hfl : (f a).flanks = a.flanks := congrArg (·.2.2.2.2.2.1) h
  refine .inr ⟨a, ha, congrArg (·.1) h, congrArg (·.2.1) h, congrArg (·.2.2.2.2.2.2) h,
    fun e => hst.symm.trans e, fun y hy _ => hfl ▸ hy⟩

/-- One record changes: it leaves PERMITTED or stays where it was, with no new STANDING entry. -/
theorem routeCalm_mapRoute {r : Nat} {f : ActiveRoute → ActiveRoute} (hf : ∀ a, (f a).id = a.id ∧ (f a).variant = a.variant
      ∧ (f a).exitSlot = a.exitSlot ∧ ((f a).state = .permitted → a.state = .permitted)
      ∧ ∀ y ∈ (f a).flanks, y.standing = true → y ∈ a.flanks) {b : ActiveRoute}
    (hb : b ∈ s.routes.map (fun a => if a.id = r then f a else a)) : RouteCalm s b := by
  obtain ⟨a, ha, rfl⟩ := List.mem_map.1 hb
  split
  · exact .inr ⟨a, ha, hf a⟩
  · exact .of_mem ha

section CalmElements
variable {f : SectionRec → SectionRec} {g : PointRec → PointRec} {k : SignalRec → SignalRec}

/-- What a signal's fitness reads stays, but for claims that are dropped. -/
def FitKept (k : SignalRec → SignalRec) (x : SignalRec) : Prop :=
  (k x).status = x.status ∧ (k x).faulted = x.faulted ∧ (k x).mask = x.mask ∧ (x.claims = [] → (k x).claims = [])

theorem entrySignalOk_map (hs : ∀ id, t.signal? id = (s.signal? id).map k) {id : Nat}
    (hk : ∀ x, s.signal? id = some x → FitKept k x) (h : entrySignalOk s id = true) : entrySignalOk t id = true := by
  obtain ⟨x, hx, h1, h2, h3, h4⟩ := entrySignalOk_iff.1 h
  obtain ⟨e1, e2, e3, e4⟩ := hk x hx
  exact entrySignalOk_iff.2 ⟨k x, by rw [hs, hx]; rfl, e2.trans h1, e3.trans h2, by rwa [e1], e4 h4⟩

theorem optSatisfied_map (hs : ∀ id, t.signal? id = (s.signal? id).map k) {id : Nat}
    (hk : ∀ x, s.signal? id = some x → (k x).status = x.status ∧ (k x).faulted = x.faulted) :
    optSatisfied t (.signal id) = optSatisfied s (.signal id) := by
  unfold Machine.optSatisfied
  dsimp only
  rw [hs]
  cases hx : s.signal? id with
  | none => rfl
  | some x => rw [Option.map_some]; simp only [(hk x hx).1, (hk x hx).2]

/-- The elements change in no status, and what else a condition reads stays. -/
theorem Elementwise.calm (e : Elementwise s t f g k) (hr : ∀ b ∈ t.routes, RouteCalm s b)
    (hf : ∀ id x, δ.OfSection id → s.section? id = some x → (f x).status = x.status)
    (hg : ∀ id x, δ.OfPoint id → s.point? id = some x → (g x).status = x.status)
    (hk : ∀ id x, δ.OfSignal id → s.signal? id = some x → FitKept k x)
    (hch : ∀ ch, δ = .cond (.channel ch) → (t.chan ch).state = (s.chan ch).state)
    (hd : δ = .cond .device → t.dev.state = s.dev.state)
    (hs : ∀ ref, δ = .cond (.slot ref) → boundaryOk t (some ref) = boundaryOk s (some ref)) : Calm δ s t where
  store := e.store
  routes := hr
  secs id ho st := by
    unfold secStatusIs
    rw [e.section?]
    cases hx : s.section? id with
    | none => rfl
    | some x => rw [Option.map_some]; simp only [hf id x ho hx]
  points id ho p := by
    unfold pointIn
    rw [e.point?]
    cases hx : s.point? id with
    | none => rfl
    | some x => rw [Option.map_some]; simp only [hg id x ho hx]
  fit id ho _ := entrySignalOk_map e.signal? (hk id · ho)
  signals id ho := optSatisfied_map e.signal? fun x hx => ⟨(hk id x ho hx).1, (hk id x ho hx).2.1⟩
  chan := hch
  device := hd
  slots := hs

/-- Holders, holds and claims are dropped and routes change, and nothing else. -/
theorem Elementwise.quiet (e : Elementwise s t f g k) (hr : ∀ b ∈ t.routes, RouteCalm s b) (hf : ∀ x, (f x).status = x.status)
    (hg : ∀ x, (g x).status = x.status) (hk : ∀ x, FitKept k x) (ha : t.chanA = s.chanA) (hb : t.chanB = s.chanB)
    (hd : t.dev.state = s.dev.state) (hs : t.slots = s.slots) : Calm δ s t :=
  e.calm hr (fun _ x _ _ => hf x) (fun _ x _ _ => hg x) (fun _ x _ _ => hk x)
    (fun ch _ => by cases ch <;> [exact congrArg _ ha; exact congrArg _ hb]) (fun _ => hd)
    fun ref _ => by unfold boundaryOk State.slot?; rw [hs]

end CalmElements

theorem FitKept.refl (x : SignalRec) : FitKept id x := ⟨rfl, rfl, rfl, fun e => e⟩

/-- The elements stay. -/
theorem Calm.of_eq (hst : t.store = s.store) (hx : t.sections = s.sections) (hp : t.points = s.points)
    (hg : t.signals = s.signals) (hr : ∀ b ∈ t.routes, RouteCalm s b) (ha : t.chanA = s.chanA) (hb : t.chanB = s.chanB)
    (hd : t.dev.state = s.dev.state) (hs : t.slots = s.slots) : Calm δ s t :=
  (Elementwise.refl hst hx hp hg).quiet hr (fun _ => rfl) (fun _ => rfl) .refl ha hb hd hs

theorem PermSteps.calm (h : PermSteps s t) (hr : ∀ b ∈ t.routes, RouteCalm s b) : Calm δ s t := by
  obtain ⟨f, hf, e⟩ := h.signals
  refine Elementwise.quiet (f := id) (g := id) (k := f) ⟨h.store, by rw [h.sections, List.map_id], by rw [h.points, List.map_id], e,
    fun _ => rfl, fun _ => rfl, fun _ => rfl, fun x => (hf.face x).1⟩ hr (fun _ => rfl) (fun _ => rfl) (fun x => ?_) h.chanA h.chanB
    h.dev h.slots
  obtain ⟨-, h1, h2, h3, h4⟩ := hf.face x
  exact ⟨h1, h2, h3, fun e => h4.trans e⟩

theorem withdrawOnly_permSteps (s : State) (a : ActiveRoute) (c : PermCause) : PermSteps s (withdrawOnly a c s) := by
  obtain ⟨f, hf, -, e⟩ := withdrawOnly_perms a c s
  exact ⟨e.store, e.sections, e.points, ⟨f, hf, e.signals⟩, e.slots, e.chanA, e.chanB, e.dev, by rw [e.routes]⟩

end Doubts

end Sys2Proof.Machine

/-!
PROOFS. Permission, its conditions and the satisfied flags under every command (R82, R93 to R96, R104), and with holders, locks and
reservations that is O57.
-/

namespace Sys2Proof.Machine

/-- The law of permission together with one doubt settled. -/
def AuthStands (δ : Doubt) (s : State) : Prop := AuthBase s ∧ Stands s δ

section Settling
variable {δ : Doubt} {s t : State}

/-! ## The take of a route -/

theorem chosen_satisfied {d : RouteDef} {v : Option Nat} {flanks : List FlankRec} {opts : List Nat}
    (h : Takeable s d v flanks opts) {f : FlankRec} (hf : f ∈ flanks) : f.satisfied = optSatisfied s f.opt := by
  obtain ⟨i, hi⟩ := List.getElem?_of_mem hf
  exact (chosen_obtainable h.chosen hi).2

/-- A chosen option is on no entry signal of a route in PERMITTED (R49). -/
theorem chosen_not_entry {d : RouteDef} {v : Option Nat} {flanks : List FlankRec} {opts : List Nat}
    (h : Takeable s d v flanks opts) {a : ActiveRoute} (ha : a ∈ s.routes) (hp : a.state = .permitted) :
    claimsFor d.id flanks (fun o => o == .signal (s.defOf a.id).entry) = [] := by
  refine List.eq_nil_iff_forall_not_mem.2 fun c hc => ?_
  obtain ⟨f, hf, ho, -⟩ := mem_claimsFor.1 hc
  obtain ⟨i, hi⟩ := List.getElem?_of_mem hf
  have hob := (chosen_obtainable h.chosen hi).1
  rw [beq_iff_eq.1 ho, obtainable_signal_iff] at hob
  obtain ⟨-, -, -, hn, -⟩ := hob
  exact hn a ha hp rfl

theorem taken_calm {d : RouteDef} {v : Option Nat} {flanks : List FlankRec} {opts : List Nat}
    (h : Takeable s d v flanks opts) : Calm δ s (s.taken d v flanks opts) := by
  have e := taken_elementwise s d v flanks opts
  have q : Calm δ s { s.taken d v flanks opts with signals := s.signals } :=
    Elementwise.quiet (f := SectionRec.taken d v) (g := PointRec.taken d v flanks) (k := id)
      ⟨rfl, rfl, rfl, (List.map_id _).symm, fun _ => rfl, fun _ => rfl, fun _ => rfl, fun _ => rfl⟩ (fun b hb => by
        rcases List.mem_append.1 hb with hb | hb
        · exact .of_mem hb
        · obtain rfl := List.mem_singleton.1 hb
          exact .inl ⟨(fun e => by cases e), fun f hf _ => chosen_satisfied h hf⟩)
      (fun _ => rfl) (fun _ => rfl) .refl rfl rfl rfl rfl
  refine { q with fit := fun id _ hent hok => ?_, signals := fun id _ => optSatisfied_map e.signal? fun x _ => ⟨rfl, rfl⟩ }
  obtain ⟨a, ha, hp, rfl⟩ := hent
  refine entrySignalOk_map e.signal? (fun x hx => ⟨rfl, rfl, rfl, fun hc => ?_⟩) hok
  show x.claims ++ claimsFor d.id flanks (fun o => o == .signal x.id) = []
  rw [hc, signal?_id hx, chosen_not_entry h ha hp]; rfl

/-! ## The grant of a permission -/

theorem Stands.grant (h : Stands s δ) {a : ActiveRoute} (hn : (s.routes.map (·.id)).Nodup) (ha : s.route? a.id = some a)
    (hg : grantable s a = true) : Stands (grant a s) δ := by
  have hp := permSteps_grant a s
  have hr : (Machine.grant a s).routes = s.routes.map (fun b => if b.id = a.id then b.permit else b) := rfl
  have only : ∀ b ∈ s.routes, b.id = a.id → b = a := fun b hb hid =>
    List.inj_on_of_nodup_map hn hb (List.mem_of_find?_eq_some ha) hid
  have hall := grantable_iff.1 hg
  cases δ with
  | cond c =>
    have := Unfailed.mapRoute (c := c) (f := ActiveRoute.permit) (show Unfailed c (fun _ => True) s from h) hp hr fun b hb hid => ⟨hid, fun _ hc => by
      obtain rfl := only b hb hid
      rw [failedBy_of_asked (b := b.permit) (a := b) rfl]
      rw [concerns_of_asked (b := b.permit) (a := b) rfl] at hc
      exact hall.not_failed hc⟩
    exact fun b hb _ => this b hb (.inl trivial)
  | entry id r =>
    intro b hb hid hs hh
    rw [hp.secStatusIs]
    rw [hr] at hb
    obtain ⟨x, hx, rfl⟩ := List.mem_map.1 hb
    by_cases hxa : x.id = a.id
    · obtain rfl := only x hx hxa
      rw [if_pos rfl] at hid
      have hm : id ∈ allSecs (s.defOf x.id) x.variant := List.mem_append_left _ (List.mem_of_head? (hid ▸ hh))
      by_contra hne
      have := secStatusIs_excl (Bool.eq_true_of_not_eq_false hne)
      rw [hall.secs id hm] at this; cases this
    · rw [if_neg hxa] at hid hs
      exact h x hx hid hs hh
  | flag id =>
    intro b hb f hf hs he
    have hsat : ∀ o, optSatisfied (Machine.grant a s) o = optSatisfied s o := by
      have k : ∀ o : FlankOpt, Calm (.flag o.element) { s with routes := [] } { Machine.grant a s with routes := [] } := fun o =>
        PermSteps.calm ⟨rfl, rfl, rfl, hp.signals, rfl, rfl, rfl, rfl, rfl⟩ (fun b hb => by cases hb)
      exact fun o => (k o).optSatisfied
    rw [hsat]
    rw [hr] at hb
    obtain ⟨x, hx, rfl⟩ := List.mem_map.1 hb
    exact h x hx f (by split at hf <;> exact hf) hs he

/-! ## The flags -/

theorem rederiveFlank_flag {id : Nat} {a : ActiveRoute} {f : FlankRec} (hf : f ∈ (rederiveFlank s id a).flanks)
    (hs : f.standing = true) : (f.opt.element = id ∧ f.satisfied = optSatisfied s f.opt) ∨ f ∈ a.flanks := by
  obtain ⟨g, hg, rfl⟩ := List.mem_map.1 hf
  split at hs
  · next hc =>
    rw [if_pos hc]
    simp only [Bool.and_eq_true, beq_iff_eq] at hc
    exact .inl ⟨hc.2, rfl⟩
  · next hc => rw [if_neg hc]; exact .inr hg

theorem Stands.flags (hδ : δ.Single) (h : Stands s δ) (id : Nat)
    (hn : ∀ r, δ = .cond (.flank [r]) → r ∉ flankChanged s id) :
    Stands { s with routes := s.routes.map (rederiveFlank s id) } δ := by
  cases δ with
  | cond c =>
    intro b hb _ hp hc
    obtain ⟨a, ha, rfl⟩ := List.mem_map.1 hb
    cases hδ with
    | flank r =>
      have hr : (rederiveFlank s id a).id = r := by simpa [concerns] using hc
      have hf := h a ha trivial hp hc
      have hok : flankOk a = true := flankOk_iff.2 (flankFail_none_iff.1 (Option.map_eq_none_iff.1 hf))
      have hok' : flankOk (rederiveFlank s id a) = true := by
        by_contra hne
        exact hn r rfl (mem_flankChanged.2 ⟨a, ha, hr, fun e => hne (e.2 hok)⟩)
      exact Option.map_eq_none_iff.2 (flankFail_none_iff.2 (flankOk_iff.1 hok'))
    | _ => exact h a ha trivial hp hc
  | entry k r =>
    intro b hb hid hp hh
    obtain ⟨a, ha, rfl⟩ := List.mem_map.1 hb
    exact h a ha hid hp hh
  | flag k =>
    intro b hb f hf hs he
    obtain ⟨a, ha, rfl⟩ := List.mem_map.1 hb
    rcases rederiveFlank_flag hf hs with ⟨-, e⟩ | hm
    · exact e
    · exact h a ha f hm hs he

/-- The Flank Unit sets the flags on an element right (R82). -/
theorem stands_flag (id : Nat) : Stands { s with routes := s.routes.map (rederiveFlank s id) } (.flag id) := by
  intro b hb f hf hs he
  obtain ⟨a, ha, rfl⟩ := List.mem_map.1 hb
  obtain ⟨g, hg, rfl⟩ := List.mem_map.1 hf
  by_cases hc : (g.standing && g.opt.element == id) = true
  · rw [if_pos hc]; rfl
  · rw [if_neg hc] at hs he
    exact absurd (by simp [hs, he]) hc

/-! ## Handed changes -/

/-- The Permission Unit settles what a handed change puts in doubt (R95, R96, R99). -/
theorem permOn_stands (hn : (s.routes.map (·.id)).Nodup) {c : Concern} (hc : Settles' c s δ) : Stands (permOn c s) δ := by
  have h := permOn_settles hn c
  have halted : s.dev.state = .safeHalt → Stands (permOn c s) δ := fun hd => by
    have hno := permOn_halted hd c
    cases δ with
    | cond k => exact fun a ha _ hp => absurd hp (hno a ha)
    | entry id r => exact fun a ha _ hp => absurd hp (hno a ha)
    | flag id => exact hc.elim
  cases δ with
  | cond k =>
    obtain rfl | ⟨gs, g, rfl, rfl, hg⟩ | ⟨rs, r, rfl, rfl, hr⟩ | hd := hc
    · exact h
    · exact fun a ha ht hp hk => h a ha ht hp (by simp [concerns] at hk ⊢; rwa [hk])
    · refine fun a ha ht hp hk => h a ha ht hp (by simp [concerns] at hk ⊢; rwa [hk])
    · exact halted hd
  | entry id r => exact halted hc
  | flag id => exact hc.elim

end Settling

end Sys2Proof.Machine

/-!
PROOFS. Every command keeps permission, its conditions and the satisfied flags (R82, R93 to R96, R104), and with holders, locks and
reservations that is O57.
-/

namespace Sys2Proof.Machine

section CalmChanges
variable {δ : Doubt} {s t : State}

/-! ## Calm kinds of change -/

theorem boundaryOk_slots {f : Slot → Slot} (hs : t.slots = s.slots.map f) (hr : ∀ y, (f y).ref = y.ref) {ref : SlotRef}
    (ho : ∀ x, s.slot? ref = some x → (f x).outb = x.outb) : boundaryOk t (some ref) = boundaryOk s (some ref) := by
  have e : t.slot? ref = (s.slot? ref).map f := by
    unfold State.slot?
    rw [hs, List.find?_map]
    exact congrArg (fun p => (s.slots.find? p).map f) (funext fun y => by rw [Function.comp_apply, hr])
  unfold boundaryOk
  dsimp only
  rw [e]
  cases hx : s.slot? ref with
  | none => rfl
  | some x => rw [Option.map_some]; simp only [ho x hx]

/-- Slots and holders of sections change. -/
theorem calm_slots {g : SectionRec → SectionRec} {f : Slot → Slot} (hst : t.store = s.store) (hx : t.sections = s.sections.map g)
    (hg : ∀ x, (g x).id = x.id ∧ (g x).status = x.status) (hp : t.points = s.points) (hk : t.signals = s.signals)
    (hrt : t.routes = s.routes) (ha : t.chanA = s.chanA) (hb : t.chanB = s.chanB) (hd : t.dev.state = s.dev.state)
    (hs : t.slots = s.slots.map f) (hr : ∀ y, (f y).ref = y.ref)
    (ho : ∀ ref x, δ = .cond (.slot ref) → s.slot? ref = some x → (f x).outb = x.outb) : Calm δ s t :=
  Elementwise.calm (f := g) (g := id) (k := id) ⟨hst, hx, by rw [hp, List.map_id], by rw [hk, List.map_id], fun x => (hg x).1,
      fun _ => rfl, fun _ => rfl, fun _ => rfl⟩ (fun b hb => .of_mem (hrt ▸ hb)) (fun _ x _ _ => (hg x).2) (fun _ _ _ _ => rfl)
    (fun _ x _ _ => .refl x) (fun ch _ => by cases ch <;> [exact congrArg _ ha; exact congrArg _ hb]) (fun _ => hd)
    fun ref e => boundaryOk_slots hs hr (ho ref · e)

/-- One route record changes in what no condition reads, or leaves PERMITTED. -/
theorem calm_mapRoute (s : State) (r : Nat) {f : ActiveRoute → ActiveRoute} (hf : ∀ a, (f a).id = a.id ∧ (f a).variant = a.variant
    ∧ (f a).exitSlot = a.exitSlot ∧ (f a).state ≠ .permitted ∧ (f a).flanks = a.flanks) : Calm δ s (s.mapRoute r f) :=
  .of_eq rfl rfl rfl rfl (fun _ hb => routeCalm_mapRoute (fun a => by
    obtain ⟨h1, h2, h3, h4, h5⟩ := hf a
    exact ⟨h1, h2, h3, fun e => absurd e h4, fun _ hy _ => h5 ▸ hy⟩) hb) rfl rfl rfl rfl

theorem calm_withdrawOnly (s : State) (a : ActiveRoute) (c : PermCause) : Calm δ s (withdrawOnly a c s) :=
  (withdrawOnly_permSteps s a c).calm fun _ hb => .of_mem (withdrawOnly_routes s a c ▸ hb)

theorem calm_dropEntryOf (s : State) (r : Nat) : Calm δ s (dropEntryOf r s) :=
  Elementwise.quiet (s := s) (t := dropEntryOf r s) (f := id) (g := id)
    (k := fun x => if x.entryOf = some r then { x with entryOf := none } else x)
    ⟨rfl, (List.map_id _).symm, (List.map_id _).symm, rfl, fun _ => rfl, fun _ => rfl, fun _ => rfl, fun x => by split <;> rfl⟩
    (fun _ hb => .of_mem hb) (fun _ => rfl) (fun _ => rfl)
    (fun x => by unfold FitKept; dsimp only; split <;> exact ⟨rfl, rfl, rfl, fun e => e⟩) rfl rfl rfl rfl

theorem calm_dropRoute (s : State) (r : Nat) : Calm δ s (dropRoute r s) := by
  rw [dropRoute_without]
  refine (without_elementwise s r).quiet (fun b hb => .of_mem (List.mem_filter.1 hb).1) (fun x => ?_) (fun _ => rfl)
    (fun x => ⟨rfl, rfl, rfl, fun e => ?_⟩) rfl rfl rfl rfl
  · unfold SectionRec.without; split <;> rfl
  · show x.claims.filter _ = []
    rw [e]; rfl

theorem calm_freed (s : State) (a : ActiveRoute) (id : Nat) : Calm δ s (s.freed a id) := by
  refine (freed_elementwise s a id).quiet (fun b hb => ?_) (fun x => ?_) (fun _ => rfl) (fun x => ⟨rfl, rfl, rfl, fun e => ?_⟩)
    rfl rfl rfl rfl
  · obtain ⟨c, hc, rfl⟩ := List.mem_map.1 hb
    split
    · exact .inr ⟨c, hc, rfl, rfl, rfl, fun e => e, fun y hy hs => (dropGuard_standing hy hs).1⟩
    · exact .of_mem hc
  · unfold SectionRec.freed; split <;> rfl
  · show x.claims.filter _ = []
    rw [e]; rfl

theorem calm_overlapFreed (s : State) (a : ActiveRoute) (kept : Bool) : Calm δ s (s.overlapFreed kept a) := by
  refine (overlapFreed_elementwise s kept a).quiet (fun b hb => ?_) (fun x => ?_) (fun x => ?_)
    (fun x => ⟨rfl, rfl, rfl, fun e => ?_⟩) rfl rfl rfl rfl
  · rw [overlapFreed_routes] at hb
    refine routeCalm_mapRoute (fun c => ?_) hb
    cases kept
    · exact ⟨rfl, rfl, rfl, fun e => e, fun y hy hs => (dropGuard_standing (g := .overlap) hy hs).1⟩
    · exact ⟨rfl, rfl, rfl, fun e => e, fun y hy _ => hy⟩
  · unfold SectionRec.overlapFreed; split <;> rfl
  · unfold PointRec.overlapFreed; split <;> rfl
  · show x.claims.filter _ = []
    rw [e]; rfl

/-! ## Every kind of change -/

theorem authStands_changes (hδ : δ.Single) : Changes (AuthStands δ) (fun ε => δ = ε) where
  rest s t e h := ⟨authBase_changes.rest s t e h.1, h.2.calm hδ (.of_eq e.store e.sections e.points e.signals
    (fun _ hb => .of_mem (e.routes ▸ hb)) e.chanA e.chanB e.dev e.slots)⟩; sections s f hf hn h :=
    ⟨h.1.of_eq rfl rfl (fun e => e) rfl, h.2.calm hδ (Elementwise.calm (f := f) (g := id) (k := id)
    ⟨rfl, rfl, (List.map_id _).symm, (List.map_id _).symm, fun x => (hf x).1, fun _ => rfl, fun _ => rfl, fun _ => rfl⟩
    (fun _ hb => .of_mem hb) (fun id x ho hx => hn id x ho hx) (fun _ _ _ _ => rfl) (fun _ x _ _ => .refl x) (fun _ _ => rfl)
    (fun _ => rfl) (fun _ _ => rfl))⟩
  points s f hf hn h := ⟨h.1.of_eq rfl rfl (fun e => e) rfl, h.2.calm hδ (Elementwise.calm (f := id) (g := f) (k := id)
    ⟨rfl, (List.map_id _).symm, rfl, (List.map_id _).symm, fun _ => rfl, fun x => (hf x).1, fun x => (hf x).2.1, fun _ => rfl⟩
    (fun _ hb => .of_mem hb) (fun _ _ _ _ => rfl) (fun id x ho hx => hn id x ho hx) (fun _ x _ _ => .refl x) (fun _ _ => rfl)
    (fun _ => rfl) (fun _ _ => rfl))⟩
  signals s f hf hn h := ⟨authBase_changes.signals s f hf (fun _ _ e => (e.elim id id).elim) h.1,
    h.2.calm hδ (Elementwise.calm (f := id) (g := id) (k := f)
      ⟨rfl, (List.map_id _).symm, (List.map_id _).symm, rfl, fun _ => rfl, fun _ => rfl, fun _ => rfl, fun x => (hf x).1⟩
      (fun _ hb => .of_mem hb) (fun _ _ _ _ => rfl) (fun _ _ _ _ => rfl)
      (fun id x ho hx => by
        obtain ⟨h1, h2, h3⟩ := hn id x ho hx
        exact ⟨h1, h2, h3, fun e => (hf x).2.2.1.trans e⟩) (fun _ _ => rfl) (fun _ => rfl) (fun _ _ => rfl))⟩
  routes s f hf h := ⟨authBase_changes.routes s f hf h.1, h.2.calm hδ (.of_eq rfl rfl rfl rfl
    (fun _ hb => routeCalm_of_face hf hb) rfl rfl rfl rfl)⟩
  slots s f hf hn h := ⟨h.1.of_eq rfl rfl (fun e => e) rfl, h.2.calm hδ (calm_slots (g := id) (f := f) rfl (List.map_id _).symm
    (fun _ => ⟨rfl, rfl⟩) rfl rfl rfl rfl rfl rfl rfl (fun x => (hf x).1) (fun ref x e hx => hn ref x e hx))⟩
  device s d hd hn h := ⟨h.1.of_eq rfl rfl hd rfl, h.2.calm hδ
    (Elementwise.calm (.refl (s := s) rfl rfl rfl rfl) (fun _ hb => .of_mem hb) (fun _ _ _ _ => rfl) (fun _ _ _ _ => rfl)
      (fun _ x _ _ => .refl x) (fun _ _ => rfl) hn (fun _ _ => rfl))⟩
  chan s t e hn h := ⟨authBase_changes.chan s t e (fun _ e => e.elim) h.1, h.2.calm hδ
    (Elementwise.calm (.refl (by rw [e.eq]) (by rw [e.eq]) (by rw [e.eq]) (by rw [e.eq]))
      (fun b hb => by rw [e.eq] at hb; exact .of_mem hb) (fun _ _ _ _ => rfl) (fun _ _ _ _ => rfl) (fun _ x _ _ => .refl x) hn
      (fun _ => by rw [e.eq]) (fun ref _ => by rw [e.eq]; rfl))⟩
  withdraw s a c hp h := ⟨authBase_changes.withdraw s a c hp h.1, h.2.calm hδ ((permSteps_withdraw a c s).calm
    fun _ hb => routeCalm_mapRoute (r := a.id) (f := fun x => { x with state := .locked, grantAllowed := false })
      (fun _ => ⟨rfl, rfl, rfl, (fun e => by cases e), fun _ hy _ => hy⟩) hb)⟩
  grant s a ha hl hg h := ⟨h.1.grant ha hl, h.2.grant h.1.ids ha hg⟩
  lock s a ha hc h := ⟨authBase_changes.lock s a ha hc h.1, h.2.calm hδ
    (calm_mapRoute s a.id fun _ => ⟨rfl, rfl, rfl, (fun e => by cases e), rfl⟩)⟩
  leave s a c st ha hst h := ⟨authBase_changes.leave s a c st ha hst h.1, (h.2.calm hδ (calm_withdrawOnly s a c)).calm hδ
    (calm_mapRoute _ a.id fun _ => ⟨rfl, rfl, rfl, (by rcases hst with rfl | rfl <;> exact fun e => by cases e), rfl⟩)⟩
  enter s a ha h := ⟨authBase_changes.enter s a ha h.1, ((h.2.calm hδ (calm_withdrawOnly s a .entered)).calm hδ
    (calm_dropEntryOf _ a.id)).calm hδ (calm_mapRoute _ a.id fun _ => ⟨rfl, rfl, rfl, (fun e => by cases e), rfl⟩)⟩
  passEntry s a ha hs h := ⟨authBase_changes.passEntry s a ha hs h.1, h.2.calm hδ (calm_dropEntryOf s a.id)⟩
  drop s a ha hs h := ⟨authBase_changes.drop s a ha hs h.1, h.2.calm hδ (calm_dropRoute s a.id)⟩
  cancel s a c ha h := ⟨authBase_changes.cancel s a c ha h.1, (h.2.calm hδ (calm_withdrawOnly s a c)).calm hδ
    (calm_dropRoute _ a.id)⟩
  release s a id ha hid h := ⟨authBase_changes.release s a id ha hid h.1, h.2.calm hδ (calm_freed s a id)⟩
  overlap s a kept ha h := ⟨authBase_changes.overlap s a kept ha h.1, h.2.calm hδ (calm_overlapFreed s a kept)⟩
  flags s id hn h := ⟨authBase_changes.flags s id nofun h.1, h.2.flags hδ id hn⟩
  accept s ref x f hx hb hf h := ⟨h.1.of_eq rfl rfl (fun e => e) rfl, h.2.calm hδ (calm_slots rfl rfl
    (fun y => by split <;> exact ⟨rfl, rfl⟩) rfl rfl rfl rfl rfl rfl rfl (fun y => by split <;> [exact (hf y).1; rfl])
    (fun _ y _ _ => by split <;> [exact (hf y).2.2.1; rfl]))⟩
  inbound s ref x f hx hf hi h := ⟨h.1.of_eq rfl rfl (fun e => e) rfl, h.2.calm hδ (calm_slots (g := id) rfl (List.map_id _).symm
    (fun _ => ⟨rfl, rfl⟩) rfl rfl rfl rfl rfl rfl rfl (fun y => by split <;> [exact (hf y).1; rfl])
    (fun _ y _ _ => by split <;> [exact (hf y).2.2; rfl]))⟩
  leaveInbound s ref x b f hx hb hf h := ⟨h.1.of_eq rfl rfl (fun e => e) rfl, h.2.calm hδ (calm_slots rfl
    (dropEntry_sections ref b s) (fun y => by unfold SectionRec.withoutEntry; split <;> exact ⟨rfl, rfl⟩) rfl rfl rfl rfl rfl rfl rfl
    (fun y => by split <;> [exact (hf y).1; rfl]) (fun _ y _ _ => by split <;> [exact (hf y).2.2; rfl]))⟩
  take s d v flanks opts ht h := by
    rw [takeRoute_taken]; exact ⟨h.1.taken ht, h.2.calm hδ (taken_calm ht)⟩
  blocks s ch h := ⟨authBase_changes.blocks s ch h.1, .idle (by cases ch <;> rfl)⟩

/-- Each doubt is settled by the unit that hears of the change. -/
theorem authStands_fine (hδ : δ.Single) : Fine AuthBase (AuthStands δ) (fun ε => δ = ε) where
  base := authBase_changes
  self := authStands_changes hδ
  sub _ h := h.1
  perm s c ε e hc h := by
    subst e
    exact ⟨(Fine.const authBase_changes).permOn c h, permOn_stands h.ids hc⟩
  flag s id e h := by
    subst e
    exact ⟨authBase_changes.flags s id nofun h, stands_flag id⟩
  entry s id r e hn h := by
    subst e
    refine ⟨h, fun a ha hid hp hh => ?_⟩
    by_contra hne
    exact hn (Bool.eq_true_of_not_eq_false hne) a (hid ▸ route?_of_mem h.ids ha) hp hh
  idle _ hr h := ⟨h, .idle hr⟩

end CalmChanges

end Sys2Proof.Machine

/-!
PROOFS. O57: holders, locks, permission, its conditions and reservations under every command (R57, R77, R82, R93 to R96, R104, R146).
-/

namespace Sys2Proof.Machine

section Steps
variable {δ : Doubt} {s t : State}

/-! ## Steps -/

theorem authStands_step (hδ : δ.Single) (hk : PointsKnown (fun ε => δ = ε) s) (h : AuthStands δ s) (e : step s = .next t) :
    AuthStands δ t :=
  (authStands_fine hδ).step (fun _ _ => ⟨authBase_idle rfl (List.forall_mem_nil _), .idle rfl⟩)
    (fun _ _ hl _ hs => ⟨authBase_idle (hs.1.loading hl) (List.forall_mem_map.2 fun _ _ => rfl), .idle (hs.1.loading hl)⟩) e hk h

theorem authBase_step (h : AuthBase s) (e : step s = .next t) : AuthBase t :=
  (Fine.const authBase_changes).step (fun _ _ => authBase_idle rfl (List.forall_mem_nil _))
    (fun _ _ hl _ hs => authBase_idle (hs.loading hl) (List.forall_mem_map.2 fun _ _ => rfl)) e (fun ⟨_, _, e, _⟩ => e.elim) h

/-! ## What each doubt says (R94) -/

theorem ite_none_iff {p : Prop} [Decidable p] {c : PermCause} : (if p then none else some c) = none ↔ p := by
  split <;> simp [*]

theorem stands_device : Stands s (.cond .device) ↔ ∀ a ∈ s.routes, a.state = .permitted → s.dev.state = .inService := by
  constructor
  · exact fun h a ha hp => ite_none_iff.1 (h a ha trivial hp rfl)
  · exact fun h a ha _ hp _ => ite_none_iff.2 (h a ha hp)

theorem stands_channel {ch : Channel} : Stands s (.cond (.channel ch)) ↔ ∀ a ∈ s.routes, a.state = .permitted →
    s.operating ch = true := by
  constructor
  · exact fun h a ha hp => ite_none_iff.1 (h a ha trivial hp rfl)
  · exact fun h a ha _ hp _ => ite_none_iff.2 (h a ha hp)

theorem stands_sec {id : Nat} : Stands s (.cond (.sec id)) ↔ ∀ a ∈ s.routes, a.state = .permitted →
    id ∈ allSecs (s.defOf a.id) a.variant →
    secStatusIs s id .clear = true ∨ (s.defOf a.id).secs.head? = some id ∧ secStatusIs s id .occupied = true := by
  have e : ∀ a, failedBy (.sec id) s a = none ↔ secStatusIs s id .clear = true
      ∨ (s.defOf a.id).secs.head? = some id ∧ secStatusIs s id .occupied = true := fun a => by
    refine ite_none_iff.trans ?_
    rw [Bool.or_eq_true, Bool.and_eq_true, beq_iff_eq]
  constructor
  · exact fun h a ha hp hm => (e a).1 (h a ha trivial hp (concerns_iff.2 hm))
  · exact fun h a ha _ hp hc => (e a).2 (h a ha hp (concerns_iff.1 hc))

theorem stands_point {id : Nat} : Stands s (.cond (.point id)) ↔ ∀ a ∈ s.routes, a.state = .permitted →
    ∀ q ∈ allPoints (s.defOf a.id) a.variant, q.point = id → pointIn s q = true := by
  have e : ∀ a, failedBy (.point id) s a = none ↔ ∀ q ∈ allPoints (s.defOf a.id) a.variant, q.point = id → pointIn s q = true :=
    fun a => by
      refine ite_none_iff.trans ?_
      rw [List.all_eq_true]
      refine forall_congr' fun q => forall_congr' fun _ => ?_
      rw [Bool.or_eq_true, bne_iff_ne, ne_eq, ← Decidable.imp_iff_not_or]
  constructor
  · exact fun h a ha hp q hq hid => (e a).1 (h a ha trivial hp (concerns_iff.2 ⟨q, hq, hid⟩)) q hq hid
  · exact fun h a ha _ hp _ => (e a).2 (h a ha hp)

theorem stands_flank {r : Nat} : Stands s (.cond (.flank [r])) ↔ ∀ a ∈ s.routes, a.state = .permitted → a.id = r →
    ∀ f ∈ a.flanks, f.standing = true → f.satisfied = true := by
  have e : ∀ a, failedBy (.flank [r]) s a = none ↔ ∀ f ∈ a.flanks, f.standing = true → f.satisfied = true :=
    fun a => Option.map_eq_none_iff.trans flankFail_none_iff
  constructor
  · exact fun h a ha hp hid => (e a).1 (h a ha trivial hp (concerns_iff.2 (List.mem_singleton.2 hid)))
  · exact fun h a ha _ hp hc => (e a).2 (h a ha hp (List.mem_singleton.1 (concerns_iff.1 hc)))

theorem stands_signal {g : Nat} : Stands s (.cond (.signals [g])) ↔ ∀ a ∈ s.routes, a.state = .permitted →
    (s.defOf a.id).entry = g → SignalFit s g := by
  constructor
  · intro h a ha hp hg
    have := ite_none_iff.1 (h a ha trivial hp (concerns_iff.2 (List.mem_singleton.2 hg)))
    exact hg ▸ entrySignalOk_iff.1 this
  · intro h a ha _ hp hc
    have hg := List.mem_singleton.1 (concerns_iff.1 hc)
    exact ite_none_iff.2 (entrySignalOk_iff.2 (hg ▸ h a ha hp hg))

theorem stands_slot {ref : SlotRef} : Stands s (.cond (.slot ref)) ↔ ∀ a ∈ s.routes, a.state = .permitted →
    a.exitSlot = some ref → ∃ x, s.slot? ref = some x ∧ x.outb = .accepted := by
  have e : boundaryOk s (some ref) = true ↔ ∃ x, s.slot? ref = some x ∧ x.outb = .accepted := by
    rw [boundaryOk_iff]
    exact ⟨fun h => h ref rfl, fun h k hk => Option.some.inj hk ▸ h⟩
  constructor
  · exact fun h a ha hp hr => e.1 (ite_none_iff.1 (h a ha trivial hp (concerns_iff.2 hr)))
  · exact fun h a ha _ hp hc => ite_none_iff.2 (e.2 (h a ha hp (concerns_iff.1 hc)))

/-! ## Permission (R93, R104) -/

theorem authorityLaw_stands : AuthorityLaw s ↔ AuthBase s ∧ Stands s (.cond .device) ∧ ∀ ch, Stands s (.cond (.channel ch)) := by
  rw [authorityLaw_iff, stands_device]
  simp only [stands_channel]
  constructor
  · exact fun ⟨h, hs⟩ => ⟨h, fun a ha hp => (hs a ha hp).1, fun ch a ha hp => (hs a ha hp).2 ch⟩
  · exact fun ⟨h, hd, hc⟩ => ⟨h, fun a ha hp => ⟨hd a ha hp, fun ch => hc ch a ha hp⟩⟩

theorem authorityLaw_step (h : AuthorityLaw s) (e : step s = .next t) : AuthorityLaw t := by
  obtain ⟨hb, hd, hc⟩ := authorityLaw_stands.1 h
  refine authorityLaw_stands.2 ⟨authBase_step hb e, (authStands_step (δ := .cond .device) Concern.Single.device (fun ⟨_, _, e, ho⟩ => ?_) ⟨hb, hd⟩ e).2,
    fun ch => (authStands_step (δ := .cond (.channel ch)) (Concern.Single.channel ch) (fun ⟨_, _, e, ho⟩ => ?_) ⟨hb, hc ch⟩ e).2⟩
  all_goals
    subst e
    rcases ho with ho | ho <;> cases ho

/-! ## The conditions of a granted permission (R82, R94, R96) -/

/-- `ProceedLaw` says of each doubt that it stands, but for those on the device and the channels. -/
theorem proceedLaw_iff : ProceedLaw s ↔ (∀ id, Stands s (.cond (.sec id))) ∧ (∀ id r, Stands s (.entry id r))
    ∧ (∀ id, Stands s (.cond (.point id))) ∧ (∀ r, Stands s (.cond (.flank [r]))) ∧ (∀ id, Stands s (.flag id))
    ∧ (∀ g, Stands s (.cond (.signals [g]))) ∧ ∀ ref, Stands s (.cond (.slot ref)) := by
  simp only [stands_sec, stands_point, stands_flank, stands_signal, stands_slot]
  have flank_iff : ∀ o : FlankOpt, optSatisfied s o = true ↔ match o with
      | .point id pos => ∃ x, s.point? id = some x ∧ x.status = statusOfPos pos
      | .signal id => ∃ x, s.signal? id = some x ∧ x.status = .danger ∧ x.faulted = false := by
    intro o
    cases o with
    | point id pos => exact pointIn_iff
    | signal id =>
      unfold optSatisfied
      dsimp only
      cases s.signal? id <;> simp
  constructor
  · intro h
    refine ⟨fun id a ha hp hm => .inl ?_, fun id r a ha hid hp hh => ?_, fun id a ha hp q hq _ => ?_,
      fun r a ha hp _ f hf hs => ?_, fun id a ha f hf hs _ => h.satisfied a ha f hf hs,
      fun g a ha hp hg => hg ▸ h.signal a ha hp, fun ref a ha hp hr => h.exit a ha hp ref hr⟩
    · obtain ⟨x, hx, hs⟩ := h.sections a ha hp id hm
      unfold secStatusIs; rw [hx]; exact beq_iff_eq.2 hs
    · subst hid
      obtain ⟨x, hx, hs⟩ := h.sections a ha hp id (List.mem_append_left _ (List.mem_of_head? hh))
      unfold secStatusIs; rw [hx]; dsimp only; rw [hs]; rfl
    · exact pointIn_iff.2 (h.points a ha hp q hq)
    · rw [h.satisfied a ha f hf hs]
      exact (flank_iff f.opt).2 (h.flank a ha hp f hf hs)
  · rintro ⟨hsec, hent, hpt, hfl, hflag, hsig, hslot⟩
    refine ⟨fun a ha f hf hs => hflag _ a ha f hf hs rfl, fun a ha hp id hm => ?_,
      fun a ha hp q hq => pointIn_iff.1 (hpt _ a ha hp q hq rfl), fun a ha hp f hf hs => ?_, fun a ha hp => hsig _ a ha hp rfl,
      fun a ha hp ref hr => hslot ref a ha hp hr⟩
    · have hc : secStatusIs s id .clear = true := (hsec id a ha hp hm).resolve_right fun ⟨hh, ho⟩ => by
        have := hent id a.id a ha rfl hp hh
        rw [ho] at this; cases this
      unfold secStatusIs at hc
      split at hc
      · next x hx => exact ⟨x, hx, beq_iff_eq.1 hc⟩
      · cases hc
    · have hs' := hfl a.id a ha hp rfl f hf hs
      rw [hflag _ a ha f hf hs rfl] at hs'
      exact (flank_iff f.opt).1 hs'

theorem proceedLaw_step (hel : ElementLaw s) (ha : AuthorityLaw s) (hp : ProceedLaw s) (e : step s = .next t) : ProceedLaw t := by
  obtain ⟨hsec, hent, hpt, hfl, hflag, hsig, hslot⟩ := proceedLaw_iff.1 hp
  have hb := (authorityLaw_iff.1 ha).1
  have go : ∀ {δ : Doubt}, δ.Single → Stands s δ → Stands t δ := fun hδ h => (authStands_step hδ (fun _ => hel) ⟨hb, h⟩ e).2
  exact proceedLaw_iff.2 ⟨fun id => go (Concern.Single.sec id) (hsec id), fun id r => go trivial (hent id r), fun id => go (Concern.Single.point id) (hpt id),
    fun r => go (Concern.Single.flank r) (hfl r), fun id => go trivial (hflag id), fun g => go (Concern.Single.signal g) (hsig g),
    fun ref => go (Concern.Single.slot ref) (hslot ref)⟩

end Steps

/-- Settles O57: holders by `StepKept`, locks, permission and reservations by the kinds of change, and each condition of a granted
permission by the unit that settles it. -/
theorem stepKeepsHolderLaw : Obligations.StepKeepsHolderLaw :=
  ⟨fun _ _ h e => holderLaw_kept.step h e, fun _ _ h e => lockLaw_step h e, fun _ _ h e => authorityLaw_step h e,
    fun _ _ hel ha hp e => proceedLaw_step hel ha hp e, fun _ _ h e => reservationLaw_step h e⟩

end Sys2Proof.Machine
